-- ==== Sys2Proof/Word.lean ====
section
/-!
DEFINITION. The word types, and what the rows of the opcode table name besides words: places, contributions, units (00
R3, R5; 05 R110).
-/

namespace Sys2Proof

/-- A 32-bit register or instruction word. -/
abbrev Word := BitVec 32

/-- One byte of memory. -/
abbrev Byte := BitVec 8

/-- A 64-bit path (08 R197). -/
abbrev Path := BitVec 64

/-- A 256-bit vector register (06 R141). -/
abbrev Vec := BitVec 256

/-- Where a package copy engine reads or writes (09 R237): host memory, the context's virtual space, a physical range,
the range reserved for the host (20 R432), or bytes that come from or go to a peer module. -/
inductive Place where
  | host (addr : Nat)
  | virt (va : Nat)
  | phys (pa : Nat)
  | hdm (off : Nat)
  | peer (data : List (BitVec 8))
  deriving DecidableEq, Repr

/-- An atomic that reaches its home here (11 R265, R267): number `n` of core `c`, or one of a peer module on an element of
context `x` (20 R437). -/
inductive AtomSource where
  | own (c n : Nat)
  | peer (x va : Nat) (op : BitVec 4) (operand compare : BitVec 32)
  deriving DecidableEq, Repr

/-- What reaches a scale-up switch in an epoch (20 R438): a contribution of a core of a module, with its R271 op, element
address and operand, or a module's close with the operand of its atomic on CTR and the value that an ACAS compares. -/
inductive Contribution where
  | value (module core seq : Nat) (op : BitVec 4) (va : Nat) (operand : BitVec 32)
  | close (module : Nat) (op : BitVec 4) (operand compare : BitVec 32)
  deriving DecidableEq, Repr

/-- The units whose errors are counted and those which can be retired (21 R444, R446, R447); of the caches and buffers `k` is a
cluster, `d` a die, `p` a port. -/
inductive HwUnit where
  | core (c : Nat)
  | row (die row : Nat)
  | macRow (c : Nat)
  | laneGroup (k g : Nat)
  | copyUnit (k : Nat)
  | combBuilder (k : Nat)
  | controlStore (k : Nat)
  | channel (stack n : Nat)
  | hbmWord (pa : Nat)
  | parcel (pa : Nat)
  | xlateCache (k : Nat)
  | dieXlate (d : Nat)
  | treeCache (k : Nat)
  | copyBuffer (k : Nat)
  | retryBuffer (p : Nat)
  deriving DecidableEq, Repr

end Sys2Proof
end

