-- ==== Sys2Proof/Config.lean ====
section
/-!
DEFINITION. What an implementation fixes, and the values the spec leaves open. A constant with no body is a free
value: nothing can be proved of it (notes/assumptions names each).
-/

namespace Sys2Proof.Config

/-- The part number, generation and stepping of this part (05 R135): the first stepping. -/
def identWord : Word := 0x06500100#32

/-- The result bits of a special function where the model's bounds do not decide the correctly rounded value
(log 8): function number, operand. -/
opaque undecided : Nat → Word → Word

/-- Whether the boot ROM accepts an executive image, by the hash of it and its security version: the signature under
Orostra's firmware key, and the fused minimum (21 R450; log 7). -/
opaque firmwareAccepts : BitVec 256 → Nat → Bool

/-- The pseudo-channel of its stack that holds a physical address (21 R446; log 96). -/
opaque channelOf : Nat → Nat

/-- The boot ROM's SHA-256 (21 R451; log 7). -/
opaque romHash : BitVec 256

/-- The signature the identity key of the module makes over measurements and a nonce (21 R451; log 7). -/
opaque attestSignature : BitVec 256 → Nat → Nat → Nat

/-- A value the manual does not state, drawn by number (log 11). -/
opaque freeWord : Nat → Word

/-- The register files a context passes on are zero; this is the byte an unlisted local or HBM address reads as
(21 R448, R450). -/
def blankByte : Byte := 0#8

end Sys2Proof.Config
end

