-- ==== Sys2Proof/Syntax.lean ====
section
/-!
DEFINITION. The abstract syntax: one constructor per row of spec/opcode_table.json.
The first part are the encoded instructions with the fields of their words (04 R86 to R94); a field that can only
name a0-a7, m0-m7, z0-z1 or a lane has that width, the other values being refused by the decoder (R84, R90).
The second part are the steps of the engines, of the executive and of the host, which have no word (95).
-/

namespace Sys2Proof

/-- Every step of the part. -/
inductive Instr where
  /-- ADD (R111). Writes the wrapped signed sum of two scalar registers. -/
  | add (d : BitVec 5) (a : BitVec 5) (b : BitVec 5)
  /-- SUB (R111). Writes the wrapped difference of two scalar registers. -/
  | sub (d : BitVec 5) (a : BitVec 5) (b : BitVec 5)
  /-- AND (R111). Writes the bitwise AND of two registers. -/
  | and (d : BitVec 5) (a : BitVec 5) (b : BitVec 5)
  /-- OR (R111). Writes the bitwise OR of two registers. -/
  | or (d : BitVec 5) (a : BitVec 5) (b : BitVec 5)
  /-- XOR (R111). Writes the bitwise XOR of two registers. -/
  | xor (d : BitVec 5) (a : BitVec 5) (b : BitVec 5)
  /-- ANDN (R111). Writes a AND NOT b. -/
  | andn (d : BitVec 5) (a : BitVec 5) (b : BitVec 5)
  /-- SHL (R111). Shifts left by an unmasked register amount. -/
  | shl (d : BitVec 5) (a : BitVec 5) (b : BitVec 5)
  /-- SHR (R111). Shifts right logically by an unmasked register amount. -/
  | shr (d : BitVec 5) (a : BitVec 5) (b : BitVec 5)
  /-- SRA (R111). Shifts right arithmetically by an unmasked register amount. -/
  | sra (d : BitVec 5) (a : BitVec 5) (b : BitVec 5)
  /-- SLT (R111). Writes 1 when a is less than b signed. -/
  | slt (d : BitVec 5) (a : BitVec 5) (b : BitVec 5)
  /-- SLTU (R111). Writes 1 when a is less than b unsigned. -/
  | sltu (d : BitVec 5) (a : BitVec 5) (b : BitVec 5)
  /-- SEQ (R111). Writes 1 when a equals b. -/
  | seq (d : BitVec 5) (a : BitVec 5) (b : BitVec 5)
  /-- SNE (R111). Writes 1 when a differs from b. -/
  | sne (d : BitVec 5) (a : BitVec 5) (b : BitVec 5)
  /-- MIN (R111). Writes the signed minimum. -/
  | min (d : BitVec 5) (a : BitVec 5) (b : BitVec 5)
  /-- MAX (R111). Writes the signed maximum. -/
  | max (d : BitVec 5) (a : BitVec 5) (b : BitVec 5)
  /-- MINU (R111). Writes the unsigned minimum. -/
  | minu (d : BitVec 5) (a : BitVec 5) (b : BitVec 5)
  /-- MAXU (R111). Writes the unsigned maximum. -/
  | maxu (d : BitVec 5) (a : BitVec 5) (b : BitVec 5)
  /-- SEL (R111). Selects a or b according to the prior value of the destination. -/
  | sel (d : BitVec 5) (a : BitVec 5) (b : BitVec 5)
  /-- CLZ (R111). Counts leading zero bits. -/
  | clz (d : BitVec 5) (a : BitVec 5)
  /-- POPC (R111). Counts one bits. -/
  | popc (d : BitVec 5) (a : BitVec 5)
  /-- BREV (R111). Reverses the bit order. -/
  | brev (d : BitVec 5) (a : BitVec 5)
  /-- ADDI (R112). Adds a sign-extended immediate. -/
  | addi (d : BitVec 5) (a : BitVec 5) (i : BitVec 16)
  /-- ANDI (R112). ANDs a zero-extended immediate. -/
  | andi (d : BitVec 5) (a : BitVec 5) (i : BitVec 16)
  /-- ORI (R112). ORs a zero-extended immediate. -/
  | ori (d : BitVec 5) (a : BitVec 5) (i : BitVec 16)
  /-- XORI (R112). XORs a zero-extended immediate. -/
  | xori (d : BitVec 5) (a : BitVec 5) (i : BitVec 16)
  /-- SLTI (R112). Signed compare with a sign-extended immediate. -/
  | slti (d : BitVec 5) (a : BitVec 5) (i : BitVec 16)
  /-- SLTIU (R112). Unsigned compare with a sign-extended immediate. -/
  | sltiu (d : BitVec 5) (a : BitVec 5) (i : BitVec 16)
  /-- SHLI (R112). Shifts left by an immediate amount 0 to 63. -/
  | shli (d : BitVec 5) (a : BitVec 5) (n : BitVec 6)
  /-- SHRI (R112). Shifts right logically by an immediate amount. -/
  | shri (d : BitVec 5) (a : BitVec 5) (n : BitVec 6)
  /-- SRAI (R112). Shifts right arithmetically by an immediate amount. -/
  | srai (d : BitVec 5) (a : BitVec 5) (n : BitVec 6)
  /-- LUI (R112). Writes the immediate shifted left by 16. -/
  | lui (d : BitVec 5) (i : BitVec 16)
  /-- MUL (R113). Writes the low word of the signed product. -/
  | mul (d : BitVec 5) (a : BitVec 5) (b : BitVec 5)
  /-- MULH (R113). Writes the high word of the signed product. -/
  | mulh (d : BitVec 5) (a : BitVec 5) (b : BitVec 5)
  /-- MULHU (R113). Writes the high word of the unsigned product. -/
  | mulhu (d : BitVec 5) (a : BitVec 5) (b : BitVec 5)
  /-- DIV (R113). Signed division truncating toward zero, with defined corner cases. -/
  | div (d : BitVec 5) (a : BitVec 5) (b : BitVec 5)
  /-- DIVU (R113). Unsigned division. -/
  | divu (d : BitVec 5) (a : BitVec 5) (b : BitVec 5)
  /-- REM (R113). Signed remainder taking the dividend's sign. -/
  | rem (d : BitVec 5) (a : BitVec 5) (b : BitVec 5)
  /-- REMU (R113). Unsigned remainder. -/
  | remu (d : BitVec 5) (a : BitVec 5) (b : BitVec 5)
  /-- BEQZ (R114). Branches when the register is zero. -/
  | beqz (h : BitVec 2) (a : BitVec 5) (o : BitVec 19)
  /-- BNEZ (R114). Branches when the register is non-zero. -/
  | bnez (h : BitVec 2) (a : BitVec 5) (o : BitVec 19)
  /-- BLTZ (R114). Branches when the register is negative. -/
  | bltz (h : BitVec 2) (a : BitVec 5) (o : BitVec 19)
  /-- BGEZ (R114). Branches when the register is not negative. -/
  | bgez (h : BitVec 2) (a : BitVec 5) (o : BitVec 19)
  /-- BGTZ (R114). Branches when the register is positive. -/
  | bgtz (h : BitVec 2) (a : BitVec 5) (o : BitVec 19)
  /-- BLEZ (R114). Branches when the register is zero or negative. -/
  | blez (h : BitVec 2) (a : BitVec 5) (o : BitVec 19)
  /-- JAL (R115). Jumps relative and writes the link address. -/
  | jal (d : BitVec 5) (o : BitVec 21)
  /-- JALR (R115). Jumps to a register plus offset and writes the link address. -/
  | jalr (d : BitVec 5) (a : BitVec 5) (i : BitVec 16)
  /-- LOOP (R119). Starts a hardware loop whose count comes from a register. -/
  | loop (c : BitVec 5) (l : BitVec 16)
  /-- LOOPI (R119). Starts a hardware loop with an immediate count. -/
  | loopi (c : BitVec 16) (l : BitVec 10)
  /-- REPF (R122). Captures the next n instructions and replays them count times with staggered register fields. -/
  | repf (n : BitVec 4) (c : BitVec 6) (d : BitVec 4) (a : BitVec 4) (b : BitVec 4)
  /-- MCALL (R125). Runs a control-store macro inline with parameter substitution. -/
  | mcall (m : BitVec 6) (p : BitVec 5) (q : BitVec 5) (r : BitVec 5) (s : BitVec 5)
  /-- LD_B (R117). Loads a sign-extended byte from raw local memory. -/
  | ldB (d : BitVec 5) (b : BitVec 5) (o : BitVec 13)
  /-- LD_BU (R117). Loads a zero-extended byte from raw local memory. -/
  | ldBu (d : BitVec 5) (b : BitVec 5) (o : BitVec 13)
  /-- LD_H (R117). Loads a sign-extended half-word. -/
  | ldH (d : BitVec 5) (b : BitVec 5) (o : BitVec 13)
  /-- LD_HU (R117). Loads a zero-extended half-word. -/
  | ldHu (d : BitVec 5) (b : BitVec 5) (o : BitVec 13)
  /-- LD_W (R117). Loads a word from raw local memory. -/
  | ldW (d : BitVec 5) (b : BitVec 5) (o : BitVec 13)
  /-- ST_B (R117). Stores a byte to raw local memory at issue. -/
  | stB (d : BitVec 5) (b : BitVec 5) (o : BitVec 13)
  /-- ST_H (R117). Stores a half-word to raw local memory at issue. -/
  | stH (d : BitVec 5) (b : BitVec 5) (o : BitVec 13)
  /-- ST_W (R117). Stores a word to raw local memory at issue. -/
  | stW (d : BitVec 5) (b : BitVec 5) (o : BitVec 13)
  /-- PSET (R203). Builds a path of a given handle and depth with index 0. -/
  | pset (d : BitVec 3) (a : BitVec 5) (b : BitVec 5)
  /-- PCHILD (R203). Steps a path down to a chosen quadrant. -/
  | pchild (d : BitVec 3) (a : BitVec 3) (b : BitVec 5)
  /-- PPARENT (R203). Steps a path up one depth. -/
  | pparent (d : BitVec 3) (a : BitVec 3)
  /-- PNEXT (R203). Steps a path to the next block of its depth. -/
  | pnext (d : BitVec 3) (a : BitVec 3)
  /-- PMORT (R203). Sets a path's index from row and column. -/
  | pmort (d : BitVec 3) (a : BitVec 5) (b : BitVec 5)
  /-- PROW (R203). Reads the first row of a path's block. -/
  | prow (d : BitVec 5) (a : BitVec 3)
  /-- PCOL (R203). Reads the first column of a path's block. -/
  | pcol (d : BitVec 5) (a : BitVec 3)
  /-- PDEPTH (R203). Reads a path's depth. -/
  | pdepth (d : BitVec 5) (a : BitVec 3)
  /-- PTRUNC (R203). Truncates a path to a smaller depth. -/
  | ptrunc (d : BitVec 3) (a : BitVec 3) (b : BitVec 5)
  /-- PGETLO (R203). Reads the low half of a path register. -/
  | pgetlo (d : BitVec 5) (a : BitVec 3)
  /-- PGETHI (R203). Reads the high half of a path register. -/
  | pgethi (d : BitVec 5) (a : BitVec 3)
  /-- PSETLO (R203). Writes the low half of a path register unchecked. -/
  | psetlo (d : BitVec 3) (a : BitVec 5)
  /-- PSETHI (R203). Writes the high half of a path register unchecked. -/
  | psethi (d : BitVec 3) (a : BitVec 5)
  /-- VADD (R151). FP32 element-wise addition. -/
  | vadd (d : BitVec 5) (a : BitVec 5) (b : BitVec 5) (m : BitVec 3)
  /-- VSUB (R151). FP32 element-wise subtraction. -/
  | vsub (d : BitVec 5) (a : BitVec 5) (b : BitVec 5) (m : BitVec 3)
  /-- VMUL (R151). FP32 element-wise multiplication. -/
  | vmul (d : BitVec 5) (a : BitVec 5) (b : BitVec 5) (m : BitVec 3)
  /-- VFMA (R151). FP32 fused multiply-add. -/
  | vfma (d : BitVec 5) (a : BitVec 5) (b : BitVec 5) (m : BitVec 3)
  /-- VFMS (R151). FP32 fused multiply-subtract. -/
  | vfms (d : BitVec 5) (a : BitVec 5) (b : BitVec 5) (m : BitVec 3)
  /-- VFNMA (R151). FP32 negated fused multiply-add. -/
  | vfnma (d : BitVec 5) (a : BitVec 5) (b : BitVec 5) (m : BitVec 3)
  /-- VMIN (R151). FP32 element-wise minimum. -/
  | vmin (d : BitVec 5) (a : BitVec 5) (b : BitVec 5) (m : BitVec 3)
  /-- VMAX (R151). FP32 element-wise maximum. -/
  | vmax (d : BitVec 5) (a : BitVec 5) (b : BitVec 5) (m : BitVec 3)
  /-- VADD_BF (R151). BF16 element-wise addition. -/
  | vaddBf (d : BitVec 5) (a : BitVec 5) (b : BitVec 5) (m : BitVec 3)
  /-- VSUB_BF (R151). BF16 element-wise subtraction. -/
  | vsubBf (d : BitVec 5) (a : BitVec 5) (b : BitVec 5) (m : BitVec 3)
  /-- VMUL_BF (R151). BF16 element-wise multiplication. -/
  | vmulBf (d : BitVec 5) (a : BitVec 5) (b : BitVec 5) (m : BitVec 3)
  /-- VFMA_BF (R151). BF16 fused multiply-add. -/
  | vfmaBf (d : BitVec 5) (a : BitVec 5) (b : BitVec 5) (m : BitVec 3)
  /-- VFMS_BF (R151). BF16 fused multiply-subtract. -/
  | vfmsBf (d : BitVec 5) (a : BitVec 5) (b : BitVec 5) (m : BitVec 3)
  /-- VFNMA_BF (R151). BF16 negated fused multiply-add. -/
  | vfnmaBf (d : BitVec 5) (a : BitVec 5) (b : BitVec 5) (m : BitVec 3)
  /-- VMIN_BF (R151). BF16 element-wise minimum. -/
  | vminBf (d : BitVec 5) (a : BitVec 5) (b : BitVec 5) (m : BitVec 3)
  /-- VMAX_BF (R151). BF16 element-wise maximum. -/
  | vmaxBf (d : BitVec 5) (a : BitVec 5) (b : BitVec 5) (m : BitVec 3)
  /-- VIADD (R152). Integer vector addition at 32, 16 or 8 bits. -/
  | viadd (d : BitVec 5) (a : BitVec 5) (b : BitVec 5) (m : BitVec 3) (w : BitVec 2)
  /-- VISUB (R152). Integer vector subtraction. -/
  | visub (d : BitVec 5) (a : BitVec 5) (b : BitVec 5) (m : BitVec 3) (w : BitVec 2)
  /-- VIMUL (R152). Integer vector multiplication, low part. -/
  | vimul (d : BitVec 5) (a : BitVec 5) (b : BitVec 5) (m : BitVec 3) (w : BitVec 2)
  /-- VIMULH (R152). Integer vector multiplication, high part. -/
  | vimulh (d : BitVec 5) (a : BitVec 5) (b : BitVec 5) (m : BitVec 3) (w : BitVec 2)
  /-- VAND (R152). Vector bitwise AND. -/
  | vand (d : BitVec 5) (a : BitVec 5) (b : BitVec 5) (m : BitVec 3) (w : BitVec 2)
  /-- VOR (R152). Vector bitwise OR. -/
  | vor (d : BitVec 5) (a : BitVec 5) (b : BitVec 5) (m : BitVec 3) (w : BitVec 2)
  /-- VXOR (R152). Vector bitwise XOR. -/
  | vxor (d : BitVec 5) (a : BitVec 5) (b : BitVec 5) (m : BitVec 3) (w : BitVec 2)
  /-- VSHL (R152). Vector shift left. -/
  | vshl (d : BitVec 5) (a : BitVec 5) (b : BitVec 5) (m : BitVec 3) (w : BitVec 2)
  /-- VSHR (R152). Vector logical shift right. -/
  | vshr (d : BitVec 5) (a : BitVec 5) (b : BitVec 5) (m : BitVec 3) (w : BitVec 2)
  /-- VSRA (R152). Vector arithmetic shift right. -/
  | vsra (d : BitVec 5) (a : BitVec 5) (b : BitVec 5) (m : BitVec 3) (w : BitVec 2)
  /-- VIMIN (R152). Vector signed minimum. -/
  | vimin (d : BitVec 5) (a : BitVec 5) (b : BitVec 5) (m : BitVec 3) (w : BitVec 2)
  /-- VIMAX (R152). Vector signed maximum. -/
  | vimax (d : BitVec 5) (a : BitVec 5) (b : BitVec 5) (m : BitVec 3) (w : BitVec 2)
  /-- VCMPEQ (R153). FP32 equality compare into a mask. -/
  | vcmpeq (d : BitVec 3) (a : BitVec 5) (b : BitVec 5) (m : BitVec 3)
  /-- VCMPNE (R153). FP32 inequality compare into a mask. -/
  | vcmpne (d : BitVec 3) (a : BitVec 5) (b : BitVec 5) (m : BitVec 3)
  /-- VCMPLT (R153). FP32 less-than compare into a mask. -/
  | vcmplt (d : BitVec 3) (a : BitVec 5) (b : BitVec 5) (m : BitVec 3)
  /-- VCMPLE (R153). FP32 less-or-equal compare into a mask. -/
  | vcmple (d : BitVec 3) (a : BitVec 5) (b : BitVec 5) (m : BitVec 3)
  /-- VICMPEQ (R153). 32-bit integer equality compare into a mask. -/
  | vicmpeq (d : BitVec 3) (a : BitVec 5) (b : BitVec 5) (m : BitVec 3)
  /-- VICMPLT (R153). Signed integer less-than compare into a mask. -/
  | vicmplt (d : BitVec 3) (a : BitVec 5) (b : BitVec 5) (m : BitVec 3)
  /-- VICMPLTU (R153). Unsigned integer less-than compare into a mask. -/
  | vicmpltu (d : BitVec 3) (a : BitVec 5) (b : BitVec 5) (m : BitVec 3)
  /-- VSEL (R154). Selects lanes from two vectors by a mask. -/
  | vsel (d : BitVec 5) (a : BitVec 5) (b : BitVec 5) (m : BitVec 3)
  /-- VPERM (R154). Permutes lanes by an index vector. -/
  | vperm (d : BitVec 5) (a : BitVec 5) (b : BitVec 5) (m : BitVec 3)
  /-- VBCAST (R154). Broadcasts a scalar register to all lanes. -/
  | vbcast (d : BitVec 5) (a : BitVec 5) (m : BitVec 3)
  /-- VMOVS (R154). Moves one vector lane to a scalar register, interlocked. -/
  | vmovs (d : BitVec 5) (a : BitVec 5) (n : BitVec 3)
  /-- VINS (R154). Inserts a scalar register into one lane. -/
  | vins (d : BitVec 5) (a : BitVec 5) (n : BitVec 3)
  /-- VMAND (R155). ANDs two mask registers. -/
  | vmand (d : BitVec 3) (a : BitVec 3) (b : BitVec 3)
  /-- VMOR (R155). ORs two mask registers. -/
  | vmor (d : BitVec 3) (a : BitVec 3) (b : BitVec 3)
  /-- VMNOT (R155). Inverts a mask register. -/
  | vmnot (d : BitVec 3) (a : BitVec 3)
  /-- VREDADD (R156). FP32 tree-sum reduction into lane 0. -/
  | vredadd (d : BitVec 5) (a : BitVec 5) (m : BitVec 3)
  /-- VREDMAX (R156). FP32 maximum reduction into lane 0. -/
  | vredmax (d : BitVec 5) (a : BitVec 5) (m : BitVec 3)
  /-- VREDMIN (R156). FP32 minimum reduction into lane 0. -/
  | vredmin (d : BitVec 5) (a : BitVec 5) (m : BitVec 3)
  /-- VREDIADD (R156). 32-bit integer sum reduction into lane 0. -/
  | vrediadd (d : BitVec 5) (a : BitVec 5) (m : BitVec 3)
  /-- VMOV (R154). Copies enabled lanes of a vector. -/
  | vmov (d : BitVec 5) (a : BitVec 5) (m : BitVec 3)
  /-- VLD (R164). Loads eight lanes from raw memory or an alias window. -/
  | vld (d : BitVec 5) (b : BitVec 5) (o : BitVec 13)
  /-- VST (R165). Stores eight lanes to raw memory or an alias window. -/
  | vst (d : BitVec 5) (b : BitVec 5) (o : BitVec 13)
  /-- VLDS (R164). Strided vector load. -/
  | vlds (d : BitVec 5) (b : BitVec 5) (s : BitVec 13)
  /-- VSTS (R165). Strided vector store. -/
  | vsts (d : BitVec 5) (b : BitVec 5) (s : BitVec 13)
  /-- VGTH (R164). Indexed vector gather from local memory. -/
  | vgth (d : BitVec 5) (b : BitVec 5) (x : BitVec 5) (m : BitVec 3)
  /-- VSCT (R165). Indexed vector scatter to local memory. -/
  | vsct (d : BitVec 5) (b : BitVec 5) (x : BitVec 5) (m : BitVec 3)
  /-- VCVTFB (R158). Converts FP32 lanes of two vectors to BF16. -/
  | vcvtfb (d : BitVec 5) (a : BitVec 5) (b : BitVec 5) (m : BitVec 3)
  /-- VCVTBF (R158). Widens selected BF16 elements to FP32. -/
  | vcvtbf (d : BitVec 5) (a : BitVec 5) (q : BitVec 1) (m : BitVec 3)
  /-- VCVTFH (R158). Converts FP32 lanes of two vectors to FP16. -/
  | vcvtfh (d : BitVec 5) (a : BitVec 5) (b : BitVec 5) (m : BitVec 3)
  /-- VCVTHF (R158). Widens selected FP16 elements to FP32. -/
  | vcvthf (d : BitVec 5) (a : BitVec 5) (q : BitVec 1) (m : BitVec 3)
  /-- VCVTFI (R158). Converts FP32 to 32-bit integer under RMODE. -/
  | vcvtfi (d : BitVec 5) (a : BitVec 5) (m : BitVec 3)
  /-- VCVTIF (R158). Converts 32-bit integer to FP32 under RMODE. -/
  | vcvtif (d : BitVec 5) (a : BitVec 5) (m : BitVec 3)
  /-- VFXENC (R159). Encodes 32 FP32 values into one FX8 block. -/
  | vfxenc (d : BitVec 5) (a : BitVec 5)
  /-- VFXDEC (R160). Decodes eight elements of an FX8 block to FP32. -/
  | vfxdec (d : BitVec 5) (a : BitVec 5) (j : BitVec 2)
  /-- VEXP2 (R157). Correctly rounded 2^x per lane. -/
  | vexp2 (d : BitVec 5) (a : BitVec 5) (m : BitVec 3)
  /-- VLOG2 (R157). Correctly rounded log2 per lane. -/
  | vlog2 (d : BitVec 5) (a : BitVec 5) (m : BitVec 3)
  /-- VRCP (R157). Correctly rounded reciprocal per lane. -/
  | vrcp (d : BitVec 5) (a : BitVec 5) (m : BitVec 3)
  /-- VRSQ (R157). Correctly rounded reciprocal square root per lane. -/
  | vrsq (d : BitVec 5) (a : BitVec 5) (m : BitVec 3)
  /-- VTANH (R157). Correctly rounded tanh per lane. -/
  | vtanh (d : BitVec 5) (a : BitVec 5) (m : BitVec 3)
  /-- GANG (R168). Arrives at the cluster's gang rendezvous with a requested size. -/
  | gang (c : BitVec 5)
  /-- UNGANG (R172). Disbands the core's gang. -/
  | ungang
  /-- GANGID (R168). Writes the core's member index within its gang. -/
  | gangid (d : BitVec 5)
  /-- MZERO (R190). Clears an accumulator tile after any operation on it ends. -/
  | mzero (z : BitVec 1)
  /-- MBINDA (R186). Binds the core's A panel for the next joint operation. -/
  | mbinda (r : BitVec 5) (a : BitVec 5) (f : BitVec 5)
  /-- MLDB (R186). Stages the core's B piece from local memory. -/
  | mldb (a : BitVec 5) (f : BitVec 5)
  /-- GISSUE (R187). Checks bindings and arrives at the joint rendezvous naming the target tile. -/
  | gissue (z : BitVec 1)
  /-- MRD (R189). Reads one accumulator row into a vector register, waiting on the watermark. -/
  | mrd (d : BitVec 5) (z : BitVec 1) (r : BitVec 3)
  /-- MWM (R191). Reads the slice's watermark and state word. -/
  | mwm (d : BitVec 5)
  /-- MCAP (R192). Reads the slice's row capability word. -/
  | mcap (d : BitVec 5)
  /-- MWAIT (R190). Waits until no operation is in flight on a tile. -/
  | mwait (z : BitVec 1)
  /-- CPY (R227). Starts a copy of one tree block into or out of local memory on a channel. -/
  | cpy (d : BitVec 5) (a : BitVec 3) (b : BitVec 5) (s : BitVec 1) (r : BitVec 1) (o : BitVec 1)
  /-- CPYR (R228). Waits until enough bytes have landed and returns the write pointer, raising held faults. -/
  | cpyr (d : BitVec 5) (a : BitVec 5) (b : BitVec 5)
  /-- CPYQ (R229). Reads one word of a channel record. -/
  | cpyq (d : BitVec 5) (a : BitVec 5) (s : BitVec 5)
  /-- CPYX (R229). Cancels the copy on a channel. -/
  | cpyx (a : BitVec 5)
  /-- CPAT (R231). Writes the core's deal pattern register. -/
  | cpat (a : BitVec 5)
  /-- DEAL (R233). Starts dealing one tree block as sub-blocks over cores of the cluster or region. -/
  | deal (d : BitVec 5) (a : BitVec 3) (b : BitVec 5) (r : BitVec 1)
  /-- GATH (R235). Starts a gather of indexed granules into local memory on a ticket. -/
  | gath (d : BitVec 5) (a : BitVec 3) (b : BitVec 5) (c : BitVec 5)
  /-- SCAT (R235). Starts a scatter of indexed granules from local memory on a ticket. -/
  | scat (d : BitVec 5) (a : BitVec 3) (b : BitVec 5) (c : BitVec 5)
  /-- GWAIT (R236). Waits for a ticket to end and frees it, raising the lowest failing entry. -/
  | gwait (d : BitVec 5) (a : BitVec 5)
  /-- AADD (R271). Atomic integer add at the element's home. -/
  | aadd (d : BitVec 5) (a : BitVec 3) (b : BitVec 5) (s : BitVec 3) (o : BitVec 2)
  /-- AAND (R271). Atomic AND. -/
  | aand (d : BitVec 5) (a : BitVec 3) (b : BitVec 5) (s : BitVec 3) (o : BitVec 2)
  /-- AOR (R271). Atomic OR. -/
  | aor (d : BitVec 5) (a : BitVec 3) (b : BitVec 5) (s : BitVec 3) (o : BitVec 2)
  /-- AXOR (R271). Atomic XOR. -/
  | axor (d : BitVec 5) (a : BitVec 3) (b : BitVec 5) (s : BitVec 3) (o : BitVec 2)
  /-- AMIN (R271). Atomic signed minimum. -/
  | amin (d : BitVec 5) (a : BitVec 3) (b : BitVec 5) (s : BitVec 3) (o : BitVec 2)
  /-- AMAX (R271). Atomic signed maximum. -/
  | amax (d : BitVec 5) (a : BitVec 3) (b : BitVec 5) (s : BitVec 3) (o : BitVec 2)
  /-- AMINU (R271). Atomic unsigned minimum. -/
  | aminu (d : BitVec 5) (a : BitVec 3) (b : BitVec 5) (s : BitVec 3) (o : BitVec 2)
  /-- AMAXU (R271). Atomic unsigned maximum. -/
  | amaxu (d : BitVec 5) (a : BitVec 3) (b : BitVec 5) (s : BitVec 3) (o : BitVec 2)
  /-- AXCHG (R271). Atomic exchange. -/
  | axchg (d : BitVec 5) (a : BitVec 3) (b : BitVec 5) (s : BitVec 3) (o : BitVec 2)
  /-- ACAS (R271). Atomic compare and swap. -/
  | acas (d : BitVec 5) (a : BitVec 3) (b : BitVec 5) (s : BitVec 3) (o : BitVec 2)
  /-- AFADD (R271). Atomic FP32 add rounded to nearest-even. -/
  | afadd (d : BitVec 5) (a : BitVec 3) (b : BitVec 5) (s : BitVec 3) (o : BitVec 2)
  /-- VAADD (R274). Eight-lane atomic add. -/
  | vaadd (d : BitVec 5) (a : BitVec 3) (b : BitVec 5) (s : BitVec 3) (o : BitVec 2)
  /-- VAAND (R274). Eight-lane atomic AND. -/
  | vaand (d : BitVec 5) (a : BitVec 3) (b : BitVec 5) (s : BitVec 3) (o : BitVec 2)
  /-- VAOR (R274). Eight-lane atomic OR. -/
  | vaor (d : BitVec 5) (a : BitVec 3) (b : BitVec 5) (s : BitVec 3) (o : BitVec 2)
  /-- VAXOR (R274). Eight-lane atomic XOR. -/
  | vaxor (d : BitVec 5) (a : BitVec 3) (b : BitVec 5) (s : BitVec 3) (o : BitVec 2)
  /-- VAMIN (R274). Eight-lane atomic signed minimum. -/
  | vamin (d : BitVec 5) (a : BitVec 3) (b : BitVec 5) (s : BitVec 3) (o : BitVec 2)
  /-- VAMAX (R274). Eight-lane atomic signed maximum. -/
  | vamax (d : BitVec 5) (a : BitVec 3) (b : BitVec 5) (s : BitVec 3) (o : BitVec 2)
  /-- VAMINU (R274). Eight-lane atomic unsigned minimum. -/
  | vaminu (d : BitVec 5) (a : BitVec 3) (b : BitVec 5) (s : BitVec 3) (o : BitVec 2)
  /-- VAMAXU (R274). Eight-lane atomic unsigned maximum. -/
  | vamaxu (d : BitVec 5) (a : BitVec 3) (b : BitVec 5) (s : BitVec 3) (o : BitVec 2)
  /-- VAFADD (R274). Eight-lane atomic FP32 add. -/
  | vafadd (d : BitVec 5) (a : BitVec 3) (b : BitVec 5) (s : BitVec 3) (o : BitVec 2)
  /-- VAWAIT (R279). Waits until all the core's atomics are applied and raises the atomic error record. -/
  | vawait
  /-- BARR (R291). Arrives on one barrier channel and returns the awaited phase. -/
  | barr (d : BitVec 5) (c : BitVec 4)
  /-- BWAIT (R292). Waits until a channel's phase reaches a value, then acquires. -/
  | bwait (a : BitVec 5) (c : BitVec 4)
  /-- BTEST (R292). Tests whether a channel's phase has reached a value. -/
  | btest (d : BitVec 5) (a : BitVec 5) (c : BitVec 4)
  /-- BPH (R293). Reads a channel's TARGET and phase. -/
  | bph (d : BitVec 5) (c : BitVec 4)
  /-- BMSK (R291). Arrives on several channels in one cycle. -/
  | bmsk (d : BitVec 5) (a : BitVec 5)
  /-- VOTE (R294). Arrives with a vote bit, waits for the release and returns the OR and AND of the votes. -/
  | vote (d : BitVec 5) (a : BitVec 5) (c : BitVec 4)
  /-- XSYNC (R307). Ends the compute phase by arriving and waits for the exchange phase to begin. -/
  | xsync (d : BitVec 5)
  /-- XSEND (R308). Sends the core's slot entry when the slot opens. -/
  | xsend (a : BitVec 5) (b : BitVec 5)
  /-- XDONE (R309). Passes every slot and waits until the exchange ends. -/
  | xdone
  /-- XSLOT (R310). Reads one field of the core's slot table entry. -/
  | xslot (d : BitVec 5) (a : BitVec 5) (s : BitVec 2)
  /-- QAPP (R316). Appends a 32-byte message to a cluster core's ring. -/
  | qapp (d : BitVec 5) (a : BitVec 5) (b : BitVec 5) (n : BitVec 1)
  /-- QGET (R317). Takes the next landed message from the core's ring. -/
  | qget (d : BitVec 5)
  /-- QFREE (R318). Releases landed ring entries. -/
  | qfree (d : BitVec 5) (a : BitVec 5)
  /-- QFREE_OPEN (R318). Opens, reopens or closes the core's ring. -/
  | qfreeOpen (d : BitVec 5) (a : BitVec 5) (b : BitVec 5)
  /-- QCNT (R319). Reads the ring's open state, head address and fill. -/
  | qcnt (d : BitVec 5)
  /-- WGENT (R333). Enters a key in a contest on a waggle lane. -/
  | wgent (a : BitVec 5) (l : BitVec 5)
  /-- WGENT_L (R333). Enters a contest as a listener only. -/
  | wgentL (l : BitVec 5)
  /-- WGRES (R334). Reads a field of the lane's result holder. -/
  | wgres (d : BitVec 5) (s : BitVec 2) (l : BitVec 5)
  /-- WGWAIT (R334). Waits while the holder is pending and returns its status word. -/
  | wgwait (d : BitVec 5) (l : BitVec 5)
  /-- WGCAN (R335). Withdraws the core's pending entry on a lane. -/
  | wgcan (l : BitVec 5)
  /-- SPLD (R351). Binds a sparse tile and requests its comb. -/
  | spld (a : BitVec 5) (b : BitVec 3) (f : BitVec 5)
  /-- SPMM (R352). Starts a sparse operation on the bound tile along the comb, dense or interpretive path. -/
  | spmm (z : BitVec 1) (a : BitVec 5) (f : BitVec 5)
  /-- CBQ (R355). Reads the state of the bound tile's comb. -/
  | cbq (d : BitVec 5)
  /-- CBINV (R356). Removes the context's combs of one name path. -/
  | cbinv (b : BitVec 3)
  /-- CBINV_ALL (R356). Removes every comb of the context in the cluster. -/
  | cbinvAll
  /-- CBWAIT (R355). Waits while the bound tile's comb is queued or building, then reads its state. -/
  | cbwait (d : BitVec 5)
  /-- FPOST (R389). Posts a continuation record to the forage pool. -/
  | fpost (d : BitVec 5) (a : BitVec 5)
  /-- FORAGE (R389). Takes an eligible record, retiring the current continuation, or returns 0. -/
  | forage (d : BitVec 5)
  /-- YIELD (R389). Retires the continuation and posts a fresh one. -/
  | yield (a : BitVec 5)
  /-- CEND (R389). Retires the continuation and leaves the core idle. -/
  | cend
  /-- FQUIET (R390). Waits for an eligible record or for group quiescence. -/
  | fquiet (d : BitVec 5)
  /-- LAUNCH (R391). Submits a child launch record from local memory. -/
  | launch (d : BitVec 5) (a : BitVec 5)
  /-- PATCHI (R393). Places an entry of the launch's patch table in a register. -/
  | patchi (d : BitVec 5) (i : BitVec 8)
  /-- TRAP (R132). Enters the handler with SOFTWARE and a code. -/
  | trap (c : BitVec 10)
  /-- RFT (R131). Returns from a trap handler to TPC, restoring the loop stack. -/
  | rft
  /-- GSR (R133). Reads a system register. -/
  | gsr (d : BitVec 5) (s : BitVec 10)
  /-- SSR (R133). Writes a system register under its access codes. -/
  | ssr (a : BitVec 5) (s : BitVec 10)
  /-- FENCE (R368). Waits for earlier accesses to perform and orders global accesses at a scope. -/
  | fence (s : BitVec 3)
  /-- BKPT (R132). Enters the handler with BREAKPOINT, or stops for the debugger. -/
  | bkpt (c : BitVec 10)
  /-- WFE (R134). Waits for the core's event latch and clears it. -/
  | wfe
  /-- IDENT (R135). Writes the device identity. -/
  | ident (d : BitVec 5)
  /-- MODIFIER_WORD (R94). Prefixes an arithmetic instruction with scale, abs, negate, clamp and saturation stages. -/
  | modifierWord (n : BitVec 1) (a : BitVec 1) (c : BitVec 2) (s : BitVec 1) (e : BitVec 1) (k : BitVec 6)
  /-- REPF_VECTOR_FEED (R124). The sequencer feeds one later pass of a vector frame into the vector queue when it has room. -/
  | repfVectorFeed (c : Nat)
  /-- VECTOR_DISPATCH (R149). A vector queue head is dispatched to a free lane group, or a lane-free head dispatches, under share arbitration. -/
  | vectorDispatch (k : Nat)
  /-- VECTOR_COMPLETE (R145). A dispatched vector instruction completes, writing its registers and ORing its flags into FPFLAGS. -/
  | vectorComplete (c : Nat)
  /-- GANG_RENDEZVOUS_COMPLETE (R168). All cores of the gang set have arrived with one size; the gang forms and followers stop fetching. -/
  | gangRendezvousComplete (k j : Nat)
  /-- MLDB_STAGING_COMPLETE (R186). The bytes of a staged B piece have all been moved into staging. -/
  | mldbStagingComplete (c : Nat)
  /-- JOINT_RENDEZVOUS_COMPLETE (R180). All eight cores have arrived; four cycles later the operation starts, locking A panels and taking staged pieces. -/
  | jointRendezvousComplete (k : Nat)
  /-- RING_STEP_BEGIN (R174). A ring step begins, pieces pass to the neighbour slice, and step 7 puts slices into DRAINING. -/
  | ringStepBegin (k : Nat)
  /-- ROW_PAIR_COMPLETE (R178). A row pair becomes final in step 7, raising the watermark, and the last pair ends the operation and sets flags. -/
  | rowPairComplete (c : Nat)
  /-- TREE_RECORD_FILL (R196). A tree record arrives in the cluster cache and the stalled instruction proceeds. -/
  | treeRecordFill (k x h : Nat)
  /-- BANKHASH_REHASH_COMPLETE (R206). The 1,024-cycle bank move ends and the core and held deliveries resume. -/
  | bankhashRehashComplete (c : Nat)
  /-- BANK_REPLAY_RETRY (R208). An access in the replay queue is retried and served in part or whole. -/
  | bankReplayRetry (c : Nat)
  /-- RETENTION_ENTRY (R214). The power policy puts an idle core's local memory into retention. -/
  | retentionEntry (c : Nat)
  /-- RETENTION_ENTRY_COMPLETE (R214). Re-encoding to the double-error-correcting code completes. -/
  | retentionEntryComplete (c : Nat)
  /-- RETENTION_EXIT (R215). An access to a retained memory starts the exit from retention. -/
  | retentionExit (c : Nat)
  /-- RETENTION_EXIT_COMPLETE (R216). Re-encoding back to SEC-DED completes and waiting accesses proceed. -/
  | retentionExitComplete (c : Nat)
  /-- COPY_BEAT (R222). A copy or deal moves its next beat, which lands, stalls on a page, or faults. -/
  | copyBeat (c ch : Nat)
  /-- GATHER_ENTRY (R235). The gather engine serves one list entry, landing, storing or failing its granule. -/
  | gatherEntry (c t j : Nat)
  /-- PACKAGE_COPY_MOVE (R237). A package copy engine moves a byte range for the host, a peer or the executive. -/
  | packageCopyMove (f x : Nat) (src dst : Place) (len sig amt : Nat)
  /-- PAGE_REQUEST_ADMIT (R251). A freed request entry is given to the oldest eligible waiting request. -/
  | pageRequestAdmit (die : Nat)
  /-- PAGE_REQUEST_COMPLETE (R252). The executive makes a requested page resident and stalled accesses retry. -/
  | pageRequestComplete (x va frame : Nat)
  /-- PAGE_REQUEST_REFUSE (R252). The executive refuses a request and stalled accesses fault with PAGE_UNMAPPED. -/
  | pageRequestRefuse (x va : Nat)
  /-- SHOOTDOWN_COMPLETE (R248). A translation is removed from every cache once all accesses through it have landed or dropped. -/
  | shootdownComplete (x va : Nat)
  /-- PAGE_REPLICATE (R261). The executive replicates a MAPPED page into every compute die. -/
  | pageReplicate (x va : Nat)
  /-- PAGE_END_REPLICATION (R245). The executive ends replication with a shootdown and frees the other copies. -/
  | pageEndReplication (x va : Nat)
  /-- PAGE_PERMISSION_CHANGE (R245). The executive narrows or widens permissions or changes PTAG of a page. -/
  | pagePermissionChange (x va : Nat) (r w e part : Bool) (tag : Nat)
  /-- INSTRUCTION_FETCH (R260). A fetch translates its page, stalling on DEMAND or faulting with PAGE_UNMAPPED or PROTECTION. -/
  | instructionFetch (c : Nat)
  /-- ATOMIC_APPLY (R270). The home base die verifies, applies an atomic, recomputes the check value and sets the dirty bit. -/
  | atomicApply (a : AtomSource)
  /-- ATOMIC_RESULT_RETURN (R277). An atomic's old value returns to the core, completing the scalar wait or vector atomic. -/
  | atomicResultReturn (c n : Nat)
  /-- ARRIVAL_ENTERS_TREE (R288). A core's arrival enters the barrier tree once its earlier accesses have performed. -/
  | arrivalEntersTree (c ch : Nat)
  /-- BARRIER_RELEASE (R287). A channel's new phase reaches every member, latching votes and setting event latches. -/
  | barrierRelease (x l g : Nat)
  /-- EXCHANGE_SLOT_CLOSE (R299). A slot closes once its senders passed and its transfers landed; the next slot opens or the exchange ends. -/
  | exchangeSlotClose (x l g : Nat)
  /-- EXCHANGE_BEAT_LANDS (R300). A 32-byte exchange beat lands in the receiver and raises RCVD. -/
  | exchangeBeatLands (c : Nat)
  /-- QUEUE_ENTRY_LANDS (R314). An assigned message lands in its ring and LANDED advances in order. -/
  | queueEntryLands (c : Nat)
  /-- WAGGLE_ENTRY_REGISTER (R326). An entry registers at a slot boundary, opening a gather window, joining, or queuing late. -/
  | waggleEntryRegister (c n : Nat)
  /-- FRAME_START (R328). A frame's start slot begins, takes its frame number and fixes its entrants. -/
  | frameStart (n : Nat)
  /-- RESOLUTION_SLOT (R325). Leading contenders drive one word bit and those that lose stop leading. -/
  | resolutionSlot (n : Nat)
  /-- WAGGLE_WITHDRAWAL (R329). A halt or WGCAN withdrawal takes effect at a slot boundary, possibly voiding the frame. -/
  | waggleWithdrawal (c n : Nat)
  /-- FRAME_END (R328). A frame ends, delivering results or carrying survivors, and the next frame starts or the lane idles. -/
  | frameEnd (n : Nat)
  /-- BUILD_START (R345). The idle builder starts the head request, claiming slots or dropping it. -/
  | buildStart (k : Nat)
  /-- BUILD_END (R346). A comb build ends and the comb becomes READY. -/
  | buildEnd (k : Nat)
  /-- SPARSE_OP_END (R353). A sparse operation's last work cycle ends, unlocking bytes, unpinning its comb and setting flags. -/
  | sparseOpEnd (c : Nat)
  /-- RESULT_LANDS (R105). A scalar result lands in its register a fixed latency after issue. -/
  | resultLands (c : Nat)
  /-- TRAP_ENTRY (R130). After pending writes land, the core records the trap and enters its handler, or stops. -/
  | trapEntry (c : Nat) (cause : BitVec 8) (tpc t0 t1 t2 t3 : BitVec 32)
  /-- POOL_TAKE_IDLE (R384). An idle eligible core takes a record from the forage pool and picks it up. -/
  | poolTakeIdle (c n : Nat)
  /-- GROUP_QUIESCENT (R390). A group becomes quiescent and every waiting FQUIET completes with 1. -/
  | groupQuiescent (x l g : Nat)
  /-- LAUNCH_LOAD (R379). A placing launch's cores are free; limits, macros, groups and local images are set up. -/
  | launchLoad (x l : Nat)
  /-- LAUNCH_START (R379). Local images are written and every core picks up its initial continuation. -/
  | launchStart (x l : Nat)
  /-- LAUNCH_END (R379). No core or record of the launch remains; groups unbind, the report is written and SIGEV added. -/
  | launchEnd (x l : Nat)
  /-- DOORBELL (R400). A host write of QDOOR sets TAIL, or puts the queue in ERROR. -/
  | doorbell (f q : Nat) (tail : BitVec 32)
  /-- EVENT_COUNTER_POLL (R403). A waiting head's counter is re-evaluated after 10 µs. -/
  | eventCounterPoll (f q : Nat)
  /-- QUEUE_TAKE (R407). Arbitration takes the head record of a chosen READY queue and passes it to admission. -/
  | queueTake (tag : Nat)
  /-- SLICE_EXPIRY (R405). A function's time slice expires and its running contexts are pre-empted. -/
  | sliceExpiry (tag : Nat)
  /-- PREEMPTION_COMPLETE (R412). Every core has halted for a pending pre-emption; the context becomes PREEMPTED. -/
  | preemptionComplete (x : Nat)
  /-- BOUNDARY_WAIT_EXPIRY (R415). The boundary wait expires and the pre-emption is forced at instruction boundaries. -/
  | boundaryWaitExpiry (x : Nat)
  /-- HALT_COMPLETE (R416). Every core has halted at an instruction boundary for HALT or SAVE. -/
  | haltComplete (x : Nat)
  /-- SAVE_COMPLETE (R425). The context image has been written and the context becomes SAVED. -/
  | saveComplete (x : Nat)
  /-- CONTEXT_LOAD_COMPLETE (R412). Tables, tree records and the core table are written and the context becomes READY. -/
  | contextLoadComplete (x : Nat)
  /-- CREATE (R411). Verifies an Aruth image and creates a context. -/
  | create (f image key table : Nat)
  /-- TERMINATE (R412). Ends every launch of a context and starts zeroing its buffers. -/
  | terminate (f x : Nat)
  /-- MAP (R411). Maps one page of a context. -/
  | map (f x va k : Nat) (r w e demand : Bool) (source : Option Place) (frame : Nat)
  /-- UNMAP (R411). Unmaps the page holding an address. -/
  | unmap (f x va : Nat)
  /-- QUEUE (R402). Creates an enabled host queue. -/
  | queue (f x ringBase repBase : Nat) (hostMem : Bool) (prio log2n : Nat)
  /-- QCTL_DISABLE (R402). Disables a host queue, dropping records not yet taken. -/
  | qctlDisable (f x q : Nat)
  /-- QCTL_ENABLE (R402). Enables a disabled host queue. -/
  | qctlEnable (f x q : Nat)
  /-- QCTL_RESET (R402). Resets a queue in ERROR to EMPTY. -/
  | qctlReset (f x q : Nat)
  /-- PREEMPT (R414). Makes a pre-emption pending for a running context. -/
  | preempt (f x : Nat)
  /-- RESUME (R412). Restores a stopped context on its granted cores. -/
  | resume (f x : Nat)
  /-- SIGNAL (R417). Makes every running core take HALTED_BY_EXECUTIVE at its next boundary. -/
  | signal (f x : Nat) (code : BitVec 16)
  /-- HALT (R416). Stops every core of a context at an instruction boundary. -/
  | halt (f x : Nat)
  /-- TRACK_START (R245). Turns on dirty tracking, making MAPPED pages MIGRATING. -/
  | trackStart (f x : Nat)
  /-- TRACK_STOP (R245). Turns off dirty tracking. -/
  | trackStop (f x : Nat)
  /-- HARVEST (R428). Writes and clears the addresses of dirty units. -/
  | harvest (f x out limit : Nat)
  /-- SAVE (R425). Halts a context and writes its context image. -/
  | save (f x out limit : Nat)
  /-- RESTORE (R427). Checks and installs a context image. -/
  | restore (f x image : Nat)
  /-- DUMP (R418). Writes the image of a FAULTED context. -/
  | dump (f x out limit : Nat)
  /-- SETPARM_WEIGHT (R406). Sets a context's arbitration weight. -/
  | setparmWeight (f x value : Nat)
  /-- SETPARM_SLICE (R405). Sets a function's time slice. -/
  | setparmSlice (f x value : Nat)
  /-- SETPARM_BOUNDARY_WAIT (R415). Sets the boundary wait. -/
  | setparmBoundaryWait (f x value : Nat)
  /-- SETPARM_LANE_REQUEST (R322). Requests waggle lanes and returns the granted mask. -/
  | setparmLaneRequest (f x : Nat) (mask : BitVec 32)
  /-- SETPARM_PAGE_QUOTA (R253). Sets a context's page quota. -/
  | setparmPageQuota (f x value : Nat)
  /-- DBGGO (R419). Restarts a debug-stopped core at TPC. -/
  | dbggo (f x lcore : Nat)
  /-- EVICT (R253). Evicts a resident page to its backing. -/
  | evict (f x va : Nat)
  /-- PARTSET (R421). Gives a partition tag to a set of cores. -/
  | partset (f tag bitmap : Nat)
  /-- PARTDROP (R421). Returns a partition's cores to tag 0. -/
  | partdrop (f tag : Nat)
  /-- PARTFUNC (R424). Binds or unbinds a function to a partition. -/
  | partfunc (f g tag : Nat)
  /-- REGISTER_WRITE (R8). A host write to a register with no behaviour of its own, under its access code. -/
  | registerWrite (f off : Nat) (value : BitVec 32)
  /-- WINDOW_ENABLE (R436). A write of EN 1 checks and puts a window descriptor in force. -/
  | windowEnable (f w : Nat)
  /-- WINDOW_DISABLE (R436). Clearing EN takes a window out of force, aborting an open epoch. -/
  | windowDisable (f w : Nat)
  /-- CONTRIBUTION_ACCEPT (R438). A switch accepts a contribution or close for a reduction epoch. -/
  | contributionAccept (x w : Nat) (part : Contribution)
  /-- EPOCH_DELIVER (R438). All members closed; merged results and the counter update are applied and EPOCH rises. -/
  | epochDeliver (x w : Nat)
  /-- COLLECTIVE_WATCHDOG_EXPIRY (R440). A collective's watchdog reaches its limit and the epoch aborts. -/
  | collectiveWatchdogExpiry (x w : Nat)
  /-- PORT_ENABLE (R433). The executive enables a port, which starts training. -/
  | portEnable (p : Nat)
  /-- TRAINING_COMPLETE (R433). Training completes and the link is UP or DEGRADED. -/
  | trainingComplete (p : Nat) (full : Bool) (number : Nat) (peers : BitVec 64)
  /-- TRAINING_FAILURE (R433). Three training attempts fail and the link is FAILED. -/
  | trainingFailure (p : Nat)
  /-- FLIT_CRC_FAIL (R433). A flit fails its CRC and is replayed, or the link retrains after 8 failures. -/
  | flitCrcFail (p : Nat) (replay : Bool)
  /-- RETRAINING_COMPLETE (R433). Retraining completes within 10 ms and held traffic resumes. -/
  | retrainingComplete (p : Nat) (full : Bool)
  /-- RETRAINING_TIMEOUT (R433). Retraining exceeds 10 ms and the link fails. -/
  | retrainingTimeout (p : Nat)
  /-- PORT_DISABLE (R433). The executive disables a port. -/
  | portDisable (p : Nat)
  /-- FUNCTION_LEVEL_RESET (R442). A function-level reset terminates the function's contexts and discards its packets. -/
  | functionLevelReset (f : Nat)
  /-- FLR_COMPLETE (R442). Every discard point has confirmed and the function's buffers are zeroed. -/
  | flrComplete (f : Nat)
  /-- CORRECTED_ERROR (R444). A corrected error is counted against its unit and containing units. -/
  | correctedError (u : HwUnit)
  /-- UNCORRECTABLE_ERROR (R444). An uncorrectable error marks the word and declares a lasting fault. -/
  | uncorrectableError (u : HwUnit) (place : Nat)
  /-- UNIT_RETIRE (R447). With affected contexts pre-empted, a declared unit is repaired and contexts resumed. -/
  | unitRetire (u : HwUnit) (repair : Nat)
  /-- ZEROING_COMPLETE (R448). A buffer passing to a new owner has been zeroed. -/
  | zeroingComplete (x : Nat)
  /-- MODE_CHANGE (R365). The executive switches the module between service and maintenance mode. -/
  | modeChange (service : Bool)
  /-- CXL_MEM_ACCESS (R432). The host loads or stores reserved HBM through CXL.mem. -/
  | cxlMemAccess (write : Bool) (addr : Nat) (data : List (BitVec 8))
  /-- BOOT (R450). The boot ROM verifies the executive, trains HBM, harvests, trains links and opens host ports. -/
  | boot (image version hdm : Nat) (harvested : List (Nat × Nat)) (macRows : List (Nat × Nat))
  /-- ATTESTATION_REQUEST (R451). An SPDM request receives signed measurements. -/
  | attestationRequest (nonce : Nat)
  /-- POWER_SAMPLE (R452). Every 1 ms module power is measured and boost adjusted. -/
  | powerSample (milliwatts : Nat)
  /-- OVER_TEMPERATURE (R452). A die reaches 105 °C; boost ends, contexts are pre-empted and admission stops. -/
  | overTemperature (die : Nat)
  /-- THERMAL_TRIP (R452). A die reaches 115 °C and the clocks stop. -/
  | thermalTrip (die : Nat)
  /-- MBCMD_UNKNOWN_CODE (R410). A host write of MBCMD with a code that names no command completes with ERR 1 and changes nothing. -/
  | mbcmdUnknownCode (f : Nat) (code : BitVec 8)
  deriving DecidableEq, Repr

end Sys2Proof
end

