-- ==== Sys2Proof/Machine/Data.lean ====
section
/-!
DEFINITION. Small data types that the arithmetic and the state share: rounding modes, modifier words, float classes,
storage formats, trap records.
-/

namespace Sys2Proof.Machine

/-- The rounding modes of RMODE.MODE (02 R30). -/
inductive Rounding where
  | nearestEven
  | towardZero
  | up
  | down
  deriving DecidableEq, Repr

/-- The fields of a modifier word (04 R94); `scale` is 0 unless `scen` holds. -/
structure Modifier where
  neg   : Bool
  abs   : Bool
  clamp : BitVec 2
  sat   : Bool
  scen  : Bool
  scale : Int
  deriving DecidableEq, Repr

/-- A binary floating-point layout: widths of the exponent and mantissa fields, and the bias (02 R26, R36). -/
structure FloatFmt where
  ebits : Nat
  mbits : Nat
  bias  : Nat
  deriving DecidableEq, Repr

/-- The value of a floating-point operand or exact result: a NaN as its quieted FP32 pattern and whether it was
signalling, an infinity, or the exact number (-1)^neg * m * 2^e (02 R26, R33). -/
inductive Value where
  | nan (bits : BitVec 32) (signalling : Bool)
  | inf (neg : Bool)
  | fin (neg : Bool) (m : Nat) (e : Int)
  deriving DecidableEq, Repr

/-- The element formats of trees and windows, in the order of their FORMAT codes (08 R193). -/
inductive Elem where
  | f32 | bf16 | f16 | e4m3 | e5m2 | e2m1 | i8 | i4 | fx8
  deriving DecidableEq, Repr

/-- A trap about to be taken: its cause and the TINFO registers (05 R127, R129). -/
structure Trap where
  cause : BitVec 8
  t0    : Word
  t1    : Word
  t2    : Word
  t3    : Word
  deriving DecidableEq, Repr

/-- FPFLAGS bits 7:0 (02 R31). -/
abbrev Flags := BitVec 8

/-- The steps of the engines, of the executive and of the host as they stand in a queue of events: one constructor per
constructor of Instr that has no word, and what reaches this module from a member of a pod besides its atomics (20 R437, R440,
R441; log 57). -/
inductive Event where
  | repfVectorFeed (c : Nat)
  | vectorDispatch (k : Nat)
  | vectorComplete (c : Nat)
  | gangRendezvousComplete (k j : Nat)
  | mldbStagingComplete (c : Nat)
  | jointRendezvousComplete (k : Nat)
  | ringStepBegin (k : Nat)
  | rowPairComplete (c : Nat)
  | treeRecordFill (k x h : Nat)
  | bankhashRehashComplete (c : Nat)
  | bankReplayRetry (c : Nat)
  | retentionEntry (c : Nat)
  | retentionEntryComplete (c : Nat)
  | retentionExit (c : Nat)
  | retentionExitComplete (c : Nat)
  | copyBeat (c ch : Nat)
  | gatherEntry (c t j : Nat)
  | packageCopyMove (f x : Nat) (src dst : Place) (len sig amt : Nat)
  | pageRequestAdmit (die : Nat)
  | pageRequestComplete (x va frame : Nat)
  | pageRequestRefuse (x va : Nat)
  | shootdownComplete (x va : Nat)
  | pageReplicate (x va : Nat)
  | pageEndReplication (x va : Nat)
  | pagePermissionChange (x va : Nat) (r w e part : Bool) (tag : Nat)
  | instructionFetch (c : Nat)
  | atomicApply (a : AtomSource)
  | atomicResultReturn (c n : Nat)
  | arrivalEntersTree (c ch : Nat)
  | barrierRelease (x l g : Nat)
  | exchangeSlotClose (x l g : Nat)
  | exchangeBeatLands (c : Nat)
  | queueEntryLands (c : Nat)
  | waggleEntryRegister (c n : Nat)
  | frameStart (n : Nat)
  | resolutionSlot (n : Nat)
  | waggleWithdrawal (c n : Nat)
  | frameEnd (n : Nat)
  | buildStart (k : Nat)
  | buildEnd (k : Nat)
  | sparseOpEnd (c : Nat)
  | resultLands (c : Nat)
  | trapEntry (c : Nat) (cause : BitVec 8) (tpc t0 t1 t2 t3 : BitVec 32)
  | poolTakeIdle (c n : Nat)
  | groupQuiescent (x l g : Nat)
  | launchLoad (x l : Nat)
  | launchStart (x l : Nat)
  | launchEnd (x l : Nat)
  | doorbell (f q : Nat) (tail : BitVec 32)
  | eventCounterPoll (f q : Nat)
  | queueTake (tag : Nat)
  | sliceExpiry (tag : Nat)
  | preemptionComplete (x : Nat)
  | boundaryWaitExpiry (x : Nat)
  | haltComplete (x : Nat)
  | saveComplete (x : Nat)
  | contextLoadComplete (x : Nat)
  | create (f image key table : Nat)
  | terminate (f x : Nat)
  | map (f x va k : Nat) (r w e demand : Bool) (source : Option Place) (frame : Nat)
  | unmap (f x va : Nat)
  | queue (f x ringBase repBase : Nat) (hostMem : Bool) (prio log2n : Nat)
  | qctlDisable (f x q : Nat)
  | qctlEnable (f x q : Nat)
  | qctlReset (f x q : Nat)
  | preempt (f x : Nat)
  | resume (f x : Nat)
  | signal (f x : Nat) (code : BitVec 16)
  | halt (f x : Nat)
  | trackStart (f x : Nat)
  | trackStop (f x : Nat)
  | harvest (f x out limit : Nat)
  | save (f x out limit : Nat)
  | restore (f x image : Nat)
  | dump (f x out limit : Nat)
  | setparmWeight (f x value : Nat)
  | setparmSlice (f x value : Nat)
  | setparmBoundaryWait (f x value : Nat)
  | setparmLaneRequest (f x : Nat) (mask : BitVec 32)
  | setparmPageQuota (f x value : Nat)
  | dbggo (f x lcore : Nat)
  | evict (f x va : Nat)
  | partset (f tag bitmap : Nat)
  | partdrop (f tag : Nat)
  | partfunc (f g tag : Nat)
  | registerWrite (f off : Nat) (value : BitVec 32)
  | windowEnable (f w : Nat)
  | windowDisable (f w : Nat)
  | contributionAccept (x w : Nat) (part : Contribution)
  | epochDeliver (x w : Nat)
  | collectiveWatchdogExpiry (x w : Nat)
  | portEnable (p : Nat)
  | trainingComplete (p : Nat) (full : Bool) (number : Nat) (peers : BitVec 64)
  | trainingFailure (p : Nat)
  | flitCrcFail (p : Nat) (replay : Bool)
  | retrainingComplete (p : Nat) (full : Bool)
  | retrainingTimeout (p : Nat)
  | portDisable (p : Nat)
  | functionLevelReset (f : Nat)
  | flrComplete (f : Nat)
  | correctedError (u : HwUnit)
  | uncorrectableError (u : HwUnit) (place : Nat)
  | unitRetire (u : HwUnit) (repair : Nat)
  | zeroingComplete (x : Nat)
  | modeChange (service : Bool)
  | cxlMemAccess (write : Bool) (addr : Nat) (data : List (BitVec 8))
  | boot (image version hdm : Nat) (harvested : List (Nat × Nat)) (macRows : List (Nat × Nat))
  | attestationRequest (nonce : Nat)
  | powerSample (milliwatts : Nat)
  | overTemperature (die : Nat)
  | thermalTrip (die : Nat)
  | mbcmdUnknownCode (f : Nat) (code : BitVec 8)
  | peerAccess (x va n : Nat) (data : Option (List (BitVec 8)))
  | memberStop (x w m : Nat) (stopped : Bool)
  | memberAbort (x w m reason : Nat)
  deriving DecidableEq, Repr

end Sys2Proof.Machine
end

