-- ==== Sys2Proof/Machine/Float.lean ====
section
/-!
DEFINITION. Number formats and arithmetic (02 R26 to R56, 06 R151 to R160): exact values, one rounding, flags,
the modifier stages, narrow formats, FX8 blocks and the special functions.
-/

namespace Sys2Proof.Machine

/-! ### Flags (02 R31) -/

def flNX : Flags := 0x01#8
def flUF : Flags := 0x02#8
def flOF : Flags := 0x04#8
def flDZ : Flags := 0x08#8
def flNV : Flags := 0x10#8
def flCLAMP : Flags := 0x20#8
def flNANBLK : Flags := 0x40#8
def flSAT : Flags := 0x80#8

/-- A flag when a condition holds. -/
def flagIf (b : Bool) (f : Flags) : Flags := if b then f else 0#8

/-! ### Formats (02 R26, R36) -/

def fmtF32 : FloatFmt := ⟨8, 23, 127⟩
def fmtBF16 : FloatFmt := ⟨8, 7, 127⟩
def fmtF16 : FloatFmt := ⟨5, 10, 15⟩
def fmtE4M3 : FloatFmt := ⟨4, 3, 7⟩
def fmtE5M2 : FloatFmt := ⟨5, 2, 15⟩
def fmtE2M1 : FloatFmt := ⟨2, 1, 1⟩

/-- The NaN an operation generates (02 R33). -/
def genNaN : Word := 0x7FC00000#32

/-- Sets the most significant mantissa bit of an FP32 NaN (02 R33). -/
def quiet32 (w : Word) : Word := w ||| 0x00400000#32

/-- The value of an FP32 pattern (02 R26, R27). -/
def value32 (w : Word) : Value :=
  let s := w.getLsbD 31
  let e := (w.extractLsb' 23 8).toNat
  let f := (w.extractLsb' 0 23).toNat
  if e = 255 then
    if f = 0 then .inf s else .nan (quiet32 w) (!w.getLsbD 22)
  else if e = 0 then .fin s f (-149)
  else .fin s (f + 2 ^ 23) ((e : Int) - 150)

/-- The value of a BF16 pattern: the upper half of an FP32 word (02 R26). -/
def valueBF (h : BitVec 16) : Value := value32 (h ++ 0#16)

/-- The value of an FP16 pattern; a NaN is carried in FP32 with its payload in the upper bits (02 R26, 06 R158). -/
def valueF16 (h : BitVec 16) : Value :=
  let s := h.getLsbD 15
  let e := (h.extractLsb' 10 5).toNat
  let f := (h.extractLsb' 0 10).toNat
  if e = 31 then
    if f = 0 then .inf s
    else .nan (quiet32 (BitVec.ofNat 32 ((if s then 2 ^ 31 else 0) + 255 * 2 ^ 23 + f * 2 ^ 13))) (!h.getLsbD 9)
  else if e = 0 then .fin s f (-24)
  else .fin s (f + 2 ^ 10) ((e : Int) - 25)

/-! ### Rounding (02 R29, R30, R32) -/

/-- Whether a magnitude k with a remainder rem below 2^shift is rounded away from zero. -/
def roundsUp (mode : Rounding) (neg : Bool) (k rem half : Nat) : Bool :=
  match mode with
  | .nearestEven => half < rem || (rem == half && k % 2 == 1)
  | .towardZero => false
  | .up => rem != 0 && !neg
  | .down => rem != 0 && neg

/-- Rounds m * 2^e to an integer multiple of 2^q: the multiple and whether it is inexact. The shift is bounded, the
discarded part being then below half in any case. -/
def roundAt (mode : Rounding) (neg : Bool) (m : Nat) (e q : Int) : Nat × Bool :=
  if q ≤ e then (m * 2 ^ (e - q).toNat, false)
  else
    let sh := min (q - e).toNat (m.log2 + 3)
    let k := m / 2 ^ sh
    let r := m % 2 ^ sh
    (if roundsUp mode neg k r (2 ^ (sh - 1)) then k + 1 else k, r != 0)

/-- The code of a positive magnitude k * 2^q in a format without an upper bound on the exponent: exponent field and
mantissa field as one number, in which order follows magnitude. -/
def packUnbounded (f : FloatFmt) (k : Nat) (q : Int) : Nat :=
  if k < 2 ^ f.mbits then k
  else (q + f.mbits + f.bias).toNat * 2 ^ f.mbits + (k - 2 ^ f.mbits)

/-- Rounds a positive magnitude into a format, the exponent unbounded above: magnitude code and inexactness
(02 R29). -/
def roundMag (f : FloatFmt) (mode : Rounding) (neg : Bool) (m : Nat) (e : Int) : Nat × Bool :=
  if m = 0 then (0, false)
  else
    let emin : Int := 1 - (f.bias : Int)
    let q := max (e + (m.log2 : Int)) emin - f.mbits
    let (k, nx) := roundAt mode neg m e q
    if k = 2 ^ (f.mbits + 1) then (packUnbounded f (2 ^ f.mbits) (q + 1), nx) else (packUnbounded f k q, nx)

/-- Tiny after rounding with an unbounded exponent range (02 R32). -/
def tiny (f : FloatFmt) (mode : Rounding) (neg : Bool) (m : Nat) (e : Int) : Bool :=
  if m = 0 then false
  else
    let lead := e + (m.log2 : Int)
    let q := lead - f.mbits
    let (k, _) := roundAt mode neg m e q
    let lead' := if k = 2 ^ (f.mbits + 1) then lead + 1 else lead
    decide (lead' < 1 - (f.bias : Int))

/-- The magnitude code of infinity of a format with infinities. -/
def infCode (f : FloatFmt) : Nat := (2 ^ f.ebits - 1) * 2 ^ f.mbits

/-- Rounds an exact number into FP32, BF16 or FP16 with its flags (02 R29, R30, R32): sign and magnitude code. DESIGN CHOICE,
unsafe: 'the result is non-zero' of UF speaks of the exact result, so a tiny inexact one that rounds to zero sets UF
(log 79). -/
def roundFin (f : FloatFmt) (mode : Rounding) (neg : Bool) (m : Nat) (e : Int) : Nat × Flags :=
  let (code, nx) := roundMag f mode neg m e
  if infCode f ≤ code then
    let toInf := match mode with
      | .nearestEven => true
      | .towardZero => false
      | .up => !neg
      | .down => neg
    (if toInf then infCode f else infCode f - 1, flOF ||| flNX)
  else (code, flagIf nx flNX ||| flagIf (nx && tiny f mode neg m e) flUF)

/-- A sign and a magnitude code as bits of width 1 + ebits + mbits. -/
def withSign (w : Nat) (neg : Bool) (code : Nat) : BitVec w :=
  BitVec.ofNat w ((if neg then 2 ^ (w - 1) else 0) + code)

/-- Rounds a value to FP32 (02 R29); a signalling NaN sets NV (R32). -/
def round32 (mode : Rounding) (v : Value) : Word × Flags :=
  match v with
  | .nan b s => (b, flagIf s flNV)
  | .inf n => (withSign 32 n (infCode fmtF32), 0#8)
  | .fin n m e => let (c, fl) := roundFin fmtF32 mode n m e; (withSign 32 n c, fl)

/-- Rounds a value to BF16 in one rounding (conversions, 06 R158): a NaN keeps its sign and the payload bits that fit
(02 R35). -/
def roundBF (mode : Rounding) (v : Value) : BitVec 16 × Flags :=
  match v with
  | .nan b s => (b.extractLsb' 16 16, flagIf s flNV)
  | .inf n => (withSign 16 n (infCode fmtBF16), 0#8)
  | .fin n m e => let (c, fl) := roundFin fmtBF16 mode n m e; (withSign 16 n c, fl)

/-- Rounds a value to FP16 in one rounding (06 R158, 02 R35). -/
def roundF16 (mode : Rounding) (v : Value) : BitVec 16 × Flags :=
  match v with
  | .nan b s => (withSign 16 (b.getLsbD 31) (31 * 2 ^ 10 + (b.extractLsb' 13 10).toNat), flagIf s flNV)
  | .inf n => (withSign 16 n (infCode fmtF16), 0#8)
  | .fin n m e => let (c, fl) := roundFin fmtF16 mode n m e; (withSign 16 n c, fl)

/-! ### Exact operations (02 R32 to R35) -/

/-- The signed integer m or -m. -/
def signedMag (neg : Bool) (m : Nat) : Int := if neg then -(m : Int) else m

/-- The exact sum of two finite numbers; an exact zero sum of unlike signs is +0, and -0 under rounding toward minus
infinity (log 12). -/
def addFin (mode : Rounding) (n1 : Bool) (m1 : Nat) (e1 : Int) (n2 : Bool) (m2 : Nat) (e2 : Int) : Value :=
  if m1 = 0 ∧ m2 = 0 then
    .fin (if n1 = n2 then n1 else mode == .down) 0 0
  else if m1 = 0 then .fin n2 m2 e2
  else if m2 = 0 then .fin n1 m1 e1
  else
    let e := min e1 e2
    let t := signedMag n1 (m1 * 2 ^ (e1 - e).toNat) + signedMag n2 (m2 * 2 ^ (e2 - e).toNat)
    if t = 0 then .fin (mode == .down) 0 0 else .fin (decide (t < 0)) t.natAbs e

/-- Whether a value is a NaN. -/
def Value.isNaN : Value → Bool
  | .nan _ _ => true
  | _ => false

/-- Whether a value is a signalling NaN. -/
def Value.isSig : Value → Bool
  | .nan _ s => s
  | _ => false

/-- A NaN taken as a result: quieted, its signalling mark spent. -/
def Value.settled : Value → Value
  | .nan b _ => .nan b false
  | v => v

/-- The sign of a value reversed; a NaN stands. -/
def Value.negate : Value → Value
  | .nan b s => .nan b s
  | .inf n => .inf (!n)
  | .fin n m e => .fin (!n) m e

/-- A value times 2^k (the scale stage, 02 R54). -/
def Value.scaled (k : Int) : Value → Value
  | .fin n m e => .fin n m (e + k)
  | v => v

/-- a + b (02 R33: the first NaN; infinity minus infinity is invalid). -/
def fAdd (mode : Rounding) (a b : Value) : Value × Flags :=
  let nv := flagIf (a.isSig || b.isSig) flNV
  match a, b with
  | .nan p _, _ => (.nan p false, nv)
  | _, .nan q _ => (.nan q false, nv)
  | .inf n1, .inf n2 => if n1 = n2 then (.inf n1, nv) else (.nan genNaN false, flNV)
  | .inf n1, .fin _ _ _ => (.inf n1, nv)
  | .fin _ _ _, .inf n2 => (.inf n2, nv)
  | .fin n1 m1 e1, .fin n2 m2 e2 => (addFin mode n1 m1 e1 n2 m2 e2, nv)

/-- a * b, exact (02 R32: zero times infinity is invalid). -/
def fMul (a b : Value) : Value × Flags :=
  let nv := flagIf (a.isSig || b.isSig) flNV
  match a, b with
  | .nan p _, _ => (.nan p false, nv)
  | _, .nan q _ => (.nan q false, nv)
  | .inf n1, .inf n2 => (.inf (n1 != n2), nv)
  | .inf n1, .fin n2 m _ => if m = 0 then (.nan genNaN false, flNV) else (.inf (n1 != n2), nv)
  | .fin n1 m _, .inf n2 => if m = 0 then (.nan genNaN false, flNV) else (.inf (n1 != n2), nv)
  | .fin n1 m1 e1, .fin n2 m2 e2 => (.fin (n1 != n2) (m1 * m2) (e1 + e2), nv)

/-- a * b + c, the product exact, its sign reversed when negP holds and c's when negC holds (06 R151, 02 R33, R34). -/
def fFma (mode : Rounding) (negP negC : Bool) (a b c : Value) : Value × Flags :=
  let sig := flagIf (a.isSig || b.isSig || c.isSig) flNV
  if a.isNaN then (a.settled, sig)
  else if b.isNaN then (b.settled, sig)
  else
    let (p, fp) := fMul a b
    if c.isNaN then (c.settled, sig ||| fp)
    else if p.isNaN then (p, fp)
    else
      let p := if negP then p.negate else p
      let c := if negC then c.negate else c
      let (r, fr) := fAdd mode p c
      (r, sig ||| fp ||| fr)

/-- Order of two non-NaN values, -0 below +0 (02 R35). -/
def lessTotal (a b : Value) : Bool :=
  match a, b with
  | .inf n1, .inf n2 => n1 && !n2
  | .inf n1, .fin _ _ _ => n1
  | .fin _ _ _, .inf n2 => !n2
  | .fin n1 m1 e1, .fin n2 m2 e2 =>
    if m1 = 0 ∧ m2 = 0 then n1 && !n2
    else
      let e := min e1 e2
      decide (signedMag n1 (m1 * 2 ^ (e1 - e).toNat) < signedMag n2 (m2 * 2 ^ (e2 - e).toNat))
  | _, _ => false

/-- Numerically equal non-NaN values, +0 = -0 (06 R153). -/
def equalNum (a b : Value) : Bool :=
  match a, b with
  | .inf n1, .inf n2 => n1 == n2
  | .fin n1 m1 e1, .fin n2 m2 e2 =>
    let e := min e1 e2
    signedMag n1 (m1 * 2 ^ (e1 - e).toNat) == signedMag n2 (m2 * 2 ^ (e2 - e).toNat)
  | _, _ => false

/-- The smaller value (02 R35). -/
def fMin (a b : Value) : Value × Flags :=
  let sig := flagIf (a.isSig || b.isSig) flNV
  if a.isNaN then (a.settled, sig) else if b.isNaN then (b.settled, sig)
  else (if lessTotal b a then b else a, 0#8)

/-- The larger value (02 R35). -/
def fMax (a b : Value) : Value × Flags :=
  let sig := flagIf (a.isSig || b.isSig) flNV
  if a.isNaN then (a.settled, sig) else if b.isNaN then (b.settled, sig)
  else (if lessTotal a b then b else a, 0#8)

/-! ### The modifier word (02 R54) -/

/-- The scale a modifier gives, 0 without one. -/
def modScale (md : Option Modifier) : Int := match md with | none => 0 | some m => m.scale

/-- Absolute value, then negation, on the sign bit (02 R35). -/
def modSign (md : Option Modifier) (w : Nat) (x : BitVec w) : BitVec w :=
  match md with
  | none => x
  | some m =>
    let x := if m.abs then x &&& ~~~(BitVec.ofNat w (2 ^ (w - 1))) else x
    if m.neg then x ^^^ BitVec.ofNat w (2 ^ (w - 1)) else x

/-- The clamp of a floating-point result: a value below or above a bound becomes the bound; a NaN passes (02 R54). -/
def modClamp (md : Option Modifier) (w : Nat) (one : BitVec w) (val : BitVec w → Value) (x : BitVec w) : BitVec w :=
  match md with
  | none => x
  | some m =>
    let v := val x
    let minusOne := one ||| BitVec.ofNat w (2 ^ (w - 1))
    let below (b : BitVec w) : Bool := !v.isNaN && !equalNum v (val b) && lessTotal v (val b)
    let above (b : BitVec w) : Bool := !v.isNaN && !equalNum v (val b) && lessTotal (val b) v
    if m.clamp = 1#2 then (if below 0 then 0 else if above one then one else x)
    else if m.clamp = 2#2 then (if below minusOne then minusOne else if above one then one else x)
    else if m.clamp = 3#2 then (if below 0 then 0 else x)
    else x

/-- FP32 delivery of an exact value: scale, one rounding, absolute value, negation, clamp (02 R54). -/
def deliver32 (md : Option Modifier) (mode : Rounding) (v : Value) : Word × Flags :=
  let (r, fl) := round32 mode (v.scaled (modScale md))
  (modClamp md 32 0x3F800000#32 value32 (modSign md 32 r), fl)

/-- BF16 delivery: rounded to FP32, then to BF16, both under the mode (02 R28). -/
def deliverBF (md : Option Modifier) (mode : Rounding) (v : Value) : BitVec 16 × Flags :=
  let (r, f1) := round32 mode (v.scaled (modScale md))
  let (h, f2) := roundBF mode (value32 r)
  (modClamp md 16 0x3F80#16 valueBF (modSign md 16 h), f1 ||| f2)

/-- The nearest integer to E / 2^k, ties to even. -/
def divRoundEven (x : Int) (k : Nat) : Int :=
  let q := x / (2 ^ k : Int)
  let r := x % (2 ^ k : Int)
  if 2 * r > 2 ^ k then q + 1 else if 2 * r = 2 ^ k then (if q % 2 = 0 then q else q + 1) else q

/-- Scale stage of an integer result (02 R54): exact, or the nearest integer, ties to even. -/
def scaleInt (k : Int) (x : Int) : Int :=
  if 0 ≤ k then x * 2 ^ k.toNat else divRoundEven x (-k).toNat

/-- Absolute value, negation and clamp of an exact integer (02 R54). -/
def stagesInt (m : Modifier) (x : Int) : Int :=
  let x := if m.abs then (x.natAbs : Int) else x
  let x := if m.neg then -x else x
  if m.clamp = 1#2 then max 0 (min x 1)
  else if m.clamp = 2#2 then max (-1) (min x 1)
  else if m.clamp = 3#2 then max 0 x
  else x

/-- The nearest end of the signed or unsigned range of w bits (02 R51). -/
def saturate (signed : Bool) (w : Nat) (x : Int) : Int :=
  if signed then max (-(2 ^ (w - 1) : Int)) (min x (2 ^ (w - 1) - 1)) else max 0 (min x (2 ^ w - 1))

/-- Delivery of an exact integer result E into w bits: the stages of R54, then saturation (R51) or wrapping (R50). -/
def deliverInt (md : Option Modifier) (signed : Bool) (w : Nat) (x : Int) : BitVec w × Flags :=
  match md with
  | none => (BitVec.ofInt w x, 0#8)
  | some m =>
    let x := stagesInt m (scaleInt m.scale x)
    if m.sat then
      let y := saturate signed w x
      (BitVec.ofInt w y, flagIf (y != x) flSAT)
    else (BitVec.ofInt w x, 0#8)

/-! ### Narrow formats (02 R36 to R43) -/

/-- Exact value of a code of a narrow floating-point format (02 R36). -/
def narrowFloat (f : FloatFmt) (code : Nat) : Value :=
  let w := 1 + f.ebits + f.mbits
  let neg := code / 2 ^ (w - 1) % 2 == 1
  let e := code / 2 ^ f.mbits % 2 ^ f.ebits
  let m := code % 2 ^ f.mbits
  if e = 0 then .fin neg m (1 - (f.bias : Int) - f.mbits)
  else .fin neg (m + 2 ^ f.mbits) ((e : Int) - f.bias - f.mbits)

/-- Exact value of a two's-complement code of w bits (02 R37). -/
def narrowInt (w : Nat) (code : Nat) : Value :=
  let x := (BitVec.ofNat w code).toInt
  .fin (decide (x < 0)) x.natAbs 0

/-- Exact value of an element code, before its block scale (02 R36, R37; FP32, BF16 and FP16 as they stand). -/
def elemValue (f : Elem) (code : Nat) : Value :=
  match f with
  | .f32 => value32 (BitVec.ofNat 32 code)
  | .bf16 => valueBF (BitVec.ofNat 16 code)
  | .f16 => valueF16 (BitVec.ofNat 16 code)
  | .e4m3 | .fx8 => narrowFloat fmtE4M3 code
  | .e5m2 => narrowFloat fmtE5M2 code
  | .e2m1 => narrowFloat fmtE2M1 code
  | .i8 => narrowInt 8 code
  | .i4 => narrowInt 4 code

/-- Exact value of a narrow code under an E8M0 block scale (02 R39): code 0xFF marks a NaN. -/
def scaledValue (f : Elem) (code scale : Nat) : Value :=
  if scale = 255 then .nan genNaN false else (elemValue f code).scaled ((scale : Int) - 127)

/-- Decoding to FP32 (02 R41), rounded to nearest-even whatever RMODE holds. -/
def decodeNarrow (f : Elem) (code scale : Nat) : Word × Flags :=
  round32 .nearestEven (scaledValue f code scale)

/-- An element as a matrix operand latch decodes it, with the flags of the decoding (02 R41; 07 R177): exact, but for a
magnitude beyond FP32, which becomes infinite and sets OF (log 78). -/
def latched (f : Elem) (code scale : Nat) : Value × Flags :=
  let r := decodeNarrow f code scale
  (value32 r.1, r.2)

/-- The largest positive code of a format (02 R43). -/
def largestCode (f : Elem) : Nat :=
  match f with
  | .f16 => 0x7BFF
  | .e4m3 | .e5m2 | .fx8 | .i8 => 0x7F
  | .e2m1 | .i4 => 0x7
  | .f32 => 0x7F7FFFFF
  | .bf16 => 0x7F7F

/-- Result of encoding an element: its code, its flags, and whether it marks its block NaN (02 R42). -/
structure Encoded where
  code  : Nat
  flags : Flags
  mark  : Bool
  deriving DecidableEq, Repr

/-- Encodes into a floating-point format whose clamp bound is the magnitude code B (02 R42, R43). -/
def encodeFloat (f : FloatFmt) (v : Value) (scale bound : Nat) : Encoded :=
  let w := 1 + f.ebits + f.mbits
  match v with
  | .nan _ _ => ⟨0, flNANBLK, true⟩
  | .inf n => ⟨(withSign w n bound).toNat, flCLAMP ||| flNX, false⟩
  | .fin n m e =>
    let (c, nx) := roundMag f .nearestEven n m (e + (127 - (scale : Int)))
    if bound < c then ⟨(withSign w n bound).toNat, flCLAMP ||| flNX, false⟩
    else ⟨(withSign w n c).toNat, flagIf nx flNX, false⟩

/-- Encodes into a two's-complement format of w bits with bound B (02 R42, R43). -/
def encodeInt (w : Nat) (v : Value) (scale bound : Nat) : Encoded :=
  match v with
  | .nan _ _ => ⟨0, flNANBLK, true⟩
  | .inf n => ⟨(BitVec.ofInt w (signedMag n bound)).toNat, flCLAMP ||| flNX, false⟩
  | .fin n m e =>
    let (k, nx) := roundAt .nearestEven n m (e + (127 - (scale : Int))) 0
    if bound < k then ⟨(BitVec.ofInt w (signedMag n bound)).toNat, flCLAMP ||| flNX, false⟩
    else ⟨(BitVec.ofInt w (signedMag n k)).toNat, flagIf nx flNX, false⟩

/-- Encodes an FP32 value into an element format under a block scale and a clamp bound (02 R42, R43). A block whose
scale is 0xFF is encoded as with scale 127. FP16 stores infinities and NaNs (R43). DESIGN CHOICE, unsafe: a finite value
that rounds beyond 65,504 meets the clamp bound, which holds for finite values, and not the infinity of R29 (log 79). -/
def encodeNarrow (f : Elem) (v : Value) (scale bound : Nat) : Encoded :=
  let scale := if scale = 255 then 127 else scale
  match f with
  | .e4m3 | .fx8 => encodeFloat fmtE4M3 v scale bound
  | .e5m2 => encodeFloat fmtE5M2 v scale bound
  | .e2m1 => encodeFloat fmtE2M1 v scale bound
  | .i8 => encodeInt 8 v scale bound
  | .i4 => encodeInt 4 v scale bound
  | .f16 =>
    match v with
    | .fin _ _ _ => encodeFloat fmtF16 v 127 bound
    | _ => let (h, fl) := roundF16 .nearestEven v; ⟨h.toNat, fl, false⟩
  | .f32 => let (h, fl) := round32 .nearestEven v; ⟨h.toNat, fl, false⟩
  | .bf16 => let (h, fl) := roundBF .nearestEven v; ⟨h.toNat, fl, false⟩

/-! ### FX8 blocks (02 R44 to R49) -/

/-- Byte i of a list, 0 past its end. -/
def byteAt (bs : List Byte) (i : Nat) : Nat := (bs.getD i 0#8).toNat

/-- Bits of the token stream from position p on (02 R45). -/
def tokenBit (bs : List Byte) (p : Nat) : Bool := byteAt bs (18 + p / 8) / 2 ^ (p % 8) % 2 == 1

/-- The prefix codes of the three tables (02 R47): bits, first bit first, and the difference they code. -/
def fx8Table (mode : Nat) : List (List Bool × Nat) :=
  if mode = 1 then [([false], 0), ([true, false], 1), ([true, true, false], 15)]
  else if mode = 2 then
    [([false, false], 0), ([false, true], 1), ([true, false, false], 15), ([true, false, true], 2),
     ([true, true, false, false], 14), ([true, true, false, true], 3)]
  else
    [([false, false, false], 0), ([false, false, true], 1), ([false, true, false], 15), ([false, true, true], 2),
     ([true, false, false], 14), ([true, false, true], 3), ([true, true, false, false], 13),
     ([true, true, false, true], 4)]

/-- Whether the stream holds the given bits at p, all inside the 112 positions. -/
def bitsMatch (bs : List Byte) (p : Nat) : List Bool → Bool
  | [] => true
  | b :: r => decide (p < 112) && (tokenBit bs p == b) && bitsMatch bs (p + 1) r

/-- One token: its difference and the next position; none where the stream ends inside it (02 R47, R49). -/
def readToken (bs : List Byte) (mode p : Nat) : Option (Nat × Nat) :=
  match (fx8Table mode).find? (fun t => bitsMatch bs p t.1) with
  | some t => some (t.2, p + t.1.length)
  | none =>
    if bitsMatch bs p [true, true, true] && decide (p + 7 ≤ 112) then
      let bit (k : Nat) : Nat := if tokenBit bs (p + k) then 1 else 0
      some (8 * bit 3 + 4 * bit 4 + 2 * bit 5 + bit 6, p + 7)
    else none

/-- The exponent fields of n elements in a table mode (02 R47). -/
def readTokens (bs : List Byte) (mode base : Nat) : Nat → Nat → Option (List Nat)
  | 0, _ => some []
  | n + 1, p =>
    match readToken bs mode p with
    | none => none
    | some (d, p') => (readTokens bs mode base n p').map (fun r => (base + d) % 16 :: r)

/-- The 32 FP8-E4M3 codes and the scale of an FX8 block; none for a malformed block (02 R44 to R49). -/
def fx8Codes (bs : List Byte) : Option (List Nat × Nat) :=
  let mode := byteAt bs 0 / 64
  let base := byteAt bs 0 % 64
  let sm (i : Nat) : Nat := byteAt bs (2 + i / 2) / (if i % 2 = 0 then 1 else 16) % 16
  let build (es : List Nat) : List Nat :=
    (List.range 32).map fun i => sm i / 8 * 128 + es.getD i 0 * 8 + sm i % 8
  if mode = 0 then
    if 8 < base then none
    else
      let bit (p : Nat) : Nat := if tokenBit bs p then 1 else 0
      let code (i : Nat) : Nat := bit (3 * i) + 2 * bit (3 * i + 1) + 4 * bit (3 * i + 2)
      some (build ((List.range 32).map fun i => if code i = 0 then 0 else base + code i), byteAt bs 1)
  else if 15 < base then none
  else (readTokens bs mode base 32 0).map fun es => (build es, byteAt bs 1)

/-- Element i of an FX8 block as an operand latch decodes it (02 R41, R49). -/
def fx8Latched (bs : List Byte) (i : Nat) : Value × Flags :=
  match fx8Codes bs with
  | none => (.nan genNaN false, 0#8)
  | some (cs, s) => latched .e4m3 (cs.getD i 0) s

/-- The value of element i of an FX8 block; a malformed block is NaN in every element (02 R49). -/
def fx8Value (bs : List Byte) (i : Nat) : Value :=
  match fx8Codes bs with
  | none => .nan genNaN false
  | some (cs, s) => scaledValue .e4m3 (cs.getD i 0) s

/-- Length in bits of the shortest token of a table for a difference (02 R48). -/
def tokenFor (mode d : Nat) : List Bool :=
  match (fx8Table mode).find? (fun t => t.2 == d) with
  | some t => t.1
  | none => [true, true, true, d / 8 % 2 == 1, d / 4 % 2 == 1, d / 2 % 2 == 1, d % 2 == 1]

/-- Total token length of exponent fields under a mode and base (02 R48). -/
def tokensLength (mode base : Nat) (es : List Nat) : Nat :=
  (es.map fun e => (tokenFor mode ((e + 16 - base) % 16)).length).sum

/-- The (mode, base) the encoder chooses, none for raw mode (02 R48): the first of the smallest fitting totals in the
order of tables A, B, C and then of the bases. -/
def fx8Choose (es : List Nat) : Option (Nat × Nat) :=
  let cands := [1, 2, 3].flatMap fun md => (List.range 16).map fun b => (md, b)
  (cands.foldl (fun best c =>
      let t := tokensLength c.1 c.2 es
      if 112 < t then best
      else match best with
        | none => some (t, c)
        | some (bt, bc) => if t < bt then some (t, c) else some (bt, bc)) none).map (fun p => p.2)

/-- Packs bits into bytes, the first bit lowest (02 R45). -/
def packBits (n : Nat) (bits : List Bool) : List Byte :=
  (List.range n).map fun i =>
    BitVec.ofNat 8 (((List.range 8).map fun k => if bits.getD (8 * i + k) false then 2 ^ k else 0).sum)

/-- The FX8 block of 32 E4M3 codes under a scale byte, and its NX flag (02 R44 to R48). -/
def fx8Encode (codes : List Nat) (scale : Nat) : List Byte × Flags :=
  let es := codes.map fun c => c / 8 % 16
  let nib (c : Nat) : Nat := c / 128 % 2 * 8 + c % 8
  let sm (cs : List Nat) : List Byte :=
    (List.range 16).map fun i => BitVec.ofNat 8 (nib (cs.getD (2 * i) 0) + 16 * nib (cs.getD (2 * i + 1) 0))
  match fx8Choose es with
  | some (md, b) =>
    let toks := es.flatMap fun e => tokenFor md ((e + 16 - b) % 16)
    ([BitVec.ofNat 8 (64 * md + b), BitVec.ofNat 8 scale] ++ sm codes ++ packBits 14 toks, 0#8)
  | none =>
    let b := es.foldl max 0 - 7
    let flush (c : Nat) : Bool := decide (1 ≤ c / 8 % 16) && decide (c / 8 % 16 ≤ b)
    let cs := codes.map fun c => if flush c then c / 128 % 2 * 128 else c
    let raw := cs.flatMap fun c =>
      let k := if c / 8 % 16 = 0 then 0 else c / 8 % 16 - b
      [k % 2 == 1, k / 2 % 2 == 1, k / 4 % 2 == 1]
    ([BitVec.ofNat 8 b, BitVec.ofNat 8 scale] ++ sm cs ++ packBits 14 raw,
      flagIf (codes.any fun c => flush c && c % 128 != 0) flNX)

/-! ### Special functions (06 R157) -/

/-- Working precision of the bounds, in fraction bits, and the bits dropped when a bound is decided (log 8). -/
def spP : Nat := 192

/-- floor of the square root, by Newton steps from above. -/
def isqrtFrom : Nat → Nat → Nat → Nat
  | 0, _, x => x
  | k + 1, n, x => let y := (x + n / x) / 2; if y < x then isqrtFrom k n y else x

def isqrt (n : Nat) : Nat := if n = 0 then 0 else isqrtFrom 400 n (2 ^ (n.log2 / 2 + 1))

/-- Sum over odd k of z^k / k for a fixed-point z: half of ln((1 + z) / (1 - z)). -/
def atanhSum (z : Nat) : Nat → Nat → Nat → Nat
  | 0, _, _ => 0
  | fuel + 1, k, p => p / k + atanhSum z fuel (k + 2) (p * z / 2 ^ spP * z / 2 ^ spP)

/-- ln 2 with spP fraction bits (error below 200 units). -/
def lnTwo : Nat := 2 * atanhSum (2 ^ spP / 3) 80 1 (2 ^ spP / 3)

/-- Sum of r^k / k! from k on for a fixed-point r below 1. -/
def expSum (r : Nat) : Nat → Nat → Nat → Nat
  | 0, _, _ => 0
  | fuel + 1, k, t => t + expSum r fuel (k + 1) (t * r / 2 ^ spP / k)

/-- e^r with spP fraction bits for a fixed-point r below 1. -/
def expFix (r : Nat) : Nat := expSum r 64 1 (2 ^ spP)

/-- A magnitude A * 2^e known to within 2^20 units of A, reduced to a floor with a sticky bit below it (an odd last
bit); none where the bounds do not decide. The exact value is never a floor itself. -/
def decideFloor (a : Nat) (e : Int) : Option (Nat × Int) :=
  let lo := (a - 2 ^ 20) / 2 ^ 64
  if lo = (a + 2 ^ 20) / 2 ^ 64 then some (2 * lo + 1, e + 63) else none

/-- |x| = m * 2^e as a fixed-point number with spP fraction bits, rounded down, for a number below 2^64. -/
def toFix (m : Nat) (e : Int) : Nat :=
  if 0 ≤ e + spP then m * 2 ^ (e + spP).toNat else m / 2 ^ (-(e + spP)).toNat

/-- 2^x for a finite non-zero x (06 R157): exact for an integer, else bounds. -/
def exp2Mag (neg : Bool) (m : Nat) (e : Int) : Option (Nat × Int) :=
  if 0 ≤ e then some (1, if neg then -(m * 2 ^ (min e.toNat 200) : Int) else (m * 2 ^ (min e.toNat 200) : Int))
  else if m % 2 ^ (-e).toNat = 0 ∧ (-e).toNat ≤ 24 then
    let n : Int := (m / 2 ^ (-e).toNat : Nat)
    some (1, if neg then -n else n)
  else if e + (m.log2 : Int) < -40 then
    some (if neg then 2 ^ 60 - 1 else 2 ^ 60 + 1, -60)
  else
    let d : Nat := 2 ^ (-e).toNat
    let x := signedMag neg m
    let n := x / (d : Int)
    let f := (x % (d : Int)).toNat
    let r := f * lnTwo / d
    (decideFloor (expFix r) (-(spP : Int))).map fun p => (p.1, p.2 + n)

/-- log2 x for a positive finite x: sign and magnitude (06 R157). -/
def log2Mag (m : Nat) (e : Int) : Option (Bool × Nat × Int) :=
  let l := m.log2
  let ex := e + (l : Int)
  if m = 2 ^ l then some (decide (ex < 0), ex.natAbs, 0)
  else
    let y := m * 2 ^ (spP - l)
    let z := (y - 2 ^ spP) * 2 ^ spP / (y + 2 ^ spP)
    let lg := 2 * atanhSum z 80 1 z * 2 ^ spP / lnTwo
    let v : Int := ex * 2 ^ spP + lg
    (decideFloor v.natAbs (-(spP : Int))).map fun p => (decide (v < 0), p.1, p.2)

/-- tanh of a positive finite magnitude (06 R157): below 2^-13 it lies under the argument by less than a third of its cube, which is
less than any rounding of an argument of 24 bits tells; from 16 on it lies between 1 - 2^-40 and 1, where every rounding is that of
1 - 2^-60. -/
def tanhMag (m : Nat) (e : Int) : Option (Nat × Int) :=
  if e + (m.log2 : Int) < -13 then some (m * 2 ^ 80 - 1, e - 80)
  else if 3 < e + (m.log2 : Int) then some (2 ^ 60 - 1, -60)
  else
    let y := 2 * toFix m e
    let n := y / lnTwo
    let r := y - n * lnTwo
    let ef := expFix r * 2 ^ n
    decideFloor ((ef - 2 ^ spP) * 2 ^ spP / (ef + 2 ^ spP)) (-(spP : Int))

/-- 1 / (m * 2^e), as a floor with a sticky bit. -/
def rcpMag (m : Nat) (e : Int) : Nat × Int :=
  let k := m.log2 + 80
  let q := 2 ^ k / m
  (2 * q + (if 2 ^ k % m = 0 then 0 else 1), -e - k - 1)

/-- 1 / sqrt (m * 2^e), as a floor with a sticky bit. -/
def rsqMag (m : Nat) (e : Int) : Nat × Int :=
  let (m, e) := if e % 2 = 0 then (m, e) else (2 * m, e - 1)
  let k := m.log2 + 80
  let q := isqrt (2 ^ (2 * k) / m)
  (2 * q + (if q * q * m = 2 ^ (2 * k) then 0 else 1), -(e / 2) - k - 1)

/-- The exact result of a special function, its flags, or none where the bounds do not decide (06 R157). The functions
are numbered as their minors. -/
def specialValue (f : Nat) (v : Value) : Option (Value × Flags) :=
  match v with
  | .nan b s => some (.nan b false, flagIf s flNV)
  | .inf n =>
    match f with
    | 0 => some (if n then .fin false 0 0 else .inf false, 0#8)
    | 1 => some (if n then (.nan genNaN false, flNV) else (.inf false, 0#8))
    | 2 => some (.fin n 0 0, 0#8)
    | 3 => some (if n then (.nan genNaN false, flNV) else (.fin false 0 0, 0#8))
    | _ => some (.fin n 1 0, 0#8)
  | .fin n m e =>
    if m = 0 then
      match f with
      | 0 => some (.fin false 1 0, 0#8)
      | 1 => some (.inf true, flDZ)
      | 2 => some (.inf n, flDZ)
      | 3 => some (.inf n, flDZ)
      | _ => some (.fin n 0 0, 0#8)
    else
      match f with
      | 0 => (exp2Mag n m e).map fun p => (.fin false p.1 p.2, 0#8)
      | 1 => if n then some (.nan genNaN false, flNV) else (log2Mag m e).map fun p => (.fin p.1 p.2.1 p.2.2, 0#8)
      | 2 => let p := rcpMag m e; some (.fin n p.1 p.2, 0#8)
      | 3 => if n then some (.nan genNaN false, flNV) else let p := rsqMag m e; some (.fin false p.1 p.2, 0#8)
      | _ => (tanhMag m e).map fun p => (.fin n p.1 p.2, 0#8)

/-- Delivery of a special function of an FP32 operand; where the bounds do not decide, the word is a free value and
NX is set, the exact value being irrational (06 R157, log 8). -/
def special32 (f : Nat) (md : Option Modifier) (mode : Rounding) (w : Word) : Word × Flags :=
  match specialValue f (value32 w) with
  | some (v, fl) => let (r, fr) := deliver32 md mode v; (r, fl ||| fr)
  | none =>
    let r := Config.undecided f w
    (modClamp md 32 0x3F800000#32 value32 (modSign md 32 r), flNX)

/-! ### Integer conversions (06 R158) -/

/-- VCVTFI: rounds a scaled value to an integer, applies the stages, and brings it into range (06 R158). The flags:
NX where not integral, NV for a NaN, and NV or, under SAT, SAT for a value out of range at the last stage. -/
def toInt32 (md : Option Modifier) (mode : Rounding) (v : Value) : Word × Flags :=
  let stages (x : Int) : Int := match md with | none => x | some m => stagesInt m x
  let sat := match md with | none => false | some m => m.sat
  let finish (x : Int) (fl : Flags) : Word × Flags :=
    let y := saturate true 32 x
    (BitVec.ofInt 32 y, fl ||| flagIf (y != x) (if sat then flSAT else flNV))
  match v.scaled (modScale md) with
  | .nan _ _ => finish (stages 0) flNV
  | .inf n => finish (stages (signedMag n (2 ^ 200))) 0#8
  | .fin n m e =>
    if 200 < e + (m.log2 : Int) then finish (stages (signedMag n (2 ^ 200))) 0#8
    else
      let (k, nx) := roundAt mode n m e 0
      finish (stages (signedMag n k)) (flagIf nx flNX)

/-- VCVTIF: FP32 of a signed word (06 R158). -/
def fromInt32 (md : Option Modifier) (mode : Rounding) (w : Word) : Word × Flags :=
  deliver32 md mode (.fin (decide (w.toInt < 0)) w.toInt.natAbs 0)

/-! ### Matrix summation (02 R55, 15 R340) -/

/-- One rounded addition of the joint array: the accumulator is operand a, the exact term operand b (02 R55); the
flags that count are NV and OF (R56). -/
def accumulate (acc : Word) (term : Value × Flags) : Word × Flags :=
  let (v, f1) := fAdd .nearestEven (value32 acc) term.1
  let (r, f2) := round32 .nearestEven v
  (r, (term.2 ||| f1 ||| f2) &&& (flNV ||| flOF))

/-- The exact product of two latched operands, with the flags of their decoding (02 R41, R55). -/
def latchMul (a b : Value × Flags) : Value × Flags :=
  let p := fMul a.1 b.1
  (p.1, p.2 ||| a.2 ||| b.2)

/-- The exact sum of the two products of an FP4 pair (02 R55). -/
def pairSum (p q : Value × Flags) : Value × Flags :=
  let (v, f) := fAdd .nearestEven p.1 q.1
  (v, p.2 ||| q.2 ||| f)

end Sys2Proof.Machine
end

