-- ==== Sys2Proof/WellFormed.lean ====
section
/-!
DEFINITION. Which instruction terms have a word (04 R84 to R97): the values a field may take beyond its width.
The types of Syntax.lean leave out most illegal values; these are the rest. A step without a word is well formed
whatever it names: an event that names no object of its kind has no effect (00 R1).
-/

namespace Sys2Proof

/-- The rows value of MBINDA is 2, 4, 6 or 8 (07 R185). -/
def rowsOk (r : BitVec 5) : Bool := r == 2#5 || r == 4#5 || r == 6#5 || r == 8#5

/-- A format code of R175: 0 to 4. -/
def fmtOk5 (f : BitVec 5) : Bool := decide (f < 5#5)

/-- The assigned system register numbers (04 R92). -/
def sysAssigned (s : BitVec 10) : Bool :=
  decide (s ≤ 0x00B#10) || (decide (0x011#10 ≤ s) && decide (s ≤ 0x017#10)) || s == 0x020#10 || s == 0x021#10 ||
  (decide (0x028#10 ≤ s) && decide (s ≤ 0x02B#10)) || (decide (0x030#10 ≤ s) && decide (s ≤ 0x033#10))

/-- The well-formed instructions: those an instruction word can encode. -/
def wellFormed (i : Instr) : Bool :=
  match i with
  | .add _ _ _ => true
  | .sub _ _ _ => true
  | .and _ _ _ => true
  | .or _ _ _ => true
  | .xor _ _ _ => true
  | .andn _ _ _ => true
  | .shl _ _ _ => true
  | .shr _ _ _ => true
  | .sra _ _ _ => true
  | .slt _ _ _ => true
  | .sltu _ _ _ => true
  | .seq _ _ _ => true
  | .sne _ _ _ => true
  | .min _ _ _ => true
  | .max _ _ _ => true
  | .minu _ _ _ => true
  | .maxu _ _ _ => true
  | .sel _ _ _ => true
  | .clz _ _ => true
  | .popc _ _ => true
  | .brev _ _ => true
  | .addi _ _ _ => true
  | .andi _ _ _ => true
  | .ori _ _ _ => true
  | .xori _ _ _ => true
  | .slti _ _ _ => true
  | .sltiu _ _ _ => true
  | .shli _ _ _ => true
  | .shri _ _ _ => true
  | .srai _ _ _ => true
  | .lui _ _ => true
  | .mul _ _ _ => true
  | .mulh _ _ _ => true
  | .mulhu _ _ _ => true
  | .div _ _ _ => true
  | .divu _ _ _ => true
  | .rem _ _ _ => true
  | .remu _ _ _ => true
  | .beqz h _ _ => h != 3#2
  | .bnez h _ _ => h != 3#2
  | .bltz h _ _ => h != 3#2
  | .bgez h _ _ => h != 3#2
  | .bgtz h _ _ => h != 3#2
  | .blez h _ _ => h != 3#2
  | .jal _ _ => true
  | .jalr _ _ _ => true
  | .loop _ l => l != 0#16
  | .loopi _ l => l != 0#10
  | .repf _ _ _ _ _ => true
  | .mcall _ _ _ _ _ => true
  | .ldB _ _ _ => true
  | .ldBu _ _ _ => true
  | .ldH _ _ _ => true
  | .ldHu _ _ _ => true
  | .ldW _ _ _ => true
  | .stB _ _ _ => true
  | .stH _ _ _ => true
  | .stW _ _ _ => true
  | .pset _ _ _ => true
  | .pchild _ _ _ => true
  | .pparent _ _ => true
  | .pnext _ _ => true
  | .pmort _ _ _ => true
  | .prow _ _ => true
  | .pcol _ _ => true
  | .pdepth _ _ => true
  | .ptrunc _ _ _ => true
  | .pgetlo _ _ => true
  | .pgethi _ _ => true
  | .psetlo _ _ => true
  | .psethi _ _ => true
  | .vadd _ _ _ _ => true
  | .vsub _ _ _ _ => true
  | .vmul _ _ _ _ => true
  | .vfma _ _ _ _ => true
  | .vfms _ _ _ _ => true
  | .vfnma _ _ _ _ => true
  | .vmin _ _ _ _ => true
  | .vmax _ _ _ _ => true
  | .vaddBf _ _ _ _ => true
  | .vsubBf _ _ _ _ => true
  | .vmulBf _ _ _ _ => true
  | .vfmaBf _ _ _ _ => true
  | .vfmsBf _ _ _ _ => true
  | .vfnmaBf _ _ _ _ => true
  | .vminBf _ _ _ _ => true
  | .vmaxBf _ _ _ _ => true
  | .viadd _ _ _ _ w => decide (w < 3#2)
  | .visub _ _ _ _ w => decide (w < 3#2)
  | .vimul _ _ _ _ w => decide (w < 3#2)
  | .vimulh _ _ _ _ w => decide (w < 3#2)
  | .vand _ _ _ _ w => decide (w < 3#2)
  | .vor _ _ _ _ w => decide (w < 3#2)
  | .vxor _ _ _ _ w => decide (w < 3#2)
  | .vshl _ _ _ _ w => decide (w < 3#2)
  | .vshr _ _ _ _ w => decide (w < 3#2)
  | .vsra _ _ _ _ w => decide (w < 3#2)
  | .vimin _ _ _ _ w => decide (w < 3#2)
  | .vimax _ _ _ _ w => decide (w < 3#2)
  | .vcmpeq _ _ _ _ => true
  | .vcmpne _ _ _ _ => true
  | .vcmplt _ _ _ _ => true
  | .vcmple _ _ _ _ => true
  | .vicmpeq _ _ _ _ => true
  | .vicmplt _ _ _ _ => true
  | .vicmpltu _ _ _ _ => true
  | .vsel _ _ _ _ => true
  | .vperm _ _ _ _ => true
  | .vbcast _ _ _ => true
  | .vmovs _ _ _ => true
  | .vins _ _ _ => true
  | .vmand _ _ _ => true
  | .vmor _ _ _ => true
  | .vmnot _ _ => true
  | .vredadd _ _ _ => true
  | .vredmax _ _ _ => true
  | .vredmin _ _ _ => true
  | .vrediadd _ _ _ => true
  | .vmov _ _ _ => true
  | .vld _ _ _ => true
  | .vst _ _ _ => true
  | .vlds _ _ _ => true
  | .vsts _ _ _ => true
  | .vgth _ _ _ _ => true
  | .vsct _ _ _ _ => true
  | .vcvtfb _ _ _ _ => true
  | .vcvtbf _ _ _ _ => true
  | .vcvtfh _ _ _ _ => true
  | .vcvthf _ _ _ _ => true
  | .vcvtfi _ _ _ => true
  | .vcvtif _ _ _ => true
  | .vfxenc _ a => decide (a ≤ 28#5)
  | .vfxdec _ _ _ => true
  | .vexp2 _ _ _ => true
  | .vlog2 _ _ _ => true
  | .vrcp _ _ _ => true
  | .vrsq _ _ _ => true
  | .vtanh _ _ _ => true
  | .gang c => decide (1#5 ≤ c) && decide (c ≤ 3#5)
  | .ungang => true
  | .gangid _ => true
  | .mzero _ => true
  | .mbinda r _ f => rowsOk r && fmtOk5 f
  | .mldb _ f => fmtOk5 f
  | .gissue _ => true
  | .mrd _ _ _ => true
  | .mwm _ => true
  | .mcap _ => true
  | .mwait _ => true
  | .cpy _ _ _ _ _ _ => true
  | .cpyr _ _ _ => true
  | .cpyq _ _ s => decide (s < 5#5)
  | .cpyx _ => true
  | .cpat _ => true
  | .deal _ _ _ _ => true
  | .gath _ _ _ _ => true
  | .scat _ _ _ _ => true
  | .gwait _ _ => true
  | .aadd _ _ _ s _ => decide (s < 5#3)
  | .aand _ _ _ s _ => decide (s < 5#3)
  | .aor _ _ _ s _ => decide (s < 5#3)
  | .axor _ _ _ s _ => decide (s < 5#3)
  | .amin _ _ _ s _ => decide (s < 5#3)
  | .amax _ _ _ s _ => decide (s < 5#3)
  | .aminu _ _ _ s _ => decide (s < 5#3)
  | .amaxu _ _ _ s _ => decide (s < 5#3)
  | .axchg _ _ _ s _ => decide (s < 5#3)
  | .acas _ _ _ s _ => decide (s < 5#3)
  | .afadd _ _ _ s _ => decide (s < 5#3)
  | .vaadd _ _ _ s _ => decide (s < 5#3)
  | .vaand _ _ _ s _ => decide (s < 5#3)
  | .vaor _ _ _ s _ => decide (s < 5#3)
  | .vaxor _ _ _ s _ => decide (s < 5#3)
  | .vamin _ _ _ s _ => decide (s < 5#3)
  | .vamax _ _ _ s _ => decide (s < 5#3)
  | .vaminu _ _ _ s _ => decide (s < 5#3)
  | .vamaxu _ _ _ s _ => decide (s < 5#3)
  | .vafadd _ _ _ s _ => decide (s < 5#3)
  | .vawait => true
  | .barr _ _ => true
  | .bwait _ _ => true
  | .btest _ _ _ => true
  | .bph _ _ => true
  | .bmsk _ _ => true
  | .vote _ _ _ => true
  | .xsync _ => true
  | .xsend _ _ => true
  | .xdone => true
  | .xslot _ _ _ => true
  | .qapp _ _ _ _ => true
  | .qget _ => true
  | .qfree _ _ => true
  | .qfreeOpen _ _ _ => true
  | .qcnt _ => true
  | .wgent _ _ => true
  | .wgentL _ => true
  | .wgres _ _ _ => true
  | .wgwait _ _ => true
  | .wgcan _ => true
  | .spld _ _ f => decide (f < 3#5)
  | .spmm _ _ f => decide (f < 3#5)
  | .cbq _ => true
  | .cbinv _ => true
  | .cbinvAll => true
  | .cbwait _ => true
  | .fpost _ _ => true
  | .forage _ => true
  | .yield _ => true
  | .cend => true
  | .fquiet _ => true
  | .launch _ _ => true
  | .patchi _ _ => true
  | .trap _ => true
  | .rft => true
  | .gsr _ s => sysAssigned s
  | .ssr _ s => sysAssigned s
  | .fence s => decide (s < 5#3)
  | .bkpt _ => true
  | .wfe => true
  | .ident _ => true
  | .modifierWord _ _ _ _ e k => !(e == 0#1 && k != 0#6)
  | .repfVectorFeed _ => true
  | .vectorDispatch _ => true
  | .vectorComplete _ => true
  | .gangRendezvousComplete _ _ => true
  | .mldbStagingComplete _ => true
  | .jointRendezvousComplete _ => true
  | .ringStepBegin _ => true
  | .rowPairComplete _ => true
  | .treeRecordFill _ _ _ => true
  | .bankhashRehashComplete _ => true
  | .bankReplayRetry _ => true
  | .retentionEntry _ => true
  | .retentionEntryComplete _ => true
  | .retentionExit _ => true
  | .retentionExitComplete _ => true
  | .copyBeat _ _ => true
  | .gatherEntry _ _ _ => true
  | .packageCopyMove _ _ _ _ _ _ _ => true
  | .pageRequestAdmit _ => true
  | .pageRequestComplete _ _ _ => true
  | .pageRequestRefuse _ _ => true
  | .shootdownComplete _ _ => true
  | .pageReplicate _ _ => true
  | .pageEndReplication _ _ => true
  | .pagePermissionChange _ _ _ _ _ _ _ => true
  | .instructionFetch _ => true
  | .atomicApply _ => true
  | .atomicResultReturn _ _ => true
  | .arrivalEntersTree _ _ => true
  | .barrierRelease _ _ _ => true
  | .exchangeSlotClose _ _ _ => true
  | .exchangeBeatLands _ => true
  | .queueEntryLands _ => true
  | .waggleEntryRegister _ _ => true
  | .frameStart _ => true
  | .resolutionSlot _ => true
  | .waggleWithdrawal _ _ => true
  | .frameEnd _ => true
  | .buildStart _ => true
  | .buildEnd _ => true
  | .sparseOpEnd _ => true
  | .resultLands _ => true
  | .trapEntry _ _ _ _ _ _ _ => true
  | .poolTakeIdle _ _ => true
  | .groupQuiescent _ _ _ => true
  | .launchLoad _ _ => true
  | .launchStart _ _ => true
  | .launchEnd _ _ => true
  | .doorbell _ _ _ => true
  | .eventCounterPoll _ _ => true
  | .queueTake _ => true
  | .sliceExpiry _ => true
  | .preemptionComplete _ => true
  | .boundaryWaitExpiry _ => true
  | .haltComplete _ => true
  | .saveComplete _ => true
  | .contextLoadComplete _ => true
  | .create _ _ _ _ => true
  | .terminate _ _ => true
  | .map _ _ _ _ _ _ _ _ _ _ => true
  | .unmap _ _ _ => true
  | .queue _ _ _ _ _ _ _ => true
  | .qctlDisable _ _ _ => true
  | .qctlEnable _ _ _ => true
  | .qctlReset _ _ _ => true
  | .preempt _ _ => true
  | .resume _ _ => true
  | .signal _ _ _ => true
  | .halt _ _ => true
  | .trackStart _ _ => true
  | .trackStop _ _ => true
  | .harvest _ _ _ _ => true
  | .save _ _ _ _ => true
  | .restore _ _ _ => true
  | .dump _ _ _ _ => true
  | .setparmWeight _ _ _ => true
  | .setparmSlice _ _ _ => true
  | .setparmBoundaryWait _ _ _ => true
  | .setparmLaneRequest _ _ _ => true
  | .setparmPageQuota _ _ _ => true
  | .dbggo _ _ _ => true
  | .evict _ _ _ => true
  | .partset _ _ _ => true
  | .partdrop _ _ => true
  | .partfunc _ _ _ => true
  | .registerWrite _ _ _ => true
  | .windowEnable _ _ => true
  | .windowDisable _ _ => true
  | .contributionAccept _ _ _ => true
  | .epochDeliver _ _ => true
  | .collectiveWatchdogExpiry _ _ => true
  | .portEnable _ => true
  | .trainingComplete _ _ _ _ => true
  | .trainingFailure _ => true
  | .flitCrcFail _ _ => true
  | .retrainingComplete _ _ => true
  | .retrainingTimeout _ => true
  | .portDisable _ => true
  | .functionLevelReset _ => true
  | .flrComplete _ => true
  | .correctedError _ => true
  | .uncorrectableError _ _ => true
  | .unitRetire _ _ => true
  | .zeroingComplete _ => true
  | .modeChange _ => true
  | .cxlMemAccess _ _ _ => true
  | .boot _ _ _ _ _ => true
  | .attestationRequest _ => true
  | .powerSample _ => true
  | .overTemperature _ => true
  | .thermalTrip _ => true
  | .mbcmdUnknownCode _ _ => true

end Sys2Proof
end

