-- ==== Sys2Proof/Decode.lean ====
section
/-!
DEFINITION. Decoding and encoding of instruction words (04 R84 to R98). The decoder is total: a word that is no
instruction is rejected with the reason of R97 that the trap reports, the lowest that applies.
-/

namespace Sys2Proof

/-- Why a word is no instruction, by itself (04 R97): the reasons a lone word can have. -/
inductive DecodeError where
  | reservedMajor
  | unassigned
  | reservedField
  | badRegister
  | badHint
  | zeroBody
  | truncated
  deriving DecidableEq, Repr

/-- The code of a reason in TINFO2 (04 R97). Fewer than four bytes are no word: the machine never fetches such a word. -/
def DecodeError.code : DecodeError → Nat
  | .reservedMajor => 1
  | .unassigned => 2
  | .reservedField => 3
  | .badRegister => 4
  | .badHint => 8
  | .zeroBody => 9
  | .truncated => 1

/-- The major opcode, bits 31:26 (04 R86). -/
def fmajor (w : Word) : BitVec 6 := w.extractLsb' 26 6
/-- Bits 25:21, d or vd (04 R86). -/
def fd (w : Word) : BitVec 5 := w.extractLsb' 21 5
/-- Bits 20:16, a, va or base (04 R86). -/
def fa (w : Word) : BitVec 5 := w.extractLsb' 16 5
/-- Bits 15:11, b or vb (04 R86). -/
def fb (w : Word) : BitVec 5 := w.extractLsb' 11 5
/-- Bits 10:6, c (04 R86). -/
def fc (w : Word) : BitVec 5 := w.extractLsb' 6 5
/-- Bits 10:8, the mask of the V form (04 R86). -/
def fmask (w : Word) : BitVec 3 := w.extractLsb' 8 3
/-- Bits 15:6, sys (04 R91). -/
def fsys (w : Word) : BitVec 10 := w.extractLsb' 6 10

/-- An instruction whose values are assigned, whose reserved fields are 0 and whose register fields are legal; else the
lowest reason of R97. -/
def guarded (assigned reservedZero registersOk : Bool) (i : Instr) : Except DecodeError Instr :=
  if !assigned then .error .unassigned
  else if !reservedZero then .error .reservedField
  else if !registersOk then .error .badRegister
  else .ok i

/-- Major 0x01 (04 R88, R89). -/
def decodeAlu (w : Word) : Except DecodeError Instr :=
  match (w.extractLsb' 0 11).toNat with
  | 0 => .ok (.add (fd w) (fa w) (fb w))
  | 1 => .ok (.sub (fd w) (fa w) (fb w))
  | 2 => .ok (.and (fd w) (fa w) (fb w))
  | 3 => .ok (.or (fd w) (fa w) (fb w))
  | 4 => .ok (.xor (fd w) (fa w) (fb w))
  | 5 => .ok (.andn (fd w) (fa w) (fb w))
  | 6 => .ok (.shl (fd w) (fa w) (fb w))
  | 7 => .ok (.shr (fd w) (fa w) (fb w))
  | 8 => .ok (.sra (fd w) (fa w) (fb w))
  | 9 => .ok (.slt (fd w) (fa w) (fb w))
  | 10 => .ok (.sltu (fd w) (fa w) (fb w))
  | 11 => .ok (.seq (fd w) (fa w) (fb w))
  | 12 => .ok (.sne (fd w) (fa w) (fb w))
  | 13 => .ok (.min (fd w) (fa w) (fb w))
  | 14 => .ok (.max (fd w) (fa w) (fb w))
  | 15 => .ok (.minu (fd w) (fa w) (fb w))
  | 16 => .ok (.maxu (fd w) (fa w) (fb w))
  | 17 => .ok (.sel (fd w) (fa w) (fb w))
  | 18 => guarded true (w.extractLsb' 11 5 == 0#5) true (.clz (fd w) (fa w))
  | 19 => guarded true (w.extractLsb' 11 5 == 0#5) true (.popc (fd w) (fa w))
  | 20 => guarded true (w.extractLsb' 11 5 == 0#5) true (.brev (fd w) (fa w))
  | _ => .error .unassigned

/-- Major 0x08 (04 R88, R89). -/
def decodeShifti (w : Word) : Except DecodeError Instr :=
  match (w.extractLsb' 14 2).toNat with
  | 0 => guarded true (w.extractLsb' 6 8 == 0#8) true (.shli (fd w) (fa w) (w.extractLsb' 0 6))
  | 1 => guarded true (w.extractLsb' 6 8 == 0#8) true (.shri (fd w) (fa w) (w.extractLsb' 0 6))
  | 2 => guarded true (w.extractLsb' 6 8 == 0#8) true (.srai (fd w) (fa w) (w.extractLsb' 0 6))
  | _ => .error .unassigned

/-- Major 0x0A (04 R88, R89). -/
def decodeMuldiv (w : Word) : Except DecodeError Instr :=
  match (w.extractLsb' 0 11).toNat with
  | 0 => .ok (.mul (fd w) (fa w) (fb w))
  | 1 => .ok (.mulh (fd w) (fa w) (fb w))
  | 2 => .ok (.mulhu (fd w) (fa w) (fb w))
  | 3 => .ok (.div (fd w) (fa w) (fb w))
  | 4 => .ok (.divu (fd w) (fa w) (fb w))
  | 5 => .ok (.rem (fd w) (fa w) (fb w))
  | 6 => .ok (.remu (fd w) (fa w) (fb w))
  | _ => .error .unassigned

/-- Major 0x17 (04 R88, R89). -/
def decodeLd (w : Word) : Except DecodeError Instr :=
  match (w.extractLsb' 13 3).toNat with
  | 0 => .ok (.ldB (fd w) (fa w) (w.extractLsb' 0 13))
  | 1 => .ok (.ldBu (fd w) (fa w) (w.extractLsb' 0 13))
  | 2 => .ok (.ldH (fd w) (fa w) (w.extractLsb' 0 13))
  | 3 => .ok (.ldHu (fd w) (fa w) (w.extractLsb' 0 13))
  | 4 => .ok (.ldW (fd w) (fa w) (w.extractLsb' 0 13))
  | _ => .error .unassigned

/-- Major 0x18 (04 R88, R89). -/
def decodeSt (w : Word) : Except DecodeError Instr :=
  match (w.extractLsb' 13 3).toNat with
  | 0 => .ok (.stB (fd w) (fa w) (w.extractLsb' 0 13))
  | 2 => .ok (.stH (fd w) (fa w) (w.extractLsb' 0 13))
  | 4 => .ok (.stW (fd w) (fa w) (w.extractLsb' 0 13))
  | _ => .error .unassigned

/-- Major 0x19 (04 R88, R89). -/
def decodePath (w : Word) : Except DecodeError Instr :=
  match (w.extractLsb' 0 11).toNat with
  | 0 => guarded true true (decide (fd w < 8#5)) (.pset ((fd w).extractLsb' 0 3) (fa w) (fb w))
  | 1 => guarded true true (decide (fd w < 8#5) && decide (fa w < 8#5)) (.pchild ((fd w).extractLsb' 0 3) ((fa w).extractLsb' 0 3) (fb w))
  | 2 => guarded true (w.extractLsb' 11 5 == 0#5) (decide (fd w < 8#5) && decide (fa w < 8#5)) (.pparent ((fd w).extractLsb' 0 3) ((fa w).extractLsb' 0 3))
  | 3 => guarded true (w.extractLsb' 11 5 == 0#5) (decide (fd w < 8#5) && decide (fa w < 8#5)) (.pnext ((fd w).extractLsb' 0 3) ((fa w).extractLsb' 0 3))
  | 4 => guarded true true (decide (fd w < 8#5)) (.pmort ((fd w).extractLsb' 0 3) (fa w) (fb w))
  | 5 => guarded true (w.extractLsb' 11 5 == 0#5) (decide (fa w < 8#5)) (.prow (fd w) ((fa w).extractLsb' 0 3))
  | 6 => guarded true (w.extractLsb' 11 5 == 0#5) (decide (fa w < 8#5)) (.pcol (fd w) ((fa w).extractLsb' 0 3))
  | 7 => guarded true (w.extractLsb' 11 5 == 0#5) (decide (fa w < 8#5)) (.pdepth (fd w) ((fa w).extractLsb' 0 3))
  | 8 => guarded true true (decide (fd w < 8#5) && decide (fa w < 8#5)) (.ptrunc ((fd w).extractLsb' 0 3) ((fa w).extractLsb' 0 3) (fb w))
  | 9 => guarded true (w.extractLsb' 11 5 == 0#5) (decide (fa w < 8#5)) (.pgetlo (fd w) ((fa w).extractLsb' 0 3))
  | 10 => guarded true (w.extractLsb' 11 5 == 0#5) (decide (fa w < 8#5)) (.pgethi (fd w) ((fa w).extractLsb' 0 3))
  | 11 => guarded true (w.extractLsb' 11 5 == 0#5) (decide (fd w < 8#5)) (.psetlo ((fd w).extractLsb' 0 3) (fa w))
  | 12 => guarded true (w.extractLsb' 11 5 == 0#5) (decide (fd w < 8#5)) (.psethi ((fd w).extractLsb' 0 3) (fa w))
  | _ => .error .unassigned

/-- Major 0x1A (04 R88, R89). -/
def decodeFp32 (w : Word) : Except DecodeError Instr :=
  match (w.extractLsb' 0 8).toNat with
  | 0 => .ok (.vadd (fd w) (fa w) (fb w) (fmask w))
  | 1 => .ok (.vsub (fd w) (fa w) (fb w) (fmask w))
  | 2 => .ok (.vmul (fd w) (fa w) (fb w) (fmask w))
  | 3 => .ok (.vfma (fd w) (fa w) (fb w) (fmask w))
  | 4 => .ok (.vfms (fd w) (fa w) (fb w) (fmask w))
  | 5 => .ok (.vfnma (fd w) (fa w) (fb w) (fmask w))
  | 6 => .ok (.vmin (fd w) (fa w) (fb w) (fmask w))
  | 7 => .ok (.vmax (fd w) (fa w) (fb w) (fmask w))
  | _ => .error .unassigned

/-- Major 0x1B (04 R88, R89). -/
def decodeBf16 (w : Word) : Except DecodeError Instr :=
  match (w.extractLsb' 0 8).toNat with
  | 0 => .ok (.vaddBf (fd w) (fa w) (fb w) (fmask w))
  | 1 => .ok (.vsubBf (fd w) (fa w) (fb w) (fmask w))
  | 2 => .ok (.vmulBf (fd w) (fa w) (fb w) (fmask w))
  | 3 => .ok (.vfmaBf (fd w) (fa w) (fb w) (fmask w))
  | 4 => .ok (.vfmsBf (fd w) (fa w) (fb w) (fmask w))
  | 5 => .ok (.vfnmaBf (fd w) (fa w) (fb w) (fmask w))
  | 6 => .ok (.vminBf (fd w) (fa w) (fb w) (fmask w))
  | 7 => .ok (.vmaxBf (fd w) (fa w) (fb w) (fmask w))
  | _ => .error .unassigned

/-- Major 0x1C (04 R88, R89). -/
def decodeIntVec (w : Word) : Except DecodeError Instr :=
  match (w.extractLsb' 0 6).toNat with
  | 0 => guarded (decide (w.extractLsb' 6 2 < 3#2)) true true (.viadd (fd w) (fa w) (fb w) (fmask w) (w.extractLsb' 6 2))
  | 1 => guarded (decide (w.extractLsb' 6 2 < 3#2)) true true (.visub (fd w) (fa w) (fb w) (fmask w) (w.extractLsb' 6 2))
  | 2 => guarded (decide (w.extractLsb' 6 2 < 3#2)) true true (.vimul (fd w) (fa w) (fb w) (fmask w) (w.extractLsb' 6 2))
  | 3 => guarded (decide (w.extractLsb' 6 2 < 3#2)) true true (.vimulh (fd w) (fa w) (fb w) (fmask w) (w.extractLsb' 6 2))
  | 4 => guarded (decide (w.extractLsb' 6 2 < 3#2)) true true (.vand (fd w) (fa w) (fb w) (fmask w) (w.extractLsb' 6 2))
  | 5 => guarded (decide (w.extractLsb' 6 2 < 3#2)) true true (.vor (fd w) (fa w) (fb w) (fmask w) (w.extractLsb' 6 2))
  | 6 => guarded (decide (w.extractLsb' 6 2 < 3#2)) true true (.vxor (fd w) (fa w) (fb w) (fmask w) (w.extractLsb' 6 2))
  | 7 => guarded (decide (w.extractLsb' 6 2 < 3#2)) true true (.vshl (fd w) (fa w) (fb w) (fmask w) (w.extractLsb' 6 2))
  | 8 => guarded (decide (w.extractLsb' 6 2 < 3#2)) true true (.vshr (fd w) (fa w) (fb w) (fmask w) (w.extractLsb' 6 2))
  | 9 => guarded (decide (w.extractLsb' 6 2 < 3#2)) true true (.vsra (fd w) (fa w) (fb w) (fmask w) (w.extractLsb' 6 2))
  | 10 => guarded (decide (w.extractLsb' 6 2 < 3#2)) true true (.vimin (fd w) (fa w) (fb w) (fmask w) (w.extractLsb' 6 2))
  | 11 => guarded (decide (w.extractLsb' 6 2 < 3#2)) true true (.vimax (fd w) (fa w) (fb w) (fmask w) (w.extractLsb' 6 2))
  | _ => .error .unassigned

/-- Major 0x1D (04 R88, R89). -/
def decodeMove (w : Word) : Except DecodeError Instr :=
  match (w.extractLsb' 0 8).toNat with
  | 0 => guarded true true (decide (fd w < 8#5)) (.vcmpeq ((fd w).extractLsb' 0 3) (fa w) (fb w) (fmask w))
  | 1 => guarded true true (decide (fd w < 8#5)) (.vcmpne ((fd w).extractLsb' 0 3) (fa w) (fb w) (fmask w))
  | 2 => guarded true true (decide (fd w < 8#5)) (.vcmplt ((fd w).extractLsb' 0 3) (fa w) (fb w) (fmask w))
  | 3 => guarded true true (decide (fd w < 8#5)) (.vcmple ((fd w).extractLsb' 0 3) (fa w) (fb w) (fmask w))
  | 4 => guarded true true (decide (fd w < 8#5)) (.vicmpeq ((fd w).extractLsb' 0 3) (fa w) (fb w) (fmask w))
  | 5 => guarded true true (decide (fd w < 8#5)) (.vicmplt ((fd w).extractLsb' 0 3) (fa w) (fb w) (fmask w))
  | 6 => guarded true true (decide (fd w < 8#5)) (.vicmpltu ((fd w).extractLsb' 0 3) (fa w) (fb w) (fmask w))
  | 7 => .ok (.vsel (fd w) (fa w) (fb w) (fmask w))
  | 8 => .ok (.vperm (fd w) (fa w) (fb w) (fmask w))
  | 9 => guarded true (w.extractLsb' 11 5 == 0#5) true (.vbcast (fd w) (fa w) (fmask w))
  | 10 => guarded true (w.extractLsb' 8 3 == 0#3) (decide (fb w < 8#5)) (.vmovs (fd w) (fa w) ((fb w).extractLsb' 0 3))
  | 11 => guarded true (w.extractLsb' 8 3 == 0#3) (decide (fb w < 8#5)) (.vins (fd w) (fa w) ((fb w).extractLsb' 0 3))
  | 12 => guarded true (w.extractLsb' 8 3 == 0#3) (decide (fd w < 8#5) && decide (fa w < 8#5) && decide (fb w < 8#5)) (.vmand ((fd w).extractLsb' 0 3) ((fa w).extractLsb' 0 3) ((fb w).extractLsb' 0 3))
  | 13 => guarded true (w.extractLsb' 8 3 == 0#3) (decide (fd w < 8#5) && decide (fa w < 8#5) && decide (fb w < 8#5)) (.vmor ((fd w).extractLsb' 0 3) ((fa w).extractLsb' 0 3) ((fb w).extractLsb' 0 3))
  | 14 => guarded true (w.extractLsb' 8 8 == 0#8) (decide (fd w < 8#5) && decide (fa w < 8#5)) (.vmnot ((fd w).extractLsb' 0 3) ((fa w).extractLsb' 0 3))
  | 15 => guarded true (w.extractLsb' 11 5 == 0#5) true (.vredadd (fd w) (fa w) (fmask w))
  | 16 => guarded true (w.extractLsb' 11 5 == 0#5) true (.vredmax (fd w) (fa w) (fmask w))
  | 17 => guarded true (w.extractLsb' 11 5 == 0#5) true (.vredmin (fd w) (fa w) (fmask w))
  | 18 => guarded true (w.extractLsb' 11 5 == 0#5) true (.vrediadd (fd w) (fa w) (fmask w))
  | 19 => guarded true (w.extractLsb' 11 5 == 0#5) true (.vmov (fd w) (fa w) (fmask w))
  | _ => .error .unassigned

/-- Major 0x1E (04 R88, R89). -/
def decodeVMem (w : Word) : Except DecodeError Instr :=
  match (w.extractLsb' 13 3).toNat with
  | 0 => .ok (.vld (fd w) (fa w) (w.extractLsb' 0 13))
  | 1 => .ok (.vst (fd w) (fa w) (w.extractLsb' 0 13))
  | 2 => .ok (.vlds (fd w) (fa w) (w.extractLsb' 0 13))
  | 3 => .ok (.vsts (fd w) (fa w) (w.extractLsb' 0 13))
  | 4 => guarded true (w.extractLsb' 3 5 == 0#5) true (.vgth (fd w) (fa w) (w.extractLsb' 8 5) (w.extractLsb' 0 3))
  | 5 => guarded true (w.extractLsb' 3 5 == 0#5) true (.vsct (fd w) (fa w) (w.extractLsb' 8 5) (w.extractLsb' 0 3))
  | _ => .error .unassigned

/-- Major 0x1F (04 R88, R89). -/
def decodeConv (w : Word) : Except DecodeError Instr :=
  match (w.extractLsb' 0 8).toNat with
  | 0 => .ok (.vcvtfb (fd w) (fa w) (fb w) (fmask w))
  | 1 => guarded true true (decide (fb w < 2#5)) (.vcvtbf (fd w) (fa w) ((fb w).extractLsb' 0 1) (fmask w))
  | 2 => .ok (.vcvtfh (fd w) (fa w) (fb w) (fmask w))
  | 3 => guarded true true (decide (fb w < 2#5)) (.vcvthf (fd w) (fa w) ((fb w).extractLsb' 0 1) (fmask w))
  | 4 => guarded true (w.extractLsb' 11 5 == 0#5) true (.vcvtfi (fd w) (fa w) (fmask w))
  | 5 => guarded true (w.extractLsb' 11 5 == 0#5) true (.vcvtif (fd w) (fa w) (fmask w))
  | 6 => guarded true (w.extractLsb' 8 8 == 0#8) (decide (fa w ≤ 28#5)) (.vfxenc (fd w) (fa w))
  | 7 => guarded true (w.extractLsb' 8 3 == 0#3) (decide (fb w < 4#5)) (.vfxdec (fd w) (fa w) ((fb w).extractLsb' 0 2))
  | _ => .error .unassigned

/-- Major 0x20 (04 R88, R89). -/
def decodeSpecial (w : Word) : Except DecodeError Instr :=
  match (w.extractLsb' 0 8).toNat with
  | 0 => guarded true (w.extractLsb' 11 5 == 0#5) true (.vexp2 (fd w) (fa w) (fmask w))
  | 1 => guarded true (w.extractLsb' 11 5 == 0#5) true (.vlog2 (fd w) (fa w) (fmask w))
  | 2 => guarded true (w.extractLsb' 11 5 == 0#5) true (.vrcp (fd w) (fa w) (fmask w))
  | 3 => guarded true (w.extractLsb' 11 5 == 0#5) true (.vrsq (fd w) (fa w) (fmask w))
  | 4 => guarded true (w.extractLsb' 11 5 == 0#5) true (.vtanh (fd w) (fa w) (fmask w))
  | _ => .error .unassigned

/-- Major 0x21 (04 R88, R89). -/
def decodeGang (w : Word) : Except DecodeError Instr :=
  match (w.extractLsb' 0 6).toNat with
  | 0 => guarded ((1#5 ≤ fc w && fc w ≤ 3#5)) (w.extractLsb' 11 15 == 0#15) true (.gang (fc w))
  | 1 => guarded true (w.extractLsb' 6 20 == 0#20) true (.ungang)
  | 2 => guarded true (w.extractLsb' 6 15 == 0#15) true (.gangid (fd w))
  | _ => .error .unassigned

/-- Major 0x22 (04 R88, R89). -/
def decodeMatrix (w : Word) : Except DecodeError Instr :=
  match (w.extractLsb' 0 6).toNat with
  | 0 => guarded true (w.extractLsb' 6 15 == 0#15) (decide (fd w < 2#5)) (.mzero ((fd w).extractLsb' 0 1))
  | 1 => guarded ((rowsOk (fd w) && fmtOk5 (fc w))) (w.extractLsb' 11 5 == 0#5) true (.mbinda (fd w) (fa w) (fc w))
  | 2 => guarded (fmtOk5 (fc w)) (w.extractLsb' 11 5 == 0#5 && w.extractLsb' 21 5 == 0#5) true (.mldb (fa w) (fc w))
  | 3 => guarded true (w.extractLsb' 6 15 == 0#15) (decide (fd w < 2#5)) (.gissue ((fd w).extractLsb' 0 1))
  | 4 => guarded (decide (fc w < 8#5)) (w.extractLsb' 11 5 == 0#5) (decide (fa w < 2#5)) (.mrd (fd w) ((fa w).extractLsb' 0 1) ((fc w).extractLsb' 0 3))
  | 5 => guarded true (w.extractLsb' 6 15 == 0#15) true (.mwm (fd w))
  | 6 => guarded true (w.extractLsb' 6 15 == 0#15) true (.mcap (fd w))
  | 7 => guarded true (w.extractLsb' 6 15 == 0#15) (decide (fd w < 2#5)) (.mwait ((fd w).extractLsb' 0 1))
  | _ => .error .unassigned

/-- Major 0x24 (04 R88, R89). -/
def decodeCopy (w : Word) : Except DecodeError Instr :=
  match (w.extractLsb' 0 6).toNat with
  | 0 => guarded true (w.extractLsb' 9 2 == 0#2) (decide (fa w < 8#5)) (.cpy (fd w) ((fa w).extractLsb' 0 3) (fb w) (w.extractLsb' 8 1) (w.extractLsb' 7 1) (w.extractLsb' 6 1))
  | 1 => guarded true (w.extractLsb' 6 5 == 0#5) true (.cpyr (fd w) (fa w) (fb w))
  | 2 => guarded (decide (fc w < 5#5)) (w.extractLsb' 11 5 == 0#5) true (.cpyq (fd w) (fa w) (fc w))
  | 3 => guarded true (w.extractLsb' 6 10 == 0#10 && w.extractLsb' 21 5 == 0#5) true (.cpyx (fa w))
  | 4 => guarded true (w.extractLsb' 6 10 == 0#10 && w.extractLsb' 21 5 == 0#5) true (.cpat (fa w))
  | 5 => guarded true (w.extractLsb' 6 1 == 0#1 && w.extractLsb' 8 3 == 0#3) (decide (fa w < 8#5)) (.deal (fd w) ((fa w).extractLsb' 0 3) (fb w) (w.extractLsb' 7 1))
  | _ => .error .unassigned

/-- Major 0x25 (04 R88, R89). -/
def decodeGather (w : Word) : Except DecodeError Instr :=
  match (w.extractLsb' 0 6).toNat with
  | 0 => guarded true true (decide (fa w < 8#5)) (.gath (fd w) ((fa w).extractLsb' 0 3) (fb w) (fc w))
  | 1 => guarded true true (decide (fa w < 8#5)) (.scat (fd w) ((fa w).extractLsb' 0 3) (fb w) (fc w))
  | 2 => guarded true (w.extractLsb' 6 10 == 0#10) true (.gwait (fd w) (fa w))
  | _ => .error .unassigned

/-- Major 0x26 (04 R88, R89). -/
def decodeAtomic (w : Word) : Except DecodeError Instr :=
  match (w.extractLsb' 0 4).toNat with
  | 0 => guarded (decide (w.extractLsb' 8 3 < 5#3)) (w.extractLsb' 6 2 == 0#2) (decide (fa w < 8#5)) (.aadd (fd w) ((fa w).extractLsb' 0 3) (fb w) (fmask w) (w.extractLsb' 4 2))
  | 1 => guarded (decide (w.extractLsb' 8 3 < 5#3)) (w.extractLsb' 6 2 == 0#2) (decide (fa w < 8#5)) (.aand (fd w) ((fa w).extractLsb' 0 3) (fb w) (fmask w) (w.extractLsb' 4 2))
  | 2 => guarded (decide (w.extractLsb' 8 3 < 5#3)) (w.extractLsb' 6 2 == 0#2) (decide (fa w < 8#5)) (.aor (fd w) ((fa w).extractLsb' 0 3) (fb w) (fmask w) (w.extractLsb' 4 2))
  | 3 => guarded (decide (w.extractLsb' 8 3 < 5#3)) (w.extractLsb' 6 2 == 0#2) (decide (fa w < 8#5)) (.axor (fd w) ((fa w).extractLsb' 0 3) (fb w) (fmask w) (w.extractLsb' 4 2))
  | 4 => guarded (decide (w.extractLsb' 8 3 < 5#3)) (w.extractLsb' 6 2 == 0#2) (decide (fa w < 8#5)) (.amin (fd w) ((fa w).extractLsb' 0 3) (fb w) (fmask w) (w.extractLsb' 4 2))
  | 5 => guarded (decide (w.extractLsb' 8 3 < 5#3)) (w.extractLsb' 6 2 == 0#2) (decide (fa w < 8#5)) (.amax (fd w) ((fa w).extractLsb' 0 3) (fb w) (fmask w) (w.extractLsb' 4 2))
  | 6 => guarded (decide (w.extractLsb' 8 3 < 5#3)) (w.extractLsb' 6 2 == 0#2) (decide (fa w < 8#5)) (.aminu (fd w) ((fa w).extractLsb' 0 3) (fb w) (fmask w) (w.extractLsb' 4 2))
  | 7 => guarded (decide (w.extractLsb' 8 3 < 5#3)) (w.extractLsb' 6 2 == 0#2) (decide (fa w < 8#5)) (.amaxu (fd w) ((fa w).extractLsb' 0 3) (fb w) (fmask w) (w.extractLsb' 4 2))
  | 8 => guarded (decide (w.extractLsb' 8 3 < 5#3)) (w.extractLsb' 6 2 == 0#2) (decide (fa w < 8#5)) (.axchg (fd w) ((fa w).extractLsb' 0 3) (fb w) (fmask w) (w.extractLsb' 4 2))
  | 9 => guarded (decide (w.extractLsb' 8 3 < 5#3)) (w.extractLsb' 6 2 == 0#2) (decide (fa w < 8#5)) (.acas (fd w) ((fa w).extractLsb' 0 3) (fb w) (fmask w) (w.extractLsb' 4 2))
  | 10 => guarded (decide (w.extractLsb' 8 3 < 5#3)) (w.extractLsb' 6 2 == 0#2) (decide (fa w < 8#5)) (.afadd (fd w) ((fa w).extractLsb' 0 3) (fb w) (fmask w) (w.extractLsb' 4 2))
  | _ => .error .unassigned

/-- Major 0x27 (04 R88, R89). -/
def decodeVAtomic (w : Word) : Except DecodeError Instr :=
  match (w.extractLsb' 0 4).toNat with
  | 0 => guarded (decide (w.extractLsb' 8 3 < 5#3)) (w.extractLsb' 6 2 == 0#2) (decide (fa w < 8#5)) (.vaadd (fd w) ((fa w).extractLsb' 0 3) (fb w) (fmask w) (w.extractLsb' 4 2))
  | 1 => guarded (decide (w.extractLsb' 8 3 < 5#3)) (w.extractLsb' 6 2 == 0#2) (decide (fa w < 8#5)) (.vaand (fd w) ((fa w).extractLsb' 0 3) (fb w) (fmask w) (w.extractLsb' 4 2))
  | 2 => guarded (decide (w.extractLsb' 8 3 < 5#3)) (w.extractLsb' 6 2 == 0#2) (decide (fa w < 8#5)) (.vaor (fd w) ((fa w).extractLsb' 0 3) (fb w) (fmask w) (w.extractLsb' 4 2))
  | 3 => guarded (decide (w.extractLsb' 8 3 < 5#3)) (w.extractLsb' 6 2 == 0#2) (decide (fa w < 8#5)) (.vaxor (fd w) ((fa w).extractLsb' 0 3) (fb w) (fmask w) (w.extractLsb' 4 2))
  | 4 => guarded (decide (w.extractLsb' 8 3 < 5#3)) (w.extractLsb' 6 2 == 0#2) (decide (fa w < 8#5)) (.vamin (fd w) ((fa w).extractLsb' 0 3) (fb w) (fmask w) (w.extractLsb' 4 2))
  | 5 => guarded (decide (w.extractLsb' 8 3 < 5#3)) (w.extractLsb' 6 2 == 0#2) (decide (fa w < 8#5)) (.vamax (fd w) ((fa w).extractLsb' 0 3) (fb w) (fmask w) (w.extractLsb' 4 2))
  | 6 => guarded (decide (w.extractLsb' 8 3 < 5#3)) (w.extractLsb' 6 2 == 0#2) (decide (fa w < 8#5)) (.vaminu (fd w) ((fa w).extractLsb' 0 3) (fb w) (fmask w) (w.extractLsb' 4 2))
  | 7 => guarded (decide (w.extractLsb' 8 3 < 5#3)) (w.extractLsb' 6 2 == 0#2) (decide (fa w < 8#5)) (.vamaxu (fd w) ((fa w).extractLsb' 0 3) (fb w) (fmask w) (w.extractLsb' 4 2))
  | 9 => guarded (decide (w.extractLsb' 8 3 < 5#3)) (w.extractLsb' 6 2 == 0#2) (decide (fa w < 8#5)) (.vafadd (fd w) ((fa w).extractLsb' 0 3) (fb w) (fmask w) (w.extractLsb' 4 2))
  | 10 => guarded true (w.extractLsb' 4 22 == 0#22) true (.vawait)
  | _ => .error .unassigned

/-- Major 0x28 (04 R88, R89). -/
def decodeBarrier (w : Word) : Except DecodeError Instr :=
  match (w.extractLsb' 0 6).toNat with
  | 0 => guarded true (w.extractLsb' 10 11 == 0#11) true (.barr (fd w) (w.extractLsb' 6 4))
  | 1 => guarded true (w.extractLsb' 10 6 == 0#6 && w.extractLsb' 21 5 == 0#5) true (.bwait (fa w) (w.extractLsb' 6 4))
  | 2 => guarded true (w.extractLsb' 10 6 == 0#6) true (.btest (fd w) (fa w) (w.extractLsb' 6 4))
  | 3 => guarded true (w.extractLsb' 10 11 == 0#11) true (.bph (fd w) (w.extractLsb' 6 4))
  | 4 => guarded true (w.extractLsb' 6 10 == 0#10) true (.bmsk (fd w) (fa w))
  | 5 => guarded true (w.extractLsb' 10 6 == 0#6) true (.vote (fd w) (fa w) (w.extractLsb' 6 4))
  | _ => .error .unassigned

/-- Major 0x2A (04 R88, R89). -/
def decodeExchange (w : Word) : Except DecodeError Instr :=
  match (w.extractLsb' 0 6).toNat with
  | 0 => guarded true (w.extractLsb' 6 15 == 0#15) true (.xsync (fd w))
  | 1 => guarded true (w.extractLsb' 6 5 == 0#5 && w.extractLsb' 21 5 == 0#5) true (.xsend (fa w) (fb w))
  | 2 => guarded true (w.extractLsb' 6 20 == 0#20) true (.xdone)
  | 3 => guarded (decide (fc w < 4#5)) (w.extractLsb' 11 5 == 0#5) true (.xslot (fd w) (fa w) ((fc w).extractLsb' 0 2))
  | _ => .error .unassigned

/-- Major 0x2B (04 R88, R89). -/
def decodeQueue (w : Word) : Except DecodeError Instr :=
  match (w.extractLsb' 0 6).toNat with
  | 0 => guarded true (w.extractLsb' 7 4 == 0#4) true (.qapp (fd w) (fa w) (fb w) (w.extractLsb' 6 1))
  | 1 => guarded true (w.extractLsb' 6 15 == 0#15) true (.qget (fd w))
  | 2 =>
    if w.extractLsb' 6 1 == 1#1 then guarded true (w.extractLsb' 7 4 == 0#4) true (.qfreeOpen (fd w) (fa w) (fb w))
    else guarded true (w.extractLsb' 7 9 == 0#9) true (.qfree (fd w) (fa w))
  | 3 => guarded true (w.extractLsb' 6 15 == 0#15) true (.qcnt (fd w))
  | _ => .error .unassigned

/-- Major 0x29 (04 R88, R89). -/
def decodeWaggle (w : Word) : Except DecodeError Instr :=
  match (w.extractLsb' 0 6).toNat with
  | 0 =>
    if w.extractLsb' 21 1 == 1#1 then guarded true (w.extractLsb' 11 10 == 0#10 && w.extractLsb' 22 4 == 0#4) true (.wgentL (fc w))
    else guarded true (w.extractLsb' 11 5 == 0#5 && w.extractLsb' 22 4 == 0#4) true (.wgent (fa w) (fc w))
  | 1 => guarded (decide (fb w < 4#5)) (w.extractLsb' 16 5 == 0#5) true (.wgres (fd w) ((fb w).extractLsb' 0 2) (fc w))
  | 2 => guarded true (w.extractLsb' 11 10 == 0#10) true (.wgwait (fd w) (fc w))
  | 3 => guarded true (w.extractLsb' 11 15 == 0#15) true (.wgcan (fc w))
  | _ => .error .unassigned

/-- Major 0x23 (04 R88, R89). -/
def decodeComb (w : Word) : Except DecodeError Instr :=
  match (w.extractLsb' 0 6).toNat with
  | 0 => guarded (decide (fc w < 3#5)) (w.extractLsb' 21 5 == 0#5) (decide (fb w < 8#5)) (.spld (fa w) ((fb w).extractLsb' 0 3) (fc w))
  | 1 => guarded (decide (fc w < 3#5)) (w.extractLsb' 11 5 == 0#5) (decide (fd w < 2#5)) (.spmm ((fd w).extractLsb' 0 1) (fa w) (fc w))
  | 2 => guarded true (w.extractLsb' 6 15 == 0#15) true (.cbq (fd w))
  | 3 =>
    if fc w == 1#5 then guarded true (w.extractLsb' 11 15 == 0#15) true (.cbinvAll)
    else if fc w == 0#5 then guarded true (w.extractLsb' 16 10 == 0#10) (decide (fb w < 8#5)) (.cbinv ((fb w).extractLsb' 0 3))
    else .error .unassigned
  | 4 => guarded true (w.extractLsb' 6 15 == 0#15) true (.cbwait (fd w))
  | _ => .error .unassigned

/-- Major 0x2C (04 R88, R89). -/
def decodeForage (w : Word) : Except DecodeError Instr :=
  match (w.extractLsb' 0 6).toNat with
  | 0 => guarded true (w.extractLsb' 6 10 == 0#10) true (.fpost (fd w) (fa w))
  | 1 => guarded true (w.extractLsb' 6 15 == 0#15) true (.forage (fd w))
  | 2 => guarded true (w.extractLsb' 6 10 == 0#10 && w.extractLsb' 21 5 == 0#5) true (.yield (fa w))
  | 3 => guarded true (w.extractLsb' 6 20 == 0#20) true (.cend)
  | 4 => guarded true (w.extractLsb' 6 15 == 0#15) true (.fquiet (fd w))
  | 5 => guarded true (w.extractLsb' 6 10 == 0#10) true (.launch (fd w) (fa w))
  | _ => .error .unassigned

/-- Major 0x30 (04 R88, R89). -/
def decodeSystem (w : Word) : Except DecodeError Instr :=
  match (w.extractLsb' 0 6).toNat with
  | 0 => guarded true (w.extractLsb' 16 10 == 0#10) true (.trap (fsys w))
  | 1 => guarded true (w.extractLsb' 6 20 == 0#20) true (.rft)
  | 2 => guarded (sysAssigned (fsys w)) (w.extractLsb' 16 5 == 0#5) true (.gsr (fd w) (fsys w))
  | 3 => guarded (sysAssigned (fsys w)) (w.extractLsb' 21 5 == 0#5) true (.ssr (fa w) (fsys w))
  | 4 => guarded (decide (w.extractLsb' 6 3 < 5#3)) (w.extractLsb' 9 17 == 0#17) true (.fence (w.extractLsb' 6 3))
  | 5 => guarded true (w.extractLsb' 16 10 == 0#10) true (.bkpt (fsys w))
  | 6 => guarded true (w.extractLsb' 6 20 == 0#20) true (.wfe)
  | 7 => guarded true (w.extractLsb' 6 15 == 0#15) true (.ident (fd w))
  | _ => .error .unassigned

/-- The instruction of a word, or the lowest reason of R97 that applies to it (04 R97, R98). -/
def decodeWord (w : Word) : Except DecodeError Instr :=
  match (fmajor w).toNat with
  | 1 => decodeAlu w
  | 2 => .ok (.addi (fd w) (fa w) (w.extractLsb' 0 16))
  | 3 => .ok (.andi (fd w) (fa w) (w.extractLsb' 0 16))
  | 4 => .ok (.ori (fd w) (fa w) (w.extractLsb' 0 16))
  | 5 => .ok (.xori (fd w) (fa w) (w.extractLsb' 0 16))
  | 6 => .ok (.slti (fd w) (fa w) (w.extractLsb' 0 16))
  | 7 => .ok (.sltiu (fd w) (fa w) (w.extractLsb' 0 16))
  | 8 => decodeShifti w
  | 9 => guarded true (w.extractLsb' 16 5 == 0#5) true (.lui (fd w) (w.extractLsb' 0 16))
  | 10 => decodeMuldiv w
  | 11 => if w.extractLsb' 24 2 == 3#2 then .error .badHint else .ok (.beqz (w.extractLsb' 24 2) (w.extractLsb' 19 5) (w.extractLsb' 0 19))
  | 12 => if w.extractLsb' 24 2 == 3#2 then .error .badHint else .ok (.bnez (w.extractLsb' 24 2) (w.extractLsb' 19 5) (w.extractLsb' 0 19))
  | 13 => if w.extractLsb' 24 2 == 3#2 then .error .badHint else .ok (.bltz (w.extractLsb' 24 2) (w.extractLsb' 19 5) (w.extractLsb' 0 19))
  | 14 => if w.extractLsb' 24 2 == 3#2 then .error .badHint else .ok (.bgez (w.extractLsb' 24 2) (w.extractLsb' 19 5) (w.extractLsb' 0 19))
  | 15 => if w.extractLsb' 24 2 == 3#2 then .error .badHint else .ok (.bgtz (w.extractLsb' 24 2) (w.extractLsb' 19 5) (w.extractLsb' 0 19))
  | 16 => if w.extractLsb' 24 2 == 3#2 then .error .badHint else .ok (.blez (w.extractLsb' 24 2) (w.extractLsb' 19 5) (w.extractLsb' 0 19))
  | 17 => .ok (.jal (fd w) (w.extractLsb' 0 21))
  | 18 => .ok (.jalr (fd w) (fa w) (w.extractLsb' 0 16))
  | 19 => if w.extractLsb' 16 5 != 0#5 then .error .reservedField
    else if w.extractLsb' 0 16 == 0#16 then .error .zeroBody else .ok (.loop (fd w) (w.extractLsb' 0 16))
  | 20 => if w.extractLsb' 0 10 == 0#10 then .error .zeroBody else .ok (.loopi (w.extractLsb' 10 16) (w.extractLsb' 0 10))
  | 21 => guarded true (w.extractLsb' 0 4 == 0#4) true (.repf (w.extractLsb' 22 4) (w.extractLsb' 16 6) (w.extractLsb' 12 4) (w.extractLsb' 8 4) (w.extractLsb' 4 4))
  | 22 => .ok (.mcall (w.extractLsb' 20 6) (w.extractLsb' 15 5) (w.extractLsb' 10 5) (w.extractLsb' 5 5) (w.extractLsb' 0 5))
  | 23 => decodeLd w
  | 24 => decodeSt w
  | 25 => decodePath w
  | 26 => decodeFp32 w
  | 27 => decodeBf16 w
  | 28 => decodeIntVec w
  | 29 => decodeMove w
  | 30 => decodeVMem w
  | 31 => decodeConv w
  | 32 => decodeSpecial w
  | 33 => decodeGang w
  | 34 => decodeMatrix w
  | 36 => decodeCopy w
  | 37 => decodeGather w
  | 38 => decodeAtomic w
  | 39 => decodeVAtomic w
  | 40 => decodeBarrier w
  | 42 => decodeExchange w
  | 43 => decodeQueue w
  | 41 => decodeWaggle w
  | 35 => decodeComb w
  | 44 => decodeForage w
  | 45 => guarded true (w.extractLsb' 8 13 == 0#13) true (.patchi (fd w) (w.extractLsb' 0 8))
  | 48 => decodeSystem w
  | 62 => if w.extractLsb' 0 14 != 0#14 || (w.extractLsb' 20 1 == 0#1 && w.extractLsb' 14 6 != 0#6) then .error .reservedField
    else .ok (.modifierWord (w.extractLsb' 25 1) (w.extractLsb' 24 1) (w.extractLsb' 22 2) (w.extractLsb' 21 1) (w.extractLsb' 20 1) (w.extractLsb' 14 6))
  | _ => .error .reservedMajor

/-- The word of an instruction, fields placed by the layouts of R86 to R94; none for the steps that have no word. -/
def encode (i : Instr) : Option Word :=
  match i with
  | .add d a b => some (0x1#6 ++ d ++ a ++ b ++ 0x0#11)
  | .sub d a b => some (0x1#6 ++ d ++ a ++ b ++ 0x1#11)
  | .and d a b => some (0x1#6 ++ d ++ a ++ b ++ 0x2#11)
  | .or d a b => some (0x1#6 ++ d ++ a ++ b ++ 0x3#11)
  | .xor d a b => some (0x1#6 ++ d ++ a ++ b ++ 0x4#11)
  | .andn d a b => some (0x1#6 ++ d ++ a ++ b ++ 0x5#11)
  | .shl d a b => some (0x1#6 ++ d ++ a ++ b ++ 0x6#11)
  | .shr d a b => some (0x1#6 ++ d ++ a ++ b ++ 0x7#11)
  | .sra d a b => some (0x1#6 ++ d ++ a ++ b ++ 0x8#11)
  | .slt d a b => some (0x1#6 ++ d ++ a ++ b ++ 0x9#11)
  | .sltu d a b => some (0x1#6 ++ d ++ a ++ b ++ 0xa#11)
  | .seq d a b => some (0x1#6 ++ d ++ a ++ b ++ 0xb#11)
  | .sne d a b => some (0x1#6 ++ d ++ a ++ b ++ 0xc#11)
  | .min d a b => some (0x1#6 ++ d ++ a ++ b ++ 0xd#11)
  | .max d a b => some (0x1#6 ++ d ++ a ++ b ++ 0xe#11)
  | .minu d a b => some (0x1#6 ++ d ++ a ++ b ++ 0xf#11)
  | .maxu d a b => some (0x1#6 ++ d ++ a ++ b ++ 0x10#11)
  | .sel d a b => some (0x1#6 ++ d ++ a ++ b ++ 0x11#11)
  | .clz d a => some (0x1#6 ++ d ++ a ++ 0x12#16)
  | .popc d a => some (0x1#6 ++ d ++ a ++ 0x13#16)
  | .brev d a => some (0x1#6 ++ d ++ a ++ 0x14#16)
  | .addi d a i => some (0x2#6 ++ d ++ a ++ i)
  | .andi d a i => some (0x3#6 ++ d ++ a ++ i)
  | .ori d a i => some (0x4#6 ++ d ++ a ++ i)
  | .xori d a i => some (0x5#6 ++ d ++ a ++ i)
  | .slti d a i => some (0x6#6 ++ d ++ a ++ i)
  | .sltiu d a i => some (0x7#6 ++ d ++ a ++ i)
  | .shli d a n => some (0x8#6 ++ d ++ a ++ 0x0#10 ++ n)
  | .shri d a n => some (0x8#6 ++ d ++ a ++ 0x100#10 ++ n)
  | .srai d a n => some (0x8#6 ++ d ++ a ++ 0x200#10 ++ n)
  | .lui d i => some (0x9#6 ++ d ++ 0x0#5 ++ i)
  | .mul d a b => some (0xa#6 ++ d ++ a ++ b ++ 0x0#11)
  | .mulh d a b => some (0xa#6 ++ d ++ a ++ b ++ 0x1#11)
  | .mulhu d a b => some (0xa#6 ++ d ++ a ++ b ++ 0x2#11)
  | .div d a b => some (0xa#6 ++ d ++ a ++ b ++ 0x3#11)
  | .divu d a b => some (0xa#6 ++ d ++ a ++ b ++ 0x4#11)
  | .rem d a b => some (0xa#6 ++ d ++ a ++ b ++ 0x5#11)
  | .remu d a b => some (0xa#6 ++ d ++ a ++ b ++ 0x6#11)
  | .beqz h a o => some (0xb#6 ++ h ++ a ++ o)
  | .bnez h a o => some (0xc#6 ++ h ++ a ++ o)
  | .bltz h a o => some (0xd#6 ++ h ++ a ++ o)
  | .bgez h a o => some (0xe#6 ++ h ++ a ++ o)
  | .bgtz h a o => some (0xf#6 ++ h ++ a ++ o)
  | .blez h a o => some (0x10#6 ++ h ++ a ++ o)
  | .jal d o => some (0x11#6 ++ d ++ o)
  | .jalr d a i => some (0x12#6 ++ d ++ a ++ i)
  | .loop c l => some (0x13#6 ++ c ++ 0x0#5 ++ l)
  | .loopi c l => some (0x14#6 ++ c ++ l)
  | .repf n c d a b => some (0x15#6 ++ n ++ c ++ d ++ a ++ b ++ 0x0#4)
  | .mcall m p q r s => some (0x16#6 ++ m ++ p ++ q ++ r ++ s)
  | .ldB d b o => some (0x17#6 ++ d ++ b ++ 0x0#3 ++ o)
  | .ldBu d b o => some (0x17#6 ++ d ++ b ++ 0x1#3 ++ o)
  | .ldH d b o => some (0x17#6 ++ d ++ b ++ 0x2#3 ++ o)
  | .ldHu d b o => some (0x17#6 ++ d ++ b ++ 0x3#3 ++ o)
  | .ldW d b o => some (0x17#6 ++ d ++ b ++ 0x4#3 ++ o)
  | .stB d b o => some (0x18#6 ++ d ++ b ++ 0x0#3 ++ o)
  | .stH d b o => some (0x18#6 ++ d ++ b ++ 0x2#3 ++ o)
  | .stW d b o => some (0x18#6 ++ d ++ b ++ 0x4#3 ++ o)
  | .pset d a b => some (0x19#6 ++ 0#2 ++ d ++ a ++ b ++ 0x0#11)
  | .pchild d a b => some (0x19#6 ++ 0#2 ++ d ++ 0#2 ++ a ++ b ++ 0x1#11)
  | .pparent d a => some (0x19#6 ++ 0#2 ++ d ++ 0#2 ++ a ++ 0x2#16)
  | .pnext d a => some (0x19#6 ++ 0#2 ++ d ++ 0#2 ++ a ++ 0x3#16)
  | .pmort d a b => some (0x19#6 ++ 0#2 ++ d ++ a ++ b ++ 0x4#11)
  | .prow d a => some (0x19#6 ++ d ++ 0#2 ++ a ++ 0x5#16)
  | .pcol d a => some (0x19#6 ++ d ++ 0#2 ++ a ++ 0x6#16)
  | .pdepth d a => some (0x19#6 ++ d ++ 0#2 ++ a ++ 0x7#16)
  | .ptrunc d a b => some (0x19#6 ++ 0#2 ++ d ++ 0#2 ++ a ++ b ++ 0x8#11)
  | .pgetlo d a => some (0x19#6 ++ d ++ 0#2 ++ a ++ 0x9#16)
  | .pgethi d a => some (0x19#6 ++ d ++ 0#2 ++ a ++ 0xa#16)
  | .psetlo d a => some (0x19#6 ++ 0#2 ++ d ++ a ++ 0xb#16)
  | .psethi d a => some (0x19#6 ++ 0#2 ++ d ++ a ++ 0xc#16)
  | .vadd d a b m => some (0x1a#6 ++ d ++ a ++ b ++ m ++ 0x0#8)
  | .vsub d a b m => some (0x1a#6 ++ d ++ a ++ b ++ m ++ 0x1#8)
  | .vmul d a b m => some (0x1a#6 ++ d ++ a ++ b ++ m ++ 0x2#8)
  | .vfma d a b m => some (0x1a#6 ++ d ++ a ++ b ++ m ++ 0x3#8)
  | .vfms d a b m => some (0x1a#6 ++ d ++ a ++ b ++ m ++ 0x4#8)
  | .vfnma d a b m => some (0x1a#6 ++ d ++ a ++ b ++ m ++ 0x5#8)
  | .vmin d a b m => some (0x1a#6 ++ d ++ a ++ b ++ m ++ 0x6#8)
  | .vmax d a b m => some (0x1a#6 ++ d ++ a ++ b ++ m ++ 0x7#8)
  | .vaddBf d a b m => some (0x1b#6 ++ d ++ a ++ b ++ m ++ 0x0#8)
  | .vsubBf d a b m => some (0x1b#6 ++ d ++ a ++ b ++ m ++ 0x1#8)
  | .vmulBf d a b m => some (0x1b#6 ++ d ++ a ++ b ++ m ++ 0x2#8)
  | .vfmaBf d a b m => some (0x1b#6 ++ d ++ a ++ b ++ m ++ 0x3#8)
  | .vfmsBf d a b m => some (0x1b#6 ++ d ++ a ++ b ++ m ++ 0x4#8)
  | .vfnmaBf d a b m => some (0x1b#6 ++ d ++ a ++ b ++ m ++ 0x5#8)
  | .vminBf d a b m => some (0x1b#6 ++ d ++ a ++ b ++ m ++ 0x6#8)
  | .vmaxBf d a b m => some (0x1b#6 ++ d ++ a ++ b ++ m ++ 0x7#8)
  | .viadd d a b m w => some (0x1c#6 ++ d ++ a ++ b ++ m ++ w ++ 0x0#6)
  | .visub d a b m w => some (0x1c#6 ++ d ++ a ++ b ++ m ++ w ++ 0x1#6)
  | .vimul d a b m w => some (0x1c#6 ++ d ++ a ++ b ++ m ++ w ++ 0x2#6)
  | .vimulh d a b m w => some (0x1c#6 ++ d ++ a ++ b ++ m ++ w ++ 0x3#6)
  | .vand d a b m w => some (0x1c#6 ++ d ++ a ++ b ++ m ++ w ++ 0x4#6)
  | .vor d a b m w => some (0x1c#6 ++ d ++ a ++ b ++ m ++ w ++ 0x5#6)
  | .vxor d a b m w => some (0x1c#6 ++ d ++ a ++ b ++ m ++ w ++ 0x6#6)
  | .vshl d a b m w => some (0x1c#6 ++ d ++ a ++ b ++ m ++ w ++ 0x7#6)
  | .vshr d a b m w => some (0x1c#6 ++ d ++ a ++ b ++ m ++ w ++ 0x8#6)
  | .vsra d a b m w => some (0x1c#6 ++ d ++ a ++ b ++ m ++ w ++ 0x9#6)
  | .vimin d a b m w => some (0x1c#6 ++ d ++ a ++ b ++ m ++ w ++ 0xa#6)
  | .vimax d a b m w => some (0x1c#6 ++ d ++ a ++ b ++ m ++ w ++ 0xb#6)
  | .vcmpeq d a b m => some (0x1d#6 ++ 0#2 ++ d ++ a ++ b ++ m ++ 0x0#8)
  | .vcmpne d a b m => some (0x1d#6 ++ 0#2 ++ d ++ a ++ b ++ m ++ 0x1#8)
  | .vcmplt d a b m => some (0x1d#6 ++ 0#2 ++ d ++ a ++ b ++ m ++ 0x2#8)
  | .vcmple d a b m => some (0x1d#6 ++ 0#2 ++ d ++ a ++ b ++ m ++ 0x3#8)
  | .vicmpeq d a b m => some (0x1d#6 ++ 0#2 ++ d ++ a ++ b ++ m ++ 0x4#8)
  | .vicmplt d a b m => some (0x1d#6 ++ 0#2 ++ d ++ a ++ b ++ m ++ 0x5#8)
  | .vicmpltu d a b m => some (0x1d#6 ++ 0#2 ++ d ++ a ++ b ++ m ++ 0x6#8)
  | .vsel d a b m => some (0x1d#6 ++ d ++ a ++ b ++ m ++ 0x7#8)
  | .vperm d a b m => some (0x1d#6 ++ d ++ a ++ b ++ m ++ 0x8#8)
  | .vbcast d a m => some (0x1d#6 ++ d ++ a ++ 0x0#5 ++ m ++ 0x9#8)
  | .vmovs d a n => some (0x1d#6 ++ d ++ a ++ 0#2 ++ n ++ 0xa#11)
  | .vins d a n => some (0x1d#6 ++ d ++ a ++ 0#2 ++ n ++ 0xb#11)
  | .vmand d a b => some (0x1d#6 ++ 0#2 ++ d ++ 0#2 ++ a ++ 0#2 ++ b ++ 0xc#11)
  | .vmor d a b => some (0x1d#6 ++ 0#2 ++ d ++ 0#2 ++ a ++ 0#2 ++ b ++ 0xd#11)
  | .vmnot d a => some (0x1d#6 ++ 0#2 ++ d ++ 0#2 ++ a ++ 0xe#16)
  | .vredadd d a m => some (0x1d#6 ++ d ++ a ++ 0x0#5 ++ m ++ 0xf#8)
  | .vredmax d a m => some (0x1d#6 ++ d ++ a ++ 0x0#5 ++ m ++ 0x10#8)
  | .vredmin d a m => some (0x1d#6 ++ d ++ a ++ 0x0#5 ++ m ++ 0x11#8)
  | .vrediadd d a m => some (0x1d#6 ++ d ++ a ++ 0x0#5 ++ m ++ 0x12#8)
  | .vmov d a m => some (0x1d#6 ++ d ++ a ++ 0x0#5 ++ m ++ 0x13#8)
  | .vld d b o => some (0x1e#6 ++ d ++ b ++ 0x0#3 ++ o)
  | .vst d b o => some (0x1e#6 ++ d ++ b ++ 0x1#3 ++ o)
  | .vlds d b s => some (0x1e#6 ++ d ++ b ++ 0x2#3 ++ s)
  | .vsts d b s => some (0x1e#6 ++ d ++ b ++ 0x3#3 ++ s)
  | .vgth d b x m => some (0x1e#6 ++ d ++ b ++ 0x4#3 ++ x ++ 0x0#5 ++ m)
  | .vsct d b x m => some (0x1e#6 ++ d ++ b ++ 0x5#3 ++ x ++ 0x0#5 ++ m)
  | .vcvtfb d a b m => some (0x1f#6 ++ d ++ a ++ b ++ m ++ 0x0#8)
  | .vcvtbf d a q m => some (0x1f#6 ++ d ++ a ++ 0#4 ++ q ++ m ++ 0x1#8)
  | .vcvtfh d a b m => some (0x1f#6 ++ d ++ a ++ b ++ m ++ 0x2#8)
  | .vcvthf d a q m => some (0x1f#6 ++ d ++ a ++ 0#4 ++ q ++ m ++ 0x3#8)
  | .vcvtfi d a m => some (0x1f#6 ++ d ++ a ++ 0x0#5 ++ m ++ 0x4#8)
  | .vcvtif d a m => some (0x1f#6 ++ d ++ a ++ 0x0#5 ++ m ++ 0x5#8)
  | .vfxenc d a => some (0x1f#6 ++ d ++ a ++ 0x6#16)
  | .vfxdec d a j => some (0x1f#6 ++ d ++ a ++ 0#3 ++ j ++ 0x7#11)
  | .vexp2 d a m => some (0x20#6 ++ d ++ a ++ 0x0#5 ++ m ++ 0x0#8)
  | .vlog2 d a m => some (0x20#6 ++ d ++ a ++ 0x0#5 ++ m ++ 0x1#8)
  | .vrcp d a m => some (0x20#6 ++ d ++ a ++ 0x0#5 ++ m ++ 0x2#8)
  | .vrsq d a m => some (0x20#6 ++ d ++ a ++ 0x0#5 ++ m ++ 0x3#8)
  | .vtanh d a m => some (0x20#6 ++ d ++ a ++ 0x0#5 ++ m ++ 0x4#8)
  | .gang c => some (0x21#6 ++ 0x0#15 ++ c ++ 0x0#6)
  | .ungang => some (0x21#6 ++ 0x1#26)
  | .gangid d => some (0x21#6 ++ d ++ 0x2#21)
  | .mzero z => some (0x22#6 ++ 0#4 ++ z ++ 0x0#21)
  | .mbinda r a f => some (0x22#6 ++ r ++ a ++ 0x0#5 ++ f ++ 0x1#6)
  | .mldb a f => some (0x22#6 ++ 0x0#5 ++ a ++ 0x0#5 ++ f ++ 0x2#6)
  | .gissue z => some (0x22#6 ++ 0#4 ++ z ++ 0x3#21)
  | .mrd d z r => some (0x22#6 ++ d ++ 0#4 ++ z ++ 0x0#5 ++ 0#2 ++ r ++ 0x4#6)
  | .mwm d => some (0x22#6 ++ d ++ 0x5#21)
  | .mcap d => some (0x22#6 ++ d ++ 0x6#21)
  | .mwait z => some (0x22#6 ++ 0#4 ++ z ++ 0x7#21)
  | .cpy d a b s r o => some (0x24#6 ++ d ++ 0#2 ++ a ++ b ++ 0x0#2 ++ s ++ r ++ o ++ 0x0#6)
  | .cpyr d a b => some (0x24#6 ++ d ++ a ++ b ++ 0x1#11)
  | .cpyq d a s => some (0x24#6 ++ d ++ a ++ 0x0#5 ++ s ++ 0x2#6)
  | .cpyx a => some (0x24#6 ++ 0x0#5 ++ a ++ 0x3#16)
  | .cpat a => some (0x24#6 ++ 0x0#5 ++ a ++ 0x4#16)
  | .deal d a b r => some (0x24#6 ++ d ++ 0#2 ++ a ++ b ++ 0x0#3 ++ r ++ 0x5#7)
  | .gath d a b c => some (0x25#6 ++ d ++ 0#2 ++ a ++ b ++ c ++ 0x0#6)
  | .scat d a b c => some (0x25#6 ++ d ++ 0#2 ++ a ++ b ++ c ++ 0x1#6)
  | .gwait d a => some (0x25#6 ++ d ++ a ++ 0x2#16)
  | .aadd d a b s o => some (0x26#6 ++ d ++ 0#2 ++ a ++ b ++ s ++ 0x0#2 ++ o ++ 0x0#4)
  | .aand d a b s o => some (0x26#6 ++ d ++ 0#2 ++ a ++ b ++ s ++ 0x0#2 ++ o ++ 0x1#4)
  | .aor d a b s o => some (0x26#6 ++ d ++ 0#2 ++ a ++ b ++ s ++ 0x0#2 ++ o ++ 0x2#4)
  | .axor d a b s o => some (0x26#6 ++ d ++ 0#2 ++ a ++ b ++ s ++ 0x0#2 ++ o ++ 0x3#4)
  | .amin d a b s o => some (0x26#6 ++ d ++ 0#2 ++ a ++ b ++ s ++ 0x0#2 ++ o ++ 0x4#4)
  | .amax d a b s o => some (0x26#6 ++ d ++ 0#2 ++ a ++ b ++ s ++ 0x0#2 ++ o ++ 0x5#4)
  | .aminu d a b s o => some (0x26#6 ++ d ++ 0#2 ++ a ++ b ++ s ++ 0x0#2 ++ o ++ 0x6#4)
  | .amaxu d a b s o => some (0x26#6 ++ d ++ 0#2 ++ a ++ b ++ s ++ 0x0#2 ++ o ++ 0x7#4)
  | .axchg d a b s o => some (0x26#6 ++ d ++ 0#2 ++ a ++ b ++ s ++ 0x0#2 ++ o ++ 0x8#4)
  | .acas d a b s o => some (0x26#6 ++ d ++ 0#2 ++ a ++ b ++ s ++ 0x0#2 ++ o ++ 0x9#4)
  | .afadd d a b s o => some (0x26#6 ++ d ++ 0#2 ++ a ++ b ++ s ++ 0x0#2 ++ o ++ 0xa#4)
  | .vaadd d a b s o => some (0x27#6 ++ d ++ 0#2 ++ a ++ b ++ s ++ 0x0#2 ++ o ++ 0x0#4)
  | .vaand d a b s o => some (0x27#6 ++ d ++ 0#2 ++ a ++ b ++ s ++ 0x0#2 ++ o ++ 0x1#4)
  | .vaor d a b s o => some (0x27#6 ++ d ++ 0#2 ++ a ++ b ++ s ++ 0x0#2 ++ o ++ 0x2#4)
  | .vaxor d a b s o => some (0x27#6 ++ d ++ 0#2 ++ a ++ b ++ s ++ 0x0#2 ++ o ++ 0x3#4)
  | .vamin d a b s o => some (0x27#6 ++ d ++ 0#2 ++ a ++ b ++ s ++ 0x0#2 ++ o ++ 0x4#4)
  | .vamax d a b s o => some (0x27#6 ++ d ++ 0#2 ++ a ++ b ++ s ++ 0x0#2 ++ o ++ 0x5#4)
  | .vaminu d a b s o => some (0x27#6 ++ d ++ 0#2 ++ a ++ b ++ s ++ 0x0#2 ++ o ++ 0x6#4)
  | .vamaxu d a b s o => some (0x27#6 ++ d ++ 0#2 ++ a ++ b ++ s ++ 0x0#2 ++ o ++ 0x7#4)
  | .vafadd d a b s o => some (0x27#6 ++ d ++ 0#2 ++ a ++ b ++ s ++ 0x0#2 ++ o ++ 0x9#4)
  | .vawait => some (0x27#6 ++ 0xa#26)
  | .barr d c => some (0x28#6 ++ d ++ 0x0#11 ++ c ++ 0x0#6)
  | .bwait a c => some (0x28#6 ++ 0x0#5 ++ a ++ 0x0#6 ++ c ++ 0x1#6)
  | .btest d a c => some (0x28#6 ++ d ++ a ++ 0x0#6 ++ c ++ 0x2#6)
  | .bph d c => some (0x28#6 ++ d ++ 0x0#11 ++ c ++ 0x3#6)
  | .bmsk d a => some (0x28#6 ++ d ++ a ++ 0x4#16)
  | .vote d a c => some (0x28#6 ++ d ++ a ++ 0x0#6 ++ c ++ 0x5#6)
  | .xsync d => some (0x2a#6 ++ d ++ 0x0#21)
  | .xsend a b => some (0x2a#6 ++ 0x0#5 ++ a ++ b ++ 0x1#11)
  | .xdone => some (0x2a#6 ++ 0x2#26)
  | .xslot d a s => some (0x2a#6 ++ d ++ a ++ 0x0#5 ++ 0#3 ++ s ++ 0x3#6)
  | .qapp d a b n => some (0x2b#6 ++ d ++ a ++ b ++ 0x0#4 ++ n ++ 0x0#6)
  | .qget d => some (0x2b#6 ++ d ++ 0x1#21)
  | .qfree d a => some (0x2b#6 ++ d ++ a ++ 0x2#16)
  | .qfreeOpen d a b => some (0x2b#6 ++ d ++ a ++ b ++ 0x42#11)
  | .qcnt d => some (0x2b#6 ++ d ++ 0x3#21)
  | .wgent a l => some (0x29#6 ++ 0x0#5 ++ a ++ 0x0#5 ++ l ++ 0x0#6)
  | .wgentL l => some (0x29#6 ++ 0x400#15 ++ l ++ 0x0#6)
  | .wgres d s l => some (0x29#6 ++ d ++ 0x0#5 ++ 0#3 ++ s ++ l ++ 0x1#6)
  | .wgwait d l => some (0x29#6 ++ d ++ 0x0#10 ++ l ++ 0x2#6)
  | .wgcan l => some (0x29#6 ++ 0x0#15 ++ l ++ 0x3#6)
  | .spld a b f => some (0x23#6 ++ 0x0#5 ++ a ++ 0#2 ++ b ++ f ++ 0x0#6)
  | .spmm z a f => some (0x23#6 ++ 0#4 ++ z ++ a ++ 0x0#5 ++ f ++ 0x1#6)
  | .cbq d => some (0x23#6 ++ d ++ 0x2#21)
  | .cbinv b => some (0x23#6 ++ 0x0#10 ++ 0#2 ++ b ++ 0x3#11)
  | .cbinvAll => some (0x23#6 ++ 0x43#26)
  | .cbwait d => some (0x23#6 ++ d ++ 0x4#21)
  | .fpost d a => some (0x2c#6 ++ d ++ a ++ 0x0#16)
  | .forage d => some (0x2c#6 ++ d ++ 0x1#21)
  | .yield a => some (0x2c#6 ++ 0x0#5 ++ a ++ 0x2#16)
  | .cend => some (0x2c#6 ++ 0x3#26)
  | .fquiet d => some (0x2c#6 ++ d ++ 0x4#21)
  | .launch d a => some (0x2c#6 ++ d ++ a ++ 0x5#16)
  | .patchi d i => some (0x2d#6 ++ d ++ 0x0#13 ++ i)
  | .trap c => some (0x30#6 ++ 0x0#10 ++ c ++ 0x0#6)
  | .rft => some (0x30#6 ++ 0x1#26)
  | .gsr d s => some (0x30#6 ++ d ++ 0x0#5 ++ s ++ 0x2#6)
  | .ssr a s => some (0x30#6 ++ 0x0#5 ++ a ++ s ++ 0x3#6)
  | .fence s => some (0x30#6 ++ 0x0#17 ++ s ++ 0x4#6)
  | .bkpt c => some (0x30#6 ++ 0x0#10 ++ c ++ 0x5#6)
  | .wfe => some (0x30#6 ++ 0x6#26)
  | .ident d => some (0x30#6 ++ d ++ 0x7#21)
  | .modifierWord n a c s e k => some (0x3e#6 ++ n ++ a ++ c ++ s ++ e ++ k ++ 0x0#14)
  | .repfVectorFeed _ => none
  | .vectorDispatch _ => none
  | .vectorComplete _ => none
  | .gangRendezvousComplete _ _ => none
  | .mldbStagingComplete _ => none
  | .jointRendezvousComplete _ => none
  | .ringStepBegin _ => none
  | .rowPairComplete _ => none
  | .treeRecordFill _ _ _ => none
  | .bankhashRehashComplete _ => none
  | .bankReplayRetry _ => none
  | .retentionEntry _ => none
  | .retentionEntryComplete _ => none
  | .retentionExit _ => none
  | .retentionExitComplete _ => none
  | .copyBeat _ _ => none
  | .gatherEntry _ _ _ => none
  | .packageCopyMove _ _ _ _ _ _ _ => none
  | .pageRequestAdmit _ => none
  | .pageRequestComplete _ _ _ => none
  | .pageRequestRefuse _ _ => none
  | .shootdownComplete _ _ => none
  | .pageReplicate _ _ => none
  | .pageEndReplication _ _ => none
  | .pagePermissionChange _ _ _ _ _ _ _ => none
  | .instructionFetch _ => none
  | .atomicApply _ => none
  | .atomicResultReturn _ _ => none
  | .arrivalEntersTree _ _ => none
  | .barrierRelease _ _ _ => none
  | .exchangeSlotClose _ _ _ => none
  | .exchangeBeatLands _ => none
  | .queueEntryLands _ => none
  | .waggleEntryRegister _ _ => none
  | .frameStart _ => none
  | .resolutionSlot _ => none
  | .waggleWithdrawal _ _ => none
  | .frameEnd _ => none
  | .buildStart _ => none
  | .buildEnd _ => none
  | .sparseOpEnd _ => none
  | .resultLands _ => none
  | .trapEntry _ _ _ _ _ _ _ => none
  | .poolTakeIdle _ _ => none
  | .groupQuiescent _ _ _ => none
  | .launchLoad _ _ => none
  | .launchStart _ _ => none
  | .launchEnd _ _ => none
  | .doorbell _ _ _ => none
  | .eventCounterPoll _ _ => none
  | .queueTake _ => none
  | .sliceExpiry _ => none
  | .preemptionComplete _ => none
  | .boundaryWaitExpiry _ => none
  | .haltComplete _ => none
  | .saveComplete _ => none
  | .contextLoadComplete _ => none
  | .create _ _ _ _ => none
  | .terminate _ _ => none
  | .map _ _ _ _ _ _ _ _ _ _ => none
  | .unmap _ _ _ => none
  | .queue _ _ _ _ _ _ _ => none
  | .qctlDisable _ _ _ => none
  | .qctlEnable _ _ _ => none
  | .qctlReset _ _ _ => none
  | .preempt _ _ => none
  | .resume _ _ => none
  | .signal _ _ _ => none
  | .halt _ _ => none
  | .trackStart _ _ => none
  | .trackStop _ _ => none
  | .harvest _ _ _ _ => none
  | .save _ _ _ _ => none
  | .restore _ _ _ => none
  | .dump _ _ _ _ => none
  | .setparmWeight _ _ _ => none
  | .setparmSlice _ _ _ => none
  | .setparmBoundaryWait _ _ _ => none
  | .setparmLaneRequest _ _ _ => none
  | .setparmPageQuota _ _ _ => none
  | .dbggo _ _ _ => none
  | .evict _ _ _ => none
  | .partset _ _ _ => none
  | .partdrop _ _ => none
  | .partfunc _ _ _ => none
  | .registerWrite _ _ _ => none
  | .windowEnable _ _ => none
  | .windowDisable _ _ => none
  | .contributionAccept _ _ _ => none
  | .epochDeliver _ _ => none
  | .collectiveWatchdogExpiry _ _ => none
  | .portEnable _ => none
  | .trainingComplete _ _ _ _ => none
  | .trainingFailure _ => none
  | .flitCrcFail _ _ => none
  | .retrainingComplete _ _ => none
  | .retrainingTimeout _ => none
  | .portDisable _ => none
  | .functionLevelReset _ => none
  | .flrComplete _ => none
  | .correctedError _ => none
  | .uncorrectableError _ _ => none
  | .unitRetire _ _ => none
  | .zeroingComplete _ => none
  | .modeChange _ => none
  | .cxlMemAccess _ _ _ => none
  | .boot _ _ _ _ _ => none
  | .attestationRequest _ => none
  | .powerSample _ => none
  | .overTemperature _ => none
  | .thermalTrip _ => none
  | .mbcmdUnknownCode _ _ => none
/-- The little-endian word of four bytes (00 R6). -/
def wordOfBytes (b0 b1 b2 b3 : Byte) : Word := b3 ++ b2 ++ b1 ++ b0

/-- The instruction at the head of a byte string, and the bytes after it (04: every instruction is one 32-bit word,
stored little-endian by R6). -/
def decode (bs : List Byte) : Except DecodeError (Instr × List Byte) :=
  match bs with
  | b0 :: b1 :: b2 :: b3 :: rest =>
    match decodeWord (wordOfBytes b0 b1 b2 b3) with
    | .ok i => .ok (i, rest)
    | .error r => .error r
  | _ => .error .truncated

/-- The four bytes of a word in memory order (00 R6). -/
def bytesOfWord (w : Word) : List Byte :=
  [w.extractLsb' 0 8, w.extractLsb' 8 8, w.extractLsb' 16 8, w.extractLsb' 24 8]

/-- The instruction read from the bits w of an opcode-table row of nbits bits; the bits above nbits are 0. -/
def decodeTableWord (nbits w : Nat) : Option Instr :=
  match decode (bytesOfWord (BitVec.ofNat 32 (w % 2 ^ nbits))) with
  | .ok (i, _) => some i
  | .error _ => none

end Sys2Proof
end

