-- ==== Sys2Proof/Machine/State.lean ====
section
/-!
DEFINITION. The state of the module, as plain data, and its value after reset. Objects that are many and mostly at
rest (cores, clusters, contexts, lanes, queues) are kept as lists of number and record, sorted by number; an object not
listed stands at its reset record. Memory is a list of cells in one canonical form: addresses strictly rising, no entry
equal to the byte an unlisted address reads as, which is 0 (21 R448, R450).
-/

namespace Sys2Proof.Machine

/-- A list of number and record, sorted by number. -/
abbrev Table (α : Type) := List (Nat × α)

/-! ### Core -/

/-- Whether a core runs (01 R22; 05 R130; 19 R413, R419); `debugHalted` is a debug-stopped core that a halt has met. -/
inductive CoreStatus where
  | idle
  | running
  | stopped
  | debugStopped
  | halted
  | debugHalted
  deriving DecidableEq, Repr

/-- What stop has been asked of a core (19 R414 to R416, R418): at a superstep boundary, or at an instruction boundary
for a forced pre-emption, for HALT or SAVE, or for a fault stop. -/
inductive HaltReq where
  | none
  | boundary
  | forced
  | halt
  | fault
  deriving DecidableEq, Repr

/-- A wait inside an instruction and what the instruction has already done (05 R107; 19 R413). -/
inductive Wait where
  | none
  | stall
  | arrived
  | xsend (slot : Nat)
  | gang (size : Nat)
  | joint (tile : Nat)
  | atomic (seq : Nat)
  | quiet
  | reserved (record : Nat)
  | yielding (record : List Byte)
  deriving DecidableEq, Repr

/-- A scalar write that has not landed (05 R105); `load` is the cycle in which the LD that brings it issued. -/
structure Pend where
  reg    : BitVec 5
  value  : Word
  landAt : Nat
  load   : Option Nat
  deriving DecidableEq, Repr

/-- An active hardware loop (05 R119). -/
structure LoopRec where
  first     : Word
  last      : Word
  remaining : Nat
  deriving DecidableEq, Repr

/-- One captured instruction of a repeat frame, with its modifier and the rounding mode it issued under (05 R122). -/
structure Captured where
  md    : Option Modifier
  instr : Instr
  rmode : Rounding
  deriving DecidableEq, Repr

/-- The sequencer's frame (05 R122 to R124): in capture while `pass` is 0; `pass` and `pos` name the next replay. -/
structure Frame where
  addr     : Word
  n        : Nat
  count    : Nat
  sd       : Nat
  sa       : Nat
  sb       : Nat
  captured : List Captured
  pass     : Nat
  pos      : Nat
  feeding  : Bool
  deriving DecidableEq, Repr

/-- The window binding a vector memory instruction took at issue (08 R211 to R213). -/
structure WinBind where
  window : Nat
  m0     : Nat
  depth  : Nat
  rows   : Nat
  cols   : Nat
  scaled : Bool
  clamp  : Nat
  dloc   : Nat
  sloc   : Nat
  deriving DecidableEq, Repr

/-- An entry of the vector queue: the instruction and every value it took at issue (06 R143); `stamp` is its number in the
core's order of engine work, and `take` marks the load of a QGET (13 R317). -/
structure VEntry where
  instr  : Instr
  addr   : Word
  rmode  : Rounding
  md     : Option Modifier
  scalar : Word
  lanes  : List (Nat × Nat)
  bind   : Option WinBind
  data   : Vec
  lane0  : Nat
  laneN  : Nat
  seqs   : List (Nat × Nat)
  stamp  : Nat
  take   : Bool
  deriving DecidableEq, Repr

/-- A dispatched vector instruction that has not completed: what it will write, and the number of its entry (06 R144, R145). -/
structure VFly where
  instr   : Instr
  vreg    : Option (BitVec 5)
  vmask   : Vec
  value   : Vec
  mreg    : Option (BitVec 3)
  mvalue  : BitVec 8
  flags   : Flags
  readyAt : Nat
  stamp   : Nat
  deriving DecidableEq, Repr

/-- States of a slice of the joint array (07 R178). -/
inductive SliceState where
  | unbound
  | bound
  | issued
  | rotating
  | draining
  | final
  deriving DecidableEq, Repr

/-- A slice error record: local address, kind, tile, ring step (07 R184, 15 R353). -/
structure SliceErr where
  addr : Nat
  kind : Nat
  tile : Nat
  step : Nat
  deriving DecidableEq, Repr

/-- A core's slice of the joint array (07 R173, R178, R186, R191). `flags` are those of the operation's rows so far; `stageAt` is
where the piece being staged stands, of which the banks have served `staged` bytes. -/
structure Slice where
  st       : SliceState
  abound   : Bool
  bstaged  : Bool
  abase    : Nat
  afmt     : Nat
  arows    : Nat
  stage    : List Byte
  stageAt  : Nat
  staged   : Nat
  stageBad : Bool
  bfmt     : Nat
  stagedAt : Nat
  wm       : Nat
  tile     : Nat
  err      : Option SliceErr
  flags    : Flags
  lock     : Option (Nat × Nat)
  deriving DecidableEq, Repr

/-- States of a copy channel (09 R222, R224). -/
inductive CopyState where
  | idle
  | waiting
  | moving
  | stalled
  | done
  | faulted
  | cancelled
  deriving DecidableEq, Repr

/-- A copy channel's record (09 R218, R222 to R224, R226, R231). `len` and `total` are the bytes and the elements the
copy counts; `edges` the channels of its predecessors with the number of the copy on each; `stamp` and `after` as an
atomic's. -/
structure Channel where
  st      : CopyState
  deal    : Bool
  dir     : Bool
  scales  : Bool
  path    : Path
  laddr   : Nat
  pattern : Word
  wp      : Nat
  prog    : Nat
  len     : Nat
  total   : Nat
  cause   : BitVec 8
  fpath   : Path
  serial  : Nat
  edges   : List (Nat × Nat)
  stamp   : Nat
  after   : Nat
  readyAt : Nat
  deriving DecidableEq, Repr

/-- A failing entry of a gather or scatter (09 R235, R236). -/
structure TicketFail where
  pos   : Nat
  cause : BitVec 8
  fpath : Path
  deriving DecidableEq, Repr

/-- A ticket of the gather engine (09 R234 to R236): the list and, for a scatter, the data taken at issue; the entries
not yet ended. `stamp` and `after` as an atomic's. -/
structure Ticket where
  scat    : Bool
  path    : Path
  list    : List Word
  data    : List Byte
  dataAt  : Nat
  gran    : Nat
  todo    : List Nat
  fails   : List TicketFail
  stamp   : Nat
  after   : Nat
  sentAt  : Nat
  deriving DecidableEq, Repr

/-- Where an atomic executes (11 R265; 20 R434, R437, R438): at a home of this module, on a page replicated or not; on a
peer module; at a peer no port reaches; or merged in the switch as a contribution to window `w`. -/
inductive AtomPlace where
  | home (pa : Nat) (repl : Bool)
  | peer
  | lost
  | switch (w : Nat)
  deriving DecidableEq, Repr

/-- An atomic sent to its home (11 R267, R272, R274). `lane` is none for a scalar; the answer stands in `old` once the
atomic is applied, and `bad` marks a DATA_INTEGRITY answer, whose path is `path`; `func` is the function of its context (20
R431). `stamp` is its place in the core's order of engine work, and every work up to `after` is ordered before it (16 R360). -/
structure Atom where
  seq      : Nat
  op       : BitVec 4
  va       : Nat
  place    : AtomPlace
  operand  : Word
  compare  : Word
  lane     : Option Nat
  posted   : Bool
  path     : Path
  applied  : Bool
  returned : Bool
  old      : Word
  flags    : Flags
  bad      : Bool
  sysRel   : Bool
  sentAt   : Nat
  func     : Nat
  stamp    : Nat
  after    : Nat
  deriving DecidableEq, Repr

/-- The atomic error record (11 R278): the failing path, the engine number, the lane and the atomic's number. -/
structure AErr where
  fpath : Path
  kind  : Word
  lane  : Word
  seq   : Nat
  deriving DecidableEq, Repr

/-- A message assigned to a ring and not yet landed (13 R314); `func` is the function of its sender's context (20 R431). -/
structure Append where
  entry  : Nat
  data   : Vec
  sender : Nat
  tag    : Nat
  func   : Nat
  deriving DecidableEq, Repr

/-- A core's inbound ring (13 R314). -/
structure Ring where
  isOpen   : Bool
  base     : Nat
  size     : Nat
  head     : Nat
  tail     : Nat
  landed   : Nat
  inflight : List Append
  deriving DecidableEq, Repr

/-- An exchange transfer a core has issued (13 R300): `receiver` is a logical core number; the next beat lands from cycle
`nextAt` on, none until the slot opens. `buf` are the bytes read and not yet landed, each with the mark of its word; `moved`
those landed. -/
structure Transfer where
  slot     : Nat
  receiver : Nat
  srcAt    : Nat
  dstAt    : Nat
  bytes    : Nat
  moved    : Nat
  buf      : List (Byte × Bool)
  tag      : Nat
  func     : Nat
  nextAt   : Option Nat
  deriving DecidableEq, Repr

/-- A result holder's state (14 R330). -/
inductive HolderState where
  | none
  | pending
  | resolved
  | cancelled
  deriving DecidableEq, Repr

/-- A result holder (14 R330), with the key of its entry (R333, R337). -/
structure Holder where
  st      : HolderState
  late    : Bool
  won     : Bool
  lsn     : Bool
  req     : Bool
  empty   : Bool
  frame   : BitVec 16
  key     : Word
  winKey  : Word
  winner  : Word
  winL    : Word
  deriving DecidableEq, Repr

/-- The sparse binding (15 R348). -/
structure Binding where
  bound  : Bool
  stale  : Bool
  base   : Nat
  path   : Path
  fmt    : Nat
  nnz    : Nat
  digest : BitVec 64
  bitmap : List Byte
  deriving DecidableEq, Repr

/-- A sparse operation in flight (15 R349, R352, R353). -/
structure SparseOp where
  tile   : Nat
  base   : Nat
  fmt    : Nat
  bitmap : List Byte
  bbase  : Nat
  bfmt   : Nat
  endAt  : Nat
  pinned : Option Nat
  deriving DecidableEq, Repr

/-- Retention of a local memory (08 R214, R215): the cycle in which the entry or exit completes. -/
inductive Retention where
  | awake
  | entering (doneAt : Nat)
  | retained
  | exiting (doneAt : Nat)
  deriving DecidableEq, Repr

/-- A local access waiting in the replay queue (08 R208): the words not yet served and the cycle of its first try; whether it is
a scalar LD, which issued in that cycle; of a vector instruction the lane group it takes (06 R144). -/
structure Replay where
  words : List Nat
  since : Nat
  stamp : Nat
  load  : Bool
  lane  : Option Nat
  deriving DecidableEq, Repr

/-- The banks of a local memory in cycle `at'` (08 R207, R209): the bank and word of each service so far, and whether a
delivery has waited for a conflict. -/
structure Banks where
  at'    : Nat
  used   : List (Nat × Nat)
  waited : Bool
  deriving DecidableEq, Repr

/-- An arrival sent and not yet in the tree (12 R288): the channel, the vote, whether by XSYNC, and the last engine work
and the last atomic before it. -/
structure Arrive where
  channel : Nat
  vote    : Option Bool
  xsync   : Bool
  serial  : Nat
  aseq    : Nat
  deriving DecidableEq, Repr

/-- The core, with its private engines. `fatal` is a trap that will stop the core once its pending writes have landed and a
feeding frame has fed its last pass, with the address TPC gets (05 R130). -/
structure Core where
  ctx       : Option Nat
  lslot     : Nat
  group     : Option Nat
  member    : Nat
  lcore     : Nat
  tag       : Nat
  status    : CoreStatus
  haltReq   : HaltReq
  signal    : Option (BitVec 16)
  abort     : Option (Nat × Nat × Nat)
  dataErr   : Option (Nat × Word)
  wait      : Wait
  held      : Option Instr
  readyAt   : Nat
  latch     : Bool
  flagsWord : Word
  link      : Word
  pc        : Word
  g         : Vector Word 32
  a         : Vector Path 8
  v         : Vector Vec 32
  m         : Vector (BitVec 8) 8
  z         : Vector Word 128
  pend      : List Pend
  loops     : List LoopRec
  aside     : List LoopRec
  md        : Option Modifier
  mdAt      : Word
  frame     : Option Frame
  trapFeed  : Bool
  ops       : List (Option Modifier × Instr)
  handler   : Bool
  cause     : BitVec 8
  tpc       : Word
  tinfo     : Vector Word 4
  fpflags   : Word
  rmode     : Word
  bankhash  : Word
  rehashAt  : Option Nat
  vshare    : Word
  pass      : Nat
  winbind   : Vector Word 8
  barmember : Word
  gangstat  : Word
  leader    : Nat
  resVregs  : Word
  resBars   : Word
  resLocal  : Word
  resMacros : Word
  pickup    : Nat
  cycle0    : Nat
  cycleAdd  : Nat
  step      : BitVec 16
  xphase    : Bool
  chan      : Nat
  nextSlot  : Nat
  combstat  : Word
  conflicts : Word
  banks     : Banks
  divFree   : Nat
  vq        : List VEntry
  vfly      : List VFly
  replay    : List Replay
  mem       : List Host.Cell
  memBad    : List Nat
  retention : Retention
  slice     : Slice
  channels  : Table Channel
  serial    : Nat
  ordered   : Nat
  pattern   : Word
  tickets   : Table Ticket
  atoms     : List Atom
  aseq      : Nat
  aerr      : Option AErr
  alane     : Nat
  alaneAt   : Word
  alaneArm  : Bool
  alaneOn   : Bool
  target    : Vector (BitVec 16) 16
  arrivals  : List Arrive
  ring      : Ring
  holders   : Table Holder
  binding   : Binding
  sparse    : Option SparseOp
  transfers : List Transfer
  rcvd      : Table Nat
  quiet     : Bool
  fetchVa   : Option Nat
  rendErr   : Option Trap
  fatal     : Option (Trap × Word)
  zeroUntil : Nat
  deriving DecidableEq, Repr

/-! ### Cluster -/

/-- A comb's state (15 R346). -/
inductive CombState where
  | queued
  | building
  | ready
  deriving DecidableEq, Repr

/-- An entry of the comb directory (15 R341, R342, R345, R346). `pairs` are the issue pairs of a built comb, each operation a
row, its k and its value index; `reqs` the cores whose request it carries, each with the cycle of the pick-up of the
continuation that made it. -/
structure Comb where
  ctx     : Nat
  path    : Path
  digest  : BitVec 64
  bitmap  : List Byte
  st      : CombState
  nnz     : Nat
  len     : Nat
  pairs   : List (List (Nat × Nat × Nat))
  pins    : Nat
  lastUse : Nat
  reqs    : List (Nat × Nat)
  drop    : Bool
  readyAt : Nat
  deriving DecidableEq, Repr

/-- A macro's operations in the control store: the word and the parameter marks of each (15 R344, 17 R373). -/
structure MacroSet where
  ctx    : Nat
  kernel : Nat
  ops    : Table (List (Word × Word))
  deriving DecidableEq, Repr

/-- A joint operation in flight (07 R173, R174, R180): the class, the largest M, the first cycle of step 0, the step,
the target tile, and for every slice its A panel and its B piece as they stood in cycle g with their formats; the failing
byte of a panel, and the step from which a piece stands bad in its ring latch (07 R184). -/
structure JointOp where
  cls    : Nat
  mmax   : Nat
  start  : Nat
  step   : Nat
  panels : List (List Byte × Nat × Nat)
  pieces : List (List Byte × Nat)
  badA   : List (Option (Nat × Nat))
  badB   : List (Option Nat)
  deriving DecidableEq, Repr

/-- A cluster's shared units: the comb directory and builder, macro sets, the joint operation, lane groups and the
tree-record cache. A joint rendezvous that is complete waits for `jointAt`. `laneFree` holds the cycle from which a lane group
is free, under its number and, in a shared cluster, under 2 × tag + its number; `building` the build under way, in a shared
cluster one for each tag (19 R423). -/
structure Cluster where
  combs     : Table Comb
  combSeq   : Nat
  queue     : List Nat
  building  : Table Nat
  macros    : List MacroSet
  slotsBad  : List Nat
  joint     : Option JointOp
  jointAt   : Option Nat
  laneFree  : Table Nat
  lastDisp  : Nat
  dispMask  : BitVec 8
  cached    : List (Nat × Nat)
  fills     : List (Nat × Nat)
  deriving DecidableEq, Repr

/-! ### Images, launches, contexts -/

/-- A kernel's header (17 R374). -/
structure KHeader where
  handler  : Option Nat
  codeLen  : Nat
  patchLen : Nat
  macros   : Nat
  localLen : Nat
  bars     : Nat
  vregs    : Nat
  ok       : Bool
  deriving DecidableEq, Repr

/-- A slot entry (13 R297, 17 R373). -/
structure SlotEntry where
  slot     : Nat
  sender   : Nat
  receiver : Nat
  srcAt    : Nat
  dstAt    : Nat
  bytes    : Nat
  deriving DecidableEq, Repr

/-- A group declaration (17 R373). -/
structure GroupDecl where
  launch  : Nat
  channel : Nat
  row0    : Nat
  col0    : Nat
  rows    : Nat
  cols    : Nat
  entries : List SlotEntry
  deriving DecidableEq, Repr

/-- A run of a local image (17 R373). -/
structure LocalRun where
  first : Nat
  last  : Nat
  addr  : Nat
  bytes : List Byte
  deriving DecidableEq, Repr

/-- A kernel of an image (17 R370 to R374). -/
structure Kernel where
  header  : KHeader
  code    : List Byte
  codeVa  : Nat
  hashes  : Table (BitVec 256)
  nLaunch : Nat
  groups  : List GroupDecl
  patch   : List Word
  macros  : Table (List (Word × Word))
  runs    : List LocalRun
  deriving DecidableEq, Repr

/-- A decoded launch record (17 R377); `ok` is the check of reason 1. -/
structure LaunchRec where
  ok       : Bool
  image    : Nat
  kernel   : Nat
  lindex   : Nat
  entry    : Nat
  row0     : Nat
  col0     : Nat
  rows     : Nat
  cols     : Nat
  povr     : Bool
  debug    : Bool
  levels   : List Word
  args     : List Word
  patchPtr : Nat
  waitAddr : Nat
  waitVal  : Nat
  sigAddr  : Nat
  sigAmt   : Nat
  deriving DecidableEq, Repr

/-- A launch's state (17 R379). -/
inductive LaunchState where
  | placing
  | loading
  | running
  | faulted
  deriving DecidableEq, Repr

/-- A group's state: the channel's life (12 R287) with the superstep's (13 R302). -/
inductive GroupState where
  | compute
  | held
  | releasing
  | exchange
  deriving DecidableEq, Repr

/-- A group of a launch (12 R284, R287; 13 R295 to R302). `root` is the kind of its root node (0 cluster, 1 region, 2 die,
3 package) and its number; `members` are logical core numbers in member order; `arrived` and `nextArr` are the members
counted for the current and, during a release, the next phase, each with its vote and whether by XSYNC; `inX` those that
began the exchange phase by XSYNC; `clock` the slot the clock stands at, which is open unless it closed at `closedAt`. -/
structure Group where
  channel   : Nat
  root      : Nat × Nat
  members   : List Nat
  entries   : List SlotEntry
  phase     : BitVec 16
  st        : GroupState
  arrived   : List (Nat × Option Bool × Bool)
  nextArr   : List (Nat × Option Bool × Bool)
  releaseAt : Nat
  orVote    : Bool
  andVote   : Bool
  clock     : Option Nat
  closedAt  : Option Nat
  inX       : List Nat
  frozen    : Bool
  deriving DecidableEq, Repr

/-- A launch (17 R377, R379, R394). `origin` is its host queue (function, queue, record), or none for a child launch,
whose rejections go to `report`. -/
structure Launch where
  st      : LaunchState
  record  : LaunchRec
  patch   : List Word
  groups  : List Group
  origin  : Option (Nat × Nat × Nat)
  report  : Option (Nat × Nat)
  order   : Nat
  deriving DecidableEq, Repr

/-- A record of the forage pool (01 R22, 17 R384): its 64 bytes; a taker may have reserved it. It stands in the forage unit's
share of die `die`, since cycle `since`. -/
structure PoolRec where
  id       : Nat
  bytes    : List Byte
  reserved : Bool
  die      : Nat
  since    : Nat
  deriving DecidableEq, Repr

/-- A context's state (19 R412). -/
inductive CtxState where
  | free
  | loading
  | ready
  | running
  | preempted
  | quiesced
  | saved
  | faulted
  | terminated
  deriving DecidableEq, Repr

/-- Who stopped a context (18 R405; 19 R412; 21 R447): the host, which resumes it; the end of its function's slice, or
the retirement of a unit, after which the executive resumes it. -/
inductive Paused where
  | host
  | slice
  | repair
  deriving DecidableEq, Repr

/-- Why the cores of a context are being halted (19 R412, R416). -/
inductive HaltKind where
  | none
  | halt
  | save
  deriving DecidableEq, Repr

/-- A page's backing (10 R253): host memory or the context's own space. -/
structure Backing where
  addr     : Nat
  host     : Bool
  deriving DecidableEq, Repr

/-- The tables of a context as the loader fills them at CREATE (17 R370 to R373). -/
structure Image where
  kernels  : Table Kernel
  trees    : Table (BitVec 256)
  globals  : List (Nat × Nat × Nat × List Byte)
  demands  : List Nat
  manifest : BitVec 256
  deriving DecidableEq, Repr

/-- A context (19 R409, R412). `repend` says that the SAVE under way met a pending pre-emption, which stands again if it fails. -/
structure Context where
  st          : CtxState
  func        : Nat
  tag         : Nat
  root        : Nat
  image       : Image
  trees       : Table (BitVec 256)
  table       : Option (Table Word)
  laneMask    : BitVec 32
  weight      : Nat
  pass        : Nat
  quota       : Nat
  launches    : Table Launch
  pool        : List PoolRec
  poolSeq     : Nat
  poolCap     : Nat
  pending     : Bool
  pendingAt   : Nat
  deferred    : Bool
  forced      : Bool
  repend      : Bool
  halted      : Bool
  suspended   : Bool
  paused      : Paused
  resuming    : Bool
  haltKind    : HaltKind
  saveArgs    : Nat × Nat
  saveArea    : Table Core
  faultRec    : Option (Nat × Nat)
  lastQ       : Table Nat
  backings    : Table Backing
  mapped      : Table Nat
  tracking    : Bool
  deriving DecidableEq, Repr

/-! ### Waggle lanes -/

/-- A lane's state (14 R328). -/
inductive LaneState where
  | idle
  | gathering
  | running
  deriving DecidableEq, Repr

/-- A withdrawal in the settle slots of an entry's frame (14 R329): none, by WGCAN, or by a halt. -/
inductive Settled where
  | no
  | cancelled
  | halted
  deriving DecidableEq, Repr

/-- An entry on a lane (14 R323, R326): the core, its word or none for a listener, whether it leads, whether it has withdrawn,
whether the continuation that made it has no holder any more, and whether it withdrew in the settle slots. -/
structure Entrant where
  core    : Nat
  word    : Option (BitVec 53)
  leading : Bool
  gone    : Bool
  mute    : Bool
  settled : Settled
  deriving DecidableEq, Repr

/-- A waggle lane (14 R322, R326 to R329). -/
structure Lane where
  owner    : Option Nat
  st       : LaneState
  start    : Nat
  fn       : BitVec 16
  frame    : BitVec 16
  slot     : Nat
  entrants : List Entrant
  queue    : List Entrant
  sent     : List (Entrant × Nat)
  bits     : BitVec 53
  void     : Bool
  withdraw : List (Nat × Nat)
  deriving DecidableEq, Repr

/-! ### Host side -/

/-- A window descriptor (20 R436), by its fields. -/
structure Window where
  base    : Nat
  ctr     : Nat
  members : BitVec 64
  len     : Nat
  wdog    : Nat
  home    : Nat
  rctx    : Nat
  lctx    : Nat
  epoch   : BitVec 16
  errc    : Nat
  isOpen  : Bool
  kind    : Bool
  en      : Bool
  deriving DecidableEq, Repr

/-- A notification record (19 R420). -/
structure Note where
  seq   : Word
  kind  : Nat
  ctx   : Nat
  lcore : Word
  cause : Word
  tpc   : Word
  t0    : Word
  t1    : Word
  t2    : Word
  deriving DecidableEq, Repr

/-- A function (19 R410, R420, R424; 20 R430, R442). `vec0` and `vec1` count the signals of its MSI-X vectors 0 and 1; `owed` is the
time by which its contexts outran its last slice. -/
structure Func where
  busy     : Bool
  done     : Bool
  err      : Nat
  vec0     : Nat
  vec1     : Nat
  args     : Vector Word 32
  note     : Note
  tag      : Nat
  sliceUs  : Nat
  owed     : Nat
  waitMs   : Nat
  windows  : Table Window
  resetting : Bool
  deriving DecidableEq, Repr

/-- A host queue's state (18 R400, R402). -/
inductive QState where
  | absent
  | disabled
  | empty
  | waiting
  | ready
  | error
  deriving DecidableEq, Repr

/-- A host queue: descriptor, counts and status (18 R398 to R402); `reports` are those that wait for the page of their slot, by
record number. -/
structure HQueue where
  ctx      : Nat
  repBase  : Nat
  ringBase : Nat
  hostMem  : Bool
  prio     : Nat
  log2n    : Nat
  st       : QState
  head     : Word
  tail     : Word
  sigErr   : Bool
  err      : Nat
  childRej : Nat
  pollAt   : Nat
  reports  : List (Nat × List Byte)
  deriving DecidableEq, Repr

/-- A page request (10 R249 to R251): context, page address, function, whether it stands in a reserved entry, and the cycle in
which it reaches its I/O die (01 R12). -/
structure PageReq where
  ctx      : Nat
  va       : Nat
  func     : Nat
  reserved : Bool
  dueAt    : Nat
  deriving DecidableEq, Repr

/-- A shootdown in progress and what follows it (10 R245, R248): the frame is zeroed and freed, after its contents went back
to a backing, or the copies but the home's are. -/
structure Shootdown where
  ctx     : Nat
  va      : Nat
  size    : Nat
  frame   : Nat
  free    : Bool
  copies  : Bool
  back    : Option Backing
  deriving DecidableEq, Repr

/-- A link's state (20 R433). -/
inductive LinkState where
  | down
  | training
  | up
  | degraded
  | retraining
  | failed
  deriving DecidableEq, Repr

/-- A port: 0 to 3 the host ports, 4 to 67 the scale-up ports, of which 4 to 35 stand on I/O die 16 (01 R12); `peers` are the
modules that a scale-up port reaches through its switch, `replays` the failed replays in a row, `since` a time. -/
structure Port where
  st      : LinkState
  peers   : BitVec 64
  replays : Nat
  since   : Nat
  deriving DecidableEq, Repr

/-- A contribution accepted by the switch (20 R438, R439). -/
structure Contrib where
  module  : Nat
  core    : Nat
  seq     : Nat
  op      : BitVec 4
  va      : Nat
  operand : Word
  order   : Nat
  deriving DecidableEq, Repr

/-- The switch's epoch of a reduction window of a context (20 R438 to R441): the contributions and closes of the open
epoch and of the next, the member modules, this one aside, that do not run or have a stop deferred, and the time the watchdog
started. -/
structure Epoch where
  parts    : List Contrib
  closes   : List (Nat × BitVec 4 × Word × Word)
  nextPart : List Contrib
  nextClos : List (Nat × BitVec 4 × Word × Word)
  stopped  : List Nat
  watchAt  : Option Nat
  deriving DecidableEq, Repr

/-- The module's mode (16 R365). -/
inductive Mode where
  | maintenance
  | service
  deriving DecidableEq, Repr

/-- A plain write to a replica that has not reached its die (16 R365): the die, and the bytes at their places in its stacks, which
it writes together (R358). -/
structure Late where
  die   : Nat
  cells : List Host.Cell
  deriving DecidableEq, Repr

/-- The reasons a step of this machine can fault: `clocksStopped` is raised by `step` after a thermal trip, when the module
does nothing more until a reset (21 R452); it is safe. -/
inductive Fault where
  | clocksStopped
  deriving DecidableEq, Repr

/-- The reasons a step can be refused: `notModelled` is raised by an arm of exec that has no meaning yet (safe). -/
inductive Refusal where
  | notModelled (mnemonic : String)
  deriving DecidableEq, Repr

/-- The module. `now` is the cycle and `time` the time in fifteenths of a nanosecond (19 R422); `cur` the physical id of the core
whose instruction exec runs; `agenda` the events due in this cycle; `inputs` what arrives from outside, each with its cycle;
`draws` the counter of free values; `swept` whether the deliveries of the cycle have been looked at; `lastServed` the function
whose page request was served last; `late` the plain writes that have not reached every replica; `modeLog` the changes of mode
reported to the host; `marks` the caches and buffers that hold an uncorrectable word not yet read (21 R444); `logged` the lasting
faults that the next boot harvests, `minVer` the fused minimum of the security version, `refused` whether the last boot refused its
image (21 R450). -/
structure State where
  now       : Nat
  time      : Nat
  cur       : Nat
  agenda    : List Event
  inputs    : List (Nat × Event)
  draws     : Nat
  swept     : Bool
  cores     : Table Core
  clusters  : Table Cluster
  contexts  : Table Context
  lanes     : Table Lane
  funcs     : Table Func
  queues    : Table HQueue
  hbm       : List Host.Cell
  hostMem   : List Host.Cell
  hbmBad    : List Nat
  parcelBad : List Nat
  dirty     : List Nat
  requests  : List PageReq
  waiting   : List PageReq
  tableErrs : List Nat
  shoot     : List Shootdown
  freeTable : Nat
  spareRows : Table (List Nat)
  retired   : List (Nat × Nat)
  macRows   : Table Nat
  rotations : Table (List Nat)
  sliceEnd  : Table Nat
  tags      : Table Nat
  pendTags  : List (List Nat × Nat)
  launchSeq : Nat
  lastServed : Nat
  ports     : Table Port
  modNum    : Nat
  epochs    : Table Epoch
  hdm       : Nat
  mode      : Mode
  mhz       : Nat
  power     : Nat
  overTemp  : Bool
  clockOff  : Bool
  errors    : List (HwUnit × Nat)
  lasting   : List HwUnit
  firmware  : BitVec 256
  secVer    : Nat
  attested  : Nat
  late      : List Late
  modeLog   : List Mode
  marks     : List HwUnit
  logged    : List HwUnit
  minVer    : Nat
  refused   : Bool
  deriving DecidableEq, Repr

/-! ### Reset records -/

/-- A slice at reset and at the pick-up of a continuation (07 R191). -/
def Slice.reset : Slice :=
  { st := .unbound, abound := false, bstaged := false, abase := 0, afmt := 0, arows := 0, stage := [],
    stageAt := 0, staged := 0, stageBad := false, bfmt := 0, stagedAt := 0, wm := 8, tile := 0, err := none, flags := 0, lock := none }

/-- An IDLE channel with a zeroed record (09 R222). -/
def Channel.reset : Channel :=
  { st := .idle, deal := false, dir := false, scales := false, path := 0, laddr := 0, pattern := 0, wp := 0,
    prog := 0, len := 0, total := 0, cause := 0, fpath := 0, serial := 0, edges := [], stamp := 0, after := 0, readyAt := 0 }

/-- A closed ring (13 R314). -/
def Ring.reset : Ring :=
  { isOpen := false, base := 0, size := 0, head := 0, tail := 0, landed := 0, inflight := [] }

/-- A holder in NONE (14 R330). -/
def Holder.reset : Holder :=
  { st := .none, late := false, won := false, lsn := false, req := false, empty := false, frame := 0, key := 0,
    winKey := 0, winner := 0, winL := 0 }

/-- An UNBOUND sparse binding (15 R348). -/
def Binding.reset : Binding :=
  { bound := false, stale := false, base := 0, path := 0, fmt := 0, nnz := 0, digest := 0, bitmap := [] }

/-- A core after reset (log 2 names the values the manual does not give). -/
def Core.reset : Core :=
  { ctx := none, lslot := 0, group := none, member := 0, lcore := 0, tag := 0, status := .idle, haltReq := .none,
    signal := none, abort := none, dataErr := none, wait := .none, held := none, readyAt := 0, latch := false, flagsWord := 0,
    link := 0, pc := 0, g := Vector.replicate 32 0, a := Vector.replicate 8 0, v := Vector.replicate 32 0,
    m := Vector.replicate 8 0, z := Vector.replicate 128 0, pend := [], loops := [], aside := [], md := none,
    mdAt := 0, frame := none, trapFeed := false, ops := [], handler := false, cause := 0, tpc := 0, tinfo := Vector.replicate 4 0,
    fpflags := 0, rmode := 0, bankhash := 0, rehashAt := none, vshare := 8, pass := 0,
    winbind := Vector.replicate 8 0, barmember := 0, gangstat := 0, leader := 0, resVregs := 0, resBars := 0,
    resLocal := 0, resMacros := 0, pickup := 0, cycle0 := 0, cycleAdd := 0, step := 0, xphase := false, chan := 0, nextSlot := 0, combstat := 0,
    conflicts := 0, banks := { at' := 0, used := [], waited := false }, divFree := 0, vq := [], vfly := [], replay := [], mem := [], memBad := [], retention := .awake,
    slice := Slice.reset, channels := [], serial := 0, ordered := 0, pattern := 0, tickets := [], atoms := [], aseq := 0,
    aerr := none, alane := 0, alaneAt := 0, alaneArm := false, alaneOn := false, target := Vector.replicate 16 0, arrivals := [],
    ring := Ring.reset, holders := [], binding := Binding.reset, sparse := none, transfers := [], rcvd := [],
    quiet := false, fetchVa := none, rendErr := none, fatal := none, zeroUntil := 0 }

/-- A cluster after reset (07 R178; 15 R342, R345). -/
def Cluster.reset : Cluster :=
  { combs := [], combSeq := 0, queue := [], building := [], macros := [], slotsBad := [], joint := none,
    jointAt := none, laneFree := [], lastDisp := 0, dispMask := 0, cached := [], fills := [] }

/-- The empty image of a FREE context. -/
def Image.reset : Image := { kernels := [], trees := [], globals := [], demands := [], manifest := 0 }

/-- A FREE context (19 R412; weight 18 R406). -/
def Context.reset : Context :=
  { st := .free, func := 0, tag := 0, root := 0, image := Image.reset, trees := [], table := none, laneMask := 0,
    weight := 16, pass := 0, quota := 0, launches := [], pool := [], poolSeq := 0, poolCap := 4096,
    pending := false, pendingAt := 0, deferred := false, forced := false, repend := false, halted := false,
    suspended := false, paused := .host, resuming := false, haltKind := .none, saveArgs := (0, 0), saveArea := [], faultRec := none,
    lastQ := [], backings := [], mapped := [], tracking := false }

/-- An IDLE lane of no context (14 R322). -/
def Lane.reset : Lane :=
  { owner := none, st := .idle, start := 0, fn := 0, frame := 0, slot := 0, entrants := [], queue := [], sent := [],
    bits := 0, void := false, withdraw := [] }

/-- A window descriptor after reset (20 R436). -/
def Window.reset : Window :=
  { base := 0, ctr := 0, members := 0, len := 0, wdog := 0, home := 0, rctx := 0, lctx := 0, epoch := 0, errc := 0,
    isOpen := false, kind := false, en := false }

/-- An empty notification record (19 R420). -/
def Note.reset : Note :=
  { seq := 0, kind := 0, ctx := 0, lcore := 0, cause := 0, tpc := 0, t0 := 0, t1 := 0, t2 := 0 }

/-- A function after reset (19 R410; slice 18 R405; boundary wait 19 R411). -/
def Func.reset : Func :=
  { busy := false, done := false, err := 0, vec0 := 0, vec1 := 0, args := Vector.replicate 32 0, note := Note.reset, tag := 0,
    sliceUs := 2000, owed := 0, waitMs := 20, windows := [], resetting := false }

/-- A queue that has not been created (18 R398 to R400). -/
def HQueue.reset : HQueue :=
  { ctx := 0, repBase := 0, ringBase := 0, hostMem := false, prio := 0, log2n := 0, st := .absent, head := 0,
    tail := 0, sigErr := false, err := 0, childRej := 0, pollAt := 0, reports := [] }

/-- A port that is DOWN (20 R433). -/
def Port.reset : Port := { st := .down, peers := 0, replays := 0, since := 0 }

/-- A reduction window's switch state with no epoch open (20 R438). -/
def Epoch.reset : Epoch := { parts := [], closes := [], nextPart := [], nextClos := [], stopped := [], watchAt := none }

/-- The module right after reset, before BOOT: nothing listed, every register at the value of its record (log 2). -/
def State.reset : State :=
  { now := 0, time := 0, cur := 0, agenda := [], inputs := [], draws := 0, swept := false, cores := [], clusters := [], contexts := [],
    lanes := [], funcs := [], queues := [], hbm := [], hostMem := [], hbmBad := [], parcelBad := [], dirty := [],
    requests := [], waiting := [], tableErrs := [], shoot := [], freeTable := 0, spareRows := [], retired := [],
    macRows := [], rotations := [], sliceEnd := [], tags := [], pendTags := [], launchSeq := 0, lastServed := 0, ports := [], modNum := 0,
    epochs := [], hdm := 0, mode := .service, mhz := 1250, power := 0, overTemp := false, clockOff := false,
    errors := [], lasting := [], firmware := 0, secVer := 0, attested := 0, late := [], modeLog := [], marks := [], logged := [], minVer := 0, refused := false }

end Sys2Proof.Machine
end

