-- ==== Sys2Proof/Machine/Ops.lean ====
section
/-!
DEFINITION. The named operations over tables, memory, registers and cores: reading and writing, landing of results,
the life of a hardware loop and a repeat frame, taking a trap and returning from one, and issuing an instruction.
-/

namespace Sys2Proof.Machine

/-! ### Tables -/

/-- The record of object `k`, or the reset record `d` where none is listed. -/
def look {α : Type} (d : α) (k : Nat) : Table α → α
  | [] => d
  | (i, x) :: t => if i = k then x else look d k t

/-- Sets the record of object `k`, keeping the numbers rising. -/
def put {α : Type} (k : Nat) (x : α) : Table α → Table α
  | [] => [(k, x)]
  | (i, y) :: t => if i = k then (k, x) :: t else if k < i then (k, x) :: (i, y) :: t else (i, y) :: put k x t

/-- Removes object `k`. -/
def drop {α : Type} (k : Nat) (t : Table α) : Table α := t.filter fun p => p.1 != k

/-- Whether object `k` is listed. -/
def has {α : Type} (k : Nat) (t : Table α) : Bool := t.any fun p => p.1 == k

/-- Inserts a number in a rising list without repeats. -/
def insertNat (k : Nat) (l : List Nat) : List Nat := (l.filter (· < k)) ++ k :: l.filter (k < ·)

/-! ### Memory -/

/-- The canonical form: addresses strictly rising, no listed byte equal to the blank byte. -/
def memWf : List Host.Cell → Bool
  | [] => true
  | (a, b) :: t => (b != Config.blankByte) && (t.all fun c => decide (a < c.1)) && memWf t

/-- The byte at an address; an unlisted address reads as blank (21 R448, R450). -/
def readByte (m : List Host.Cell) (a : Nat) : Byte :=
  match m with
  | [] => Config.blankByte
  | (i, b) :: t => if i = a then b else readByte t a

/-- The memory with address `a` unlisted. -/
def eraseByte (m : List Host.Cell) (a : Nat) : List Host.Cell := m.filter fun c => c.1 != a

/-- Lists a byte in its place. -/
def insertByte (m : List Host.Cell) (a : Nat) (b : Byte) : List Host.Cell :=
  (m.filter fun c => decide (c.1 < a)) ++ (a, b) :: m.filter fun c => decide (a < c.1)

/-- Writes one byte, keeping the canonical form. -/
def writeByte (m : List Host.Cell) (a : Nat) (b : Byte) : List Host.Cell :=
  if b = Config.blankByte then eraseByte m a else insertByte m a b

/-- The `n` bytes from an address upward. -/
def readBytes (m : List Host.Cell) (a : Nat) : Nat → List Byte
  | 0 => []
  | n + 1 => readByte m a :: readBytes m (a + 1) n

/-- Writes bytes from an address upward, lowest first. -/
def writeBytes (m : List Host.Cell) (a : Nat) : List Byte → List Host.Cell
  | [] => m
  | b :: bs => writeBytes (writeByte m a b) (a + 1) bs

/-- The memory with `n` bytes from `a` blank. -/
def clearRange (m : List Host.Cell) (a n : Nat) : List Host.Cell :=
  m.filter fun c => decide (c.1 < a) || decide (a + n ≤ c.1)

/-- Copies `n` bytes from `sa` of one memory to `da` of another. -/
def copyRange (dst : List Host.Cell) (da : Nat) (src : List Host.Cell) (sa n : Nat) : List Host.Cell :=
  (src.filter fun c => decide (sa ≤ c.1) && decide (c.1 < sa + n)).foldl
    (fun m c => writeByte m (c.1 - sa + da) c.2) (clearRange dst da n)

/-- The little-endian number of a byte string (00 R6). -/
def leNat : List Byte → Nat
  | [] => 0
  | b :: bs => b.toNat + 256 * leNat bs

/-- The `n` little-endian bytes of a number (00 R6). -/
def leBytes (x : Nat) : Nat → List Byte
  | 0 => []
  | n + 1 => BitVec.ofNat 8 x :: leBytes (x / 256) n

/-- The little-endian 32-bit word at an address. -/
def readWord (m : List Host.Cell) (a : Nat) : Word := BitVec.ofNat 32 (leNat (readBytes m a 4))

/-- Writes a little-endian 32-bit word. -/
def writeWord (m : List Host.Cell) (a : Nat) (w : Word) : List Host.Cell := writeBytes m a (leBytes w.toNat 4)

/-- The first multiple of `n` from `a` on. -/
def alignUp (a n : Nat) : Nat := (a + n - 1) / n * n

/-- Bits `lo` to `lo + n - 1` of a number. -/
def bitsOf (x lo n : Nat) : Nat := x / 2 ^ lo % 2 ^ n

/-! ### The state's objects -/

/-- The record of physical core `c`. -/
def State.core (s : State) (c : Nat) : Core := look Core.reset c s.cores

/-- Sets the record of a core. -/
def State.setCore (s : State) (c : Nat) (x : Core) : State := { s with cores := put c x s.cores }

/-- Changes the record of a core. -/
def State.modCore (s : State) (c : Nat) (f : Core → Core) : State := s.setCore c (f (s.core c))

/-- The record of cluster `k`. -/
def State.cluster (s : State) (k : Nat) : Cluster := look Cluster.reset k s.clusters

/-- Sets the record of a cluster. -/
def State.setCluster (s : State) (k : Nat) (x : Cluster) : State := { s with clusters := put k x s.clusters }

/-- The record of context `x`. -/
def State.ctx (s : State) (x : Nat) : Context := look Context.reset x s.contexts

/-- Sets the record of a context. -/
def State.setCtx (s : State) (x : Nat) (r : Context) : State := { s with contexts := put x r s.contexts }

/-- The record of waggle lane `n`. -/
def State.lane (s : State) (n : Nat) : Lane := look Lane.reset n s.lanes

/-- Sets the record of a lane. -/
def State.setLane (s : State) (n : Nat) (l : Lane) : State := { s with lanes := put n l s.lanes }

/-- The record of function `f`. -/
def State.func (s : State) (f : Nat) : Func := look Func.reset f s.funcs

/-- Sets the record of a function. -/
def State.setFunc (s : State) (f : Nat) (x : Func) : State := { s with funcs := put f x s.funcs }

/-- The number under which queue `q` of function `f` is listed (18: 1,024 queues per function). -/
def queueKey (f q : Nat) : Nat := f * 1024 + q

/-- The record of queue `q` of function `f`. -/
def State.queue (s : State) (f q : Nat) : HQueue := look HQueue.reset (queueKey f q) s.queues

/-- Sets the record of a queue. -/
def State.setQueue (s : State) (f q : Nat) (x : HQueue) : State := { s with queues := put (queueKey f q) x s.queues }

/-- A core's launch, where it holds one (17 R379). -/
def State.launchOf (s : State) (c : Core) : Option Launch :=
  match c.ctx with
  | none => none
  | some x => ((s.ctx x).launches.find? fun p => p.1 == c.lslot).map Prod.snd

/-- The kernel of a launch in its context's image. -/
def State.kernelOf (s : State) (c : Core) : Option Kernel :=
  match c.ctx, s.launchOf c with
  | some x, some l => ((s.ctx x).image.kernels.find? fun p => p.1 == l.record.kernel).map Prod.snd
  | _, _ => none

/-! ### Coordinates (01 R12, R13, R17, R18) -/

/-- The die of a physical core id (01 R13). -/
def dieOf (c : Nat) : Nat := c / 131072
/-- The physical row of a core (01 R13). -/
def rowOf (c : Nat) : Nat := c / 256 % 512
/-- The physical column of a core (01 R13). -/
def colOf (c : Nat) : Nat := c % 256
/-- The cluster of a core, numbered by the physical id of its core 0 divided by 8 (01 R17). -/
def clusterOf (c : Nat) : Nat := c / 8
/-- A core's index j in its cluster (01 R17). -/
def indexOf (c : Nat) : Nat := c % 8
/-- The cores of a cluster, in increasing index. -/
def clusterCores (k : Nat) : List Nat := (List.range 8).map (8 * k + ·)
/-- Whether a number names a physical core (01 R13). -/
def namesCore (c : Nat) : Bool := dieOf c < 16 && rowOf c < 264 && colOf c < 160

/-- Die boundaries crossed between compute dies (01 R12). -/
def crossings (a b : Nat) : Nat :=
  let d (x y : Nat) := if x < y then y - x else x - y
  d (a / 8) (b / 8) + d (a % 8) (b % 8)

/-- Die boundaries from a compute die to an I/O die: 16 stands next to column 0 of the dies, 17 next to column 7 (01 R10,
R12). -/
def ioCrossings (d io : Nat) : Nat := if io = 16 then d % 8 + 1 else 7 - d % 8 + 1

/-- The I/O die of a scale-up port: each carries thirty-two (01 R12). -/
def portDie (p : Nat) : Nat := if p < 36 then 16 else 17

/-- The compute die of a physical address (01 R19). -/
def homeDie (pa : Nat) : Nat := pa / 2 ^ 36 / 2

/-- Whether a row of a die is enabled (01 R14). DESIGN CHOICE (log 5): the manual does not say which 8 of the 264 physical rows
are the spares; here rows 256 to 263 are. A row 0 to 255 is enabled unless retired; a spare row is enabled when listed. -/
def rowEnabled (s : State) (die row : Nat) : Bool :=
  if row < 256 then !(s.retired.contains (die, row)) else (look [] die s.spareRows).contains row

/-- The enabled rank of a row (01 R14). -/
def rankOf (s : State) (die row : Nat) : Nat := ((List.range row).filter (rowEnabled s die)).length

/-- The enabled row of a rank (01 R14, R16). -/
def rowOfRank (s : State) (die rank : Nat) : Option Nat :=
  ((List.range 264).filter (rowEnabled s die))[rank]?

/-- The logical torus: row and column of a logical core number, where it names a core (01 R15). -/
def lcoreOk (n : Nat) : Bool := n < 2 ^ 20 && n % 2048 < 1280

/-- The default mapping (01 R16). -/
def defaultCore (s : State) (n : Nat) : Option Nat :=
  let r := n / 2048; let c := n % 2048
  if c < 1280 && r < 512 then
    let die := 8 * (r / 256) + c / 160
    (rowOfRank s die (r % 256)).map fun row => die * 131072 + row * 256 + c % 160
  else none

/-- The partition tag of a core (19 R421). -/
def tagOf (s : State) (c : Nat) : Nat := look 0 c s.tags

/-- The physical core that a context's core table grants for a logical number, where the entry is valid (17 R395). -/
def grantedCore (s : State) (x n : Nat) : Option Nat :=
  let k := s.ctx x
  let enabled (c : Nat) : Bool := namesCore c && rowEnabled s (dieOf c) (rowOf c) && tagOf s c == k.tag && k.tag != 0
  if !lcoreOk n then none
  else match k.table with
    | none => (defaultCore s n).filter enabled
    | some t =>
      let w := look 0#32 n t
      let c := bitsOf w.toNat 0 21
      if w.toNat / 2 ^ 31 == 1 && bitsOf w.toNat 21 10 == 0 && enabled c &&
          !(t.any fun p => p.1 != n && p.2.toNat / 2 ^ 31 == 1 && bitsOf p.2.toNat 0 21 == c) then some c
      else none

/-! ### Scalar, path, vector and mask registers (04 R84) -/

/-- Reads a scalar register; g0 reads as zero. -/
def Core.readG (c : Core) (r : BitVec 5) : Word := if r = 0 then 0 else c.g[r.toNat]

/-- Writes a scalar register; a write to g0 is discarded. -/
def Core.writeG (c : Core) (r : BitVec 5) (w : Word) : Core :=
  if r = 0 then c else { c with g := c.g.set r.toNat w }

/-- A result of latency 1: it stands for every later reader, and an earlier write to the register that would land no
later is overwritten (05 R104 to R106). -/
def Core.landG (c : Core) (now : Nat) (r : BitVec 5) (w : Word) : Core :=
  { c.writeG r w with pend := c.pend.filter fun p => p.reg != r || decide (now + 1 < p.landAt) }

/-- A result that lands in a later cycle (05 R104, R105). -/
def Core.queueG (c : Core) (r : BitVec 5) (w : Word) (landAt : Nat) : Core :=
  { c with pend := c.pend ++ [{ reg := r, value := w, landAt := landAt, load := none }] }

/-- The result of a load issued in cycle `now`, which lands 3 cycles later where the banks serve it at once (05 R104; 08
R208). -/
def Core.queueLoad (c : Core) (now : Nat) (r : BitVec 5) (w : Word) : Core :=
  { c with pend := c.pend ++ [{ reg := r, value := w, landAt := now + 3, load := some now }] }

/-- Lands every pending write due by cycle `t`, in program order (05 R105, R106). -/
def Core.landDue (c : Core) (t : Nat) : Core :=
  { (c.pend.filter fun p => decide (p.landAt ≤ t)).foldl (fun k p => k.writeG p.reg p.value) c with
    pend := c.pend.filter fun p => decide (t < p.landAt) }

/-- The cycle in which the last pending write lands, or `t` (05 R108). -/
def Core.lastLand (c : Core) (t : Nat) : Nat := c.pend.foldl (fun n p => max n p.landAt) t

/-- Lands every pending write (05 R130, R131). Writes land in order of cycle, then of program. -/
def Core.landAll (c : Core) : Core :=
  let times := c.pend.foldl (fun l p => insertNat p.landAt l) []
  let stepTo (k : Core) (t : Nat) : Core :=
    (c.pend.filter fun p => p.landAt == t).foldl (fun k p => k.writeG p.reg p.value) k
  { times.foldl stepTo c with pend := [] }

/-- Reads a path register. -/
def Core.readA (c : Core) (r : BitVec 3) : Path := c.a[r.toNat]

/-- Writes a path register; every such result has latency 1 (08 R203). -/
def Core.writeA (c : Core) (r : BitVec 3) (p : Path) : Core := { c with a := c.a.set r.toNat p }

/-- Reads a vector register. -/
def Core.readV (c : Core) (r : BitVec 5) : Vec := c.v[r.toNat]

/-- Writes the bits of a vector register that `mask` selects (06 R142). -/
def Core.writeV (c : Core) (r : BitVec 5) (mask value : Vec) : Core :=
  { c with v := c.v.set r.toNat ((c.readV r &&& ~~~mask) ||| (value &&& mask)) }

/-- Reads a mask register; m0 is always true. -/
def Core.readM (c : Core) (r : BitVec 3) : BitVec 8 := if r = 0 then 0xFF#8 else c.m[r.toNat]

/-- Writes a mask register; a write to m0 is discarded. -/
def Core.writeM (c : Core) (r : BitVec 3) (x : BitVec 8) : Core :=
  if r = 0 then c else { c with m := c.m.set r.toNat x }

/-- ORs flags into FPFLAGS (02 R31). -/
def Core.orFlags (c : Core) (f : Flags) : Core := { c with fpflags := c.fpflags ||| f.zeroExtend 32 }

/-- The rounding mode of RMODE (02 R30). -/
def roundingOf (w : Word) : Rounding :=
  match w.toNat % 4 with
  | 0 => .nearestEven
  | 1 => .towardZero
  | 2 => .up
  | _ => .down

/-- Element n of row r of tile t (07 R173). -/
def zIndex (t r n : Nat) : Nat := 64 * (t % 2) + 8 * (r % 8) + n % 8

/-- Reads an accumulator element. -/
def Core.readZ (c : Core) (t r n : Nat) : Word := c.z[zIndex t r n]'(by unfold zIndex; omega)

/-- Writes an accumulator element. -/
def Core.writeZ (c : Core) (t r n : Nat) (w : Word) : Core :=
  { c with z := c.z.set (zIndex t r n) w (by unfold zIndex; omega) }

/-- Writes bytes of local memory; a write that lands in the bound tile's bitmap makes the binding stale (15 R348). -/
def Core.store (c : Core) (a : Nat) (bs : List Byte) : Core :=
  { c with
    mem := writeBytes c.mem a bs
    binding := if c.binding.bound && a < c.binding.base + 64 && c.binding.base < a + bs.length
      then { c.binding with stale := true } else c.binding }

/-- Whether a range of local bytes holds a word marked uncorrectable (21 R444). -/
def Core.badWord (c : Core) (a n : Nat) : Option Nat := c.memBad.find? fun w => decide (w * 4 < a + n) && decide (a < w * 4 + 4)

/-- Sets the event latch (05 R134). -/
def Core.wake (c : Core) : Core := { c with latch := true }

/-! ### Hardware loops (05 R119 to R121) -/

/-- The test of the loops whose last word is `p`, innermost first (05 R120): the loops left and where control goes. -/
def backEdge (p : Word) : List LoopRec → List LoopRec × Option Word
  | [] => ([], none)
  | l :: t =>
    if l.last = p then
      if 1 < l.remaining then ({ l with remaining := l.remaining - 1 } :: t, some l.first) else backEdge p t
    else (l :: t, none)

/-- The core after the word at `p` completed without a taken transfer (05 R120). -/
def Core.fall (c : Core) (p : Word) : Core :=
  let r := backEdge p c.loops
  { c with loops := r.1, pc := r.2.getD (p + 4) }

/-- The core after a transfer to `t`: every loop whose body does not hold the target is popped (05 R121). -/
def Core.transfer (c : Core) (t : Word) : Core :=
  { c with pc := t, loops := c.loops.dropWhile fun l => decide (t.toNat < l.first.toNat) || decide (l.last.toNat < t.toNat) }

/-! ### Gangs (06 R167 to R172) -/

/-- GANGSTAT.ACTIVE (06 R167). -/
def Core.inGang (c : Core) : Bool := c.gangstat.getLsbD 7

/-- GANGSTAT.MEMBER (06 R167). -/
def Core.gangMember (c : Core) : Nat := c.gangstat.toNat % 8

/-- The gang's size (06 R167). -/
def Core.gangSize (c : Core) : Nat := 2 ^ (c.gangstat.toNat / 16 % 4)

/-- The members of the gang of core `id`, the leader first (06 R168). -/
def gangCores (s : State) (id : Nat) : List Nat :=
  let c := s.core id
  if c.inGang then (List.range c.gangSize).map (id - c.gangMember + ·) else [id]

/-! ### Notifications (19 R420) -/

/-- Posts a notification to a function: the record is overwritten, its count rises, and MSI-X vector 1 signals it (19 R410,
R420). -/
def State.notify (s : State) (f kind x : Nat) (lcore cause tpc t0 t1 t2 : Word) : State :=
  let r := s.func f
  s.setFunc f { r with
    vec1 := r.vec1 + 1
    note := { seq := r.note.seq + 1, kind := kind, ctx := x, lcore := lcore, cause := cause, tpc := tpc, t0 := t0, t1 := t1,
              t2 := t2 } }

/-- The number of the admin function (20 R431). -/
def adminFunc : Nat := 512

/-- The host port that carries a function, numbered 0 to 3: two on each I/O die (20 R430, R431). -/
def portOf (f : Nat) : Nat := if f = adminFunc then 0 else f % 2 * 2 + f / 2 % 2

/-- Whether a function reaches host memory through its port (20 R433, R434). -/
def hostReach (s : State) (f : Nat) : Bool :=
  let st := (look Port.reset (portOf f) s.ports).st
  st == .up || st == .degraded || st == .retraining

/-- Whether what passes between a function and its host is held in order, as the link of its port retrains (20 R433). -/
def hostHeld (s : State) (f : Nat) : Bool := (look Port.reset (portOf f) s.ports).st == .retraining

/-! ### Marked words of caches and buffers (21 R444) -/

/-- A read of units, of which one holds an uncorrectable word: the state with that mark spent; none where all are good. -/
def State.readMark (s : State) (us : List HwUnit) : Option State :=
  (s.marks.find? us.contains).map fun u => { s with marks := s.marks.erase u }

/-! ### Traps -/

/-- Trap codes (05 R127). -/
def trILLEGAL : BitVec 8 := 0x01#8
def trOVERRUN : BitVec 8 := 0x02#8
def trMISALIGNED : BitVec 8 := 0x03#8
def trPATH : BitVec 8 := 0x04#8
def trUNMAPPED : BitVec 8 := 0x05#8
def trPROTECTION : BitVec 8 := 0x06#8
def trSLOT : BitVec 8 := 0x07#8
def trTILE : BitVec 8 := 0x08#8
def trLANE : BitVec 8 := 0x09#8
def trCODE : BitVec 8 := 0x0A#8
def trDATA : BitVec 8 := 0x0B#8
def trBREAK : BitVec 8 := 0x0C#8
def trSOFT : BitVec 8 := 0x0D#8
def trABORT : BitVec 8 := 0x0E#8
def trGANG : BitVec 8 := 0x0F#8
def trHALTED : BitVec 8 := 0x10#8

/-- A trap record with the TINFO values given as numbers. -/
def mkTrap (cause : BitVec 8) (t0 t1 t2 t3 : Nat) : Trap :=
  { cause := cause, t0 := BitVec.ofNat 32 t0, t1 := BitVec.ofNat 32 t1, t2 := BitVec.ofNat 32 t2,
    t3 := BitVec.ofNat 32 t3 }

/-- The address a trap of the instruction at hand names: the modifier word's when it is prefixed (04 R95, 05 R130). -/
def Core.issueAddr (c : Core) : Word := if c.md.isSome then c.mdAt else c.pc

/-- The word of a modifier (04 R94). -/
def modifierBits (m : Modifier) : Word :=
  0x3E#6 ++ BitVec.ofBool m.neg ++ BitVec.ofBool m.abs ++ m.clamp ++ BitVec.ofBool m.sat ++
    BitVec.ofBool m.scen ++ BitVec.ofInt 6 m.scale ++ 0#14

/-- TCAUSE as a word (05 R137). -/
def Core.tcause (c : Core) : Word := BitVec.ofBool c.handler ++ 0#23 ++ c.cause

/-- The 16 bytes of a launch's report (18 R401). -/
def reportBytes (seq : Word) (status reason lslot : Nat) : List Byte :=
  leBytes seq.toNat 4 ++ leBytes status 1 ++ leBytes reason 1 ++ leBytes lslot 2 ++ List.replicate 8 0#8

/-- What follows an instruction's own effect. -/
inductive Ctl where
  | next
  | jump (target : Word) (cost : Nat)
  | branch (taken : Bool) (target : Word) (cost : Nat)
  | skip (last : Word)
  | leave
  deriving DecidableEq, Repr

/-- The outcome of an instruction in one core: it completes; it waits, with what it has done so far; it traps, having
written what the state shows; or it completes and then enters the handler (05 R130). -/
inductive Res where
  | done (s : State) (ctl : Ctl)
  | wait (s : State) (w : Wait)
  | trap (s : State) (t : Trap)
  | enter (s : State) (t : Trap)
  deriving Repr

end Sys2Proof.Machine
end

