-- ==== Sys2Proof/Machine/Paths.lean ====
section
/-!
DEFINITION. Trees, tree records and paths (08 R193 to R201): Morton order, the byte range of a block, well-formed
paths, extents, and the path a fault reports (10 R255, 09 R223).
-/

namespace Sys2Proof.Machine

/-! ### Morton order (00 R4, 08 R193) -/

/-- The number whose bit 2i is bit i of `x`, for `n` bits. -/
def spreadBits (x : Nat) : Nat → Nat
  | 0 => 0
  | n + 1 => x % 2 + 4 * spreadBits (x / 2) n

/-- The number whose bit i is bit 2i of `x`, for `n` bits. -/
def gatherBits (x : Nat) : Nat → Nat
  | 0 => 0
  | n + 1 => x % 2 + 2 * gatherBits (x / 4) n

/-- morton(row, col) (00 R4). -/
def morton (row col : Nat) : Nat := spreadBits col 32 + 2 * spreadBits row 32

/-- The row of an element index. -/
def mortonRow (m : Nat) : Nat := gatherBits (m / 2) 32

/-- The column of an element index. -/
def mortonCol (m : Nat) : Nat := gatherBits m 32

/-! ### Tree records (08 R193 to R195) -/

/-- A valid tree record. -/
structure Tree where
  fmt    : Nat
  depth  : Nat
  rows   : Nat
  cols   : Nat
  base   : Nat
  sbase  : Nat
  scaled : Bool
  clamp  : Nat
  deriving DecidableEq, Repr

/-- The byte offset of an element from the tree's base (08 R193). -/
def tb (fmt m : Nat) : Nat :=
  match fmt with
  | 0 => 4 * m
  | 1 => 2 * m
  | 2 => 2 * m
  | 5 => m / 2
  | 7 => m / 2
  | 8 => 32 * (m / 32)
  | _ => m

/-- The bytes of a block of `n` elements from element `m` (08 R199). -/
def blockLen (fmt m n : Nat) : Nat :=
  if fmt = 8 && n < 32 then 32 else if (fmt = 5 || fmt = 7) && n = 1 then 1 else tb fmt (m + n) - tb fmt m

/-- The tree's byte size (08 R193). -/
def treeSize (fmt depth : Nat) : Nat := blockLen fmt 0 (4 ^ depth)

/-- The largest positive code a CLAMP of a format may hold (08 R195); none for FP32 and BF16. -/
def clampMax (fmt : Nat) : Nat :=
  match fmt with
  | 0 => 0
  | 1 => 0
  | 2 => 0x7BFF
  | 5 => 7
  | 7 => 7
  | _ => 0x7F

/-- The tree a 32-byte record describes, where it is valid (08 R194, R195). -/
def treeOf (r : BitVec 256) : Option Tree :=
  let f (lo n : Nat) : Nat := bitsOf r.toNat lo n
  let fmt := f 200 4; let d := f 208 5; let clamp := f 240 16
  let base := f 17 36 * 2 ^ 17; let sbase := f 69 48 * 32
  let reserved := f 213 27 + f 204 4 + f 195 5 + f 185 7 + f 153 7 + f 117 11 + f 64 5 + f 53 11 + f 0 17
  if f 192 1 = 1 && reserved = 0 && fmt ≤ 8 && d ≤ 24 && 1 ≤ f 128 25 && f 128 25 ≤ 2 ^ d &&
      1 ≤ f 160 25 && f 160 25 ≤ 2 ^ d && base + treeSize fmt d ≤ 2 ^ 53 &&
      (if f 193 1 = 1 then sbase + (4 ^ d + 31) / 32 ≤ 2 ^ 53 else sbase = 0) && clamp ≤ clampMax fmt then
    some { fmt := fmt, depth := d, rows := f 128 25, cols := f 160 25, base := base, sbase := sbase,
           scaled := f 193 1 = 1, clamp := clamp }
  else none

/-- The tree of a handle in a context (08 R194 to R196). -/
def treeAt (s : State) (x h : Nat) : Option Tree := treeOf (look 0#256 h (s.ctx x).trees)

/-! ### Paths (08 R197 to R199) -/

/-- HANDLE of a path (08 R197). -/
def pHandle (p : Path) : Nat := bitsOf p.toNat 56 8
/-- DEPTH of a path (08 R197). -/
def pDepth (p : Path) : Nat := bitsOf p.toNat 51 5
/-- INDEX of a path (08 R197). -/
def pIndex (p : Path) : Nat := bitsOf p.toNat 0 48

/-- The path (h, t, x) (08 R203). -/
def mkPath (h t x : Nat) : Path := BitVec.ofNat 64 (h * 2 ^ 56 + t * 2 ^ 51 + x)

/-- The elements of a block of depth `d`. -/
def blockCount (t : Tree) (d : Nat) : Nat := 4 ^ (t.depth - d)

/-- The checks of a path: its tree, or the first reason that fails (08 R198). -/
def checkPath (s : State) (x : Nat) (p : Path) : Except Nat Tree :=
  match treeAt s x (pHandle p) with
  | none => .error 1
  | some t =>
    if bitsOf p.toNat 48 3 ≠ 0 then .error 2
    else if t.depth < pDepth p then .error 3
    else if 4 ^ t.depth ≤ pIndex p then .error 4
    else if pIndex p % blockCount t (pDepth p) ≠ 0 then .error 5
    else .ok t

/-- MALFORMED_PATH for a path (08 R198). -/
def pathTrap (reason : Nat) (p : Path) : Trap := mkTrap trPATH reason (p.toNat % 2 ^ 32) (p.toNat / 2 ^ 32) 0

/-- Offset from the tree's base and length of a path's bytes: of the elements, or of the scales (08 R199, 09 R217). -/
def pathRange (t : Tree) (p : Path) (scales : Bool) : Nat × Nat :=
  let m := pIndex p; let n := blockCount t (pDepth p)
  if scales then (m / 32, (m + n - 1) / 32 - m / 32 + 1)
  else (tb t.fmt m, blockLen t.fmt m n)

/-- Whether a position is inside the extents (08 R201). -/
def inside (t : Tree) (m : Nat) : Bool := m < 4 ^ t.depth && mortonRow m < t.rows && mortonCol m < t.cols

/-- The first element and the number of elements that a byte of the tree, or of its scale array, holds (08 R193). -/
def byteElems (fmt : Nat) (scales : Bool) (o : Nat) : Nat × Nat :=
  if scales then (32 * o, 32)
  else match fmt with
    | 0 => (o / 4, 1)
    | 1 => (o / 2, 1)
    | 2 => (o / 2, 1)
    | 5 => (2 * o, 2)
    | 7 => (2 * o, 2)
    | 8 => (32 * (o / 32), 32)
    | _ => (o, 1)

/-- Whether a byte holds only positions outside: an access skips it (08 R201). -/
def byteOutside (t : Tree) (scales : Bool) (o : Nat) : Bool :=
  let e := byteElems t.fmt scales o
  (List.range e.2).all fun i => !(inside t (e.1 + i))

/-- The bytes that the path's block at depth `d` around the byte at offset `o` covers. -/
def coverRange (t : Tree) (h d o : Nat) (scales : Bool) : Path × Nat × Nat :=
  let m := (byteElems t.fmt scales o).1
  let p := mkPath h d (m - m % blockCount t d)
  (p, pathRange t p scales)

/-- The path a fault reports: the shallowest block, of depth at least `d0`, that holds the byte at offset `o` and
satisfies the test on its byte range (10 R255, 09 R223). -/
def faultPath (t : Tree) (h d0 o : Nat) (scales : Bool) (ok : Nat → Nat → Bool) : Path :=
  let c (d : Nat) := coverRange t h d o scales
  match (List.range (t.depth + 1)).find? fun d => decide (d0 ≤ d) && ok (c d).2.1 (c d).2.2 with
  | some d => (c d).1
  | none => (c t.depth).1

/-- FPATH for a page fault in the virtual range of `len` bytes from `lo` (10 R255). -/
def pagePath (t : Tree) (h d0 o : Nat) (scales : Bool) (lo len : Nat) : Path :=
  let b := if scales then t.sbase else t.base
  faultPath t h d0 o scales fun off n => decide (lo ≤ b + off) && decide (b + off + n ≤ lo + len)

/-- FPATH for a check-value failure: the largest block of at most 256 bytes (09 R223). -/
def dataPath (t : Tree) (h d0 o : Nat) (scales : Bool) : Path :=
  faultPath t h d0 o scales fun _ n => decide (n ≤ 256)

end Sys2Proof.Machine
end

