-- ==== Sys2Proof/Machine/Translate.lean ====
section
/-!
DEFINITION. Pages and translation (10 R238 to R263): the walk of the tables in HBM, page states, permissions, page
requests, replicated pages, dirty bits, and reading and writing global memory through a context's space.
-/

namespace Sys2Proof.Machine

/-- The span of one entry of a level (10 R239). -/
def levelSpan (l : Nat) : Nat := 2 ^ 17 * 64 ^ (5 - l)

/-- The index of an address at a level (10 R239). -/
def levelIndex (l va : Nat) : Nat := va / levelSpan l % 64

/-- The bytes of a page of size field `k` (10 R238). -/
def pageSize (k : Nat) : Nat := 2 ^ 17 * 4 ^ k

/-- The level at which a page of size field `k` stands (10 R239). -/
def leafLevel (k : Nat) : Nat := 5 - k / 3

/-- j of a leaf: its group holds 4^j entries (10 R239). -/
def groupLog (k : Nat) : Nat := k - 3 * (5 - leafLevel k)

/-- An entry of a table in HBM (10 R240). -/
def readEntry (s : State) (pa : Nat) : Nat := leNat (readBytes s.hbm pa 8)

/-- Writes an entry (10 R240). -/
def writeEntry (s : State) (pa : Nat) (e : Nat) : State := { s with hbm := writeBytes s.hbm pa (leBytes e 8) }

/-- Page states (10 R244). -/
inductive PageState where
  | mapped
  | demand
  | requested
  | replicated
  | migrating
  deriving DecidableEq, Repr

/-- The state a leaf's bits encode, where they match a row of R244. -/
def leafState (e : Nat) : Option PageState :=
  match bitsOf e 6 1, bitsOf e 8 1, bitsOf e 5 1, bitsOf e 9 1 with
  | 0, 0, 0, 0 => some .mapped
  | 1, 0, 0, 0 => some .demand
  | 1, 1, 0, 0 => some .requested
  | 0, 0, 1, 0 => some .replicated
  | 0, 0, 0, 1 => some .migrating
  | _, _, _, _ => none

/-- SIZE of a leaf (10 R241). -/
def leafK (e : Nat) : Nat := bitsOf e 41 4

/-- The frame of a leaf: PFN × 2^17 (10 R241). -/
def leafFrame (e : Nat) : Nat := bitsOf e 17 24 * 2 ^ 17

/-- Whether a leaf at level `l` is well formed, apart from its group (10 R243). -/
def leafOk (l e : Nat) : Bool :=
  bitsOf e 45 8 = 0 && bitsOf e 10 7 = 0 && 3 ≤ l && leafK e ≤ 8 && leafLevel (leafK e) = l &&
  leafFrame e % pageSize (leafK e) = 0 && (leafState e).isSome

/-- The end of a walk: the leaf used with its address, or the level of the entry that is invalid or treated as such
(with the address of a malformed entry). -/
inductive Walk where
  | leaf (e pa : Nat)
  | invalid (level : Nat) (bad : Option Nat)
  deriving DecidableEq, Repr

/-- The walk from level `l` with `n` levels left (10 R239, R242, R243). -/
def walkFrom (s : State) (va table l : Nat) : Nat → Walk
  | 0 => .invalid 5 none
  | n + 1 =>
    let pa := table + 8 * levelIndex l va
    let e := readEntry s pa
    if e % 2 = 0 then .invalid l none
    else if bitsOf e 1 1 = 0 then
      if l = 5 || bitsOf e 41 23 ≠ 0 || bitsOf e 2 7 ≠ 0 then .invalid l (some pa)
      else walkFrom s va (bitsOf e 9 32 * 512) (l + 1) n
    else if !leafOk l e then .invalid l (some pa)
    else
      let i := levelIndex l va
      let first := table + 8 * (i - i % 4 ^ groupLog (leafK e))
      let e0 := readEntry s first
      let clear (x : Nat) : Nat := x - bitsOf x 8 1 * 256
      if clear e0 ≠ clear e then .invalid l (some pa)
      else if (leafState e0).isNone then .invalid l (some first) else .leaf e0 first

/-- The walk of a virtual address in a context (10 R239). -/
def walk (s : State) (x va : Nat) : Walk := walkFrom s va (s.ctx x).root 0 6

/-- Whether the parcels of a range pass their check (21 R449) and hold no word marked uncorrectable (R444). -/
def State.rangeGood (s : State) (pa n : Nat) : Bool :=
  !(s.parcelBad.any fun q => decide (q * 256 < pa + n) && decide (pa < q * 256 + 256)) &&
  !(s.hbmBad.any fun w => decide (w * 4 < pa + n) && decide (pa < w * 4 + 4))

/-- Drops the uncorrectable marks of a range of HBM: its first read raised the error (21 R444). -/
def State.clearMarks (s : State) (pa n : Nat) : State :=
  { s with hbmBad := s.hbmBad.filter fun w => !(decide (w * 4 < pa + n) && decide (pa < w * 4 + 4)) }

/-- The first entry that a walk from level `l` reads and whose word is not good, with `n` levels left (21 R444, R449). -/
def spoiltFrom (s : State) (va table l : Nat) : Nat → Option Nat
  | 0 => none
  | n + 1 =>
    let pa := table + 8 * levelIndex l va
    let e := readEntry s pa
    if !s.rangeGood pa 8 then some pa
    else if e % 4 = 1 && l < 5 then spoiltFrom s va (bitsOf e 9 32 * 512) (l + 1) n
    else none

/-- The entry that the walk of an address cannot read (21 R444, R449). -/
def walkSpoilt (s : State) (x va : Nat) : Option Nat :=
  if s.hbmBad.isEmpty && s.parcelBad.isEmpty then none else spoiltFrom s va (s.ctx x).root 0 6

/-- What an access wants (10 R246). -/
inductive Access where
  | read
  | write
  | atomic
  | fetch
  deriving DecidableEq, Repr

/-- Whether an entry permits an access by an agent of a partition (10 R246). -/
def permits (e tag : Nat) (a : Access) : Bool :=
  (match a with
   | .read => bitsOf e 2 1 = 1
   | .write => bitsOf e 3 1 = 1
   | .atomic => bitsOf e 2 2 = 3
   | .fetch => bitsOf e 4 1 = 1) && (bitsOf e 53 1 = 0 || bitsOf e 54 10 = tag)

/-- The answer to a translation: the physical address and the entry; a stall on the page at `page`; no page, with the
range U of R255; a refusal, with the page's range; or an entry at `pa` that cannot be read (21 R444). -/
inductive Xlate where
  | ok (pa e : Nat)
  | stall (page : Nat) (st : PageState)
  | unmapped (lo len : Nat) (bad : Option Nat)
  | denied (lo len : Nat)
  | spoilt (pa : Nat)
  deriving DecidableEq, Repr

/-- Translation of an access of context `x` by an agent with a partition tag (10 R239, R245, R246; 21 R444). -/
def translate (s : State) (x tag va : Nat) (a : Access) : Xlate :=
  match walkSpoilt s x va with
  | some pa => .spoilt pa
  | none =>
    match walk s x va with
    | .invalid l bad => .unmapped (va - va % levelSpan l) (levelSpan l) bad
    | .leaf e _ =>
      let sz := pageSize (leafK e)
      let page := va - va % sz
      match leafState e with
      | some .demand => .stall page .demand
      | some .requested => .stall page .requested
      | _ => if permits e tag a then .ok (leafFrame e + va % sz) e else .denied page sz

/-- The address at which die `d` reads a replicated page's byte (10 R261). -/
def replicaOf (pa d : Nat) : Nat := (2 * d + pa / 2 ^ 36 % 2) * 2 ^ 36 + pa % 2 ^ 36

/-- Where a core of die `d` reads: its own copy of a REPLICATED page, else the home (01 R20, 10 R261). -/
def readAt (pa e d : Nat) : Nat := if leafState e = some .replicated then replicaOf pa d else pa

/-- Marks the units of written bytes dirty (10 R262). -/
def State.markDirty (s : State) (pa n : Nat) : State :=
  let u := pa / 2 ^ 17
  let k := (pa + n - 1) / 2 ^ 17 - u + 1
  { s with dirty := if n = 0 then s.dirty else (List.range k).foldl (fun l i => insertNat (u + i) l) s.dirty }

/-- Writes bytes at a physical address, with its dirty bits (10 R262). The check value follows (21 R449). -/
def State.writePhys (s : State) (pa : Nat) (bs : List Byte) : State :=
  ({ s with hbm := writeBytes s.hbm pa bs }).markDirty pa bs.length

/-- Writes bytes each at its physical address (16 R358). -/
def State.writeCells (s : State) (cs : List Host.Cell) : State := cs.foldl (fun q c => q.writePhys c.1 [c.2]) s

/-- Writes bytes to every copy of a replicated page at once (10 R261). -/
def State.writeCopies (s : State) (pa : Nat) (bs : List Byte) : State :=
  (List.range 16).foldl (fun k d => k.writePhys (replicaOf pa d) bs) s

/-- The first `n` late writes take their place in their copies, in the order die 0 assigned (16 R365). -/
def State.landLate (s : State) (n : Nat) : State :=
  { (s.late.take n).foldl (fun k l => k.writeCells l.cells) s with late := s.late.drop n }

/-- Whether a late write touches one of the `n` bytes from `pa` on of a replicated page, in whichever copy. -/
def Late.touches (l : Late) (pa n : Nat) : Bool :=
  l.cells.any fun c => c.1 / 2 ^ 36 % 2 == pa / 2 ^ 36 % 2 && decide (pa % 2 ^ 36 ≤ c.1 % 2 ^ 36) && decide (c.1 % 2 ^ 36 < pa % 2 ^ 36 + n)

/-- How many of some writes stand up to the last that satisfies a test. -/
def countTo (f : Late → Bool) (ls : List Late) : Nat := ls.length - (ls.reverse.takeWhile fun l => !f l).length

/-- Late writes to bytes of a replicated page, with those before them, take their place in every copy: what follows them is an
atomic, which every write falls before or after (11 R267). -/
def State.landOver (s : State) (pa n : Nat) : State := s.landLate (countTo (fun l => l.touches pa n) s.late)

/-- Late writes to bytes of a replicated page take their place in the copy of one die, with those before them there: what follows
is a write that this die sees now (16 R360). -/
def State.landAtDie (s : State) (d pa n : Nat) : State :=
  let here := s.late.filter fun l => l.die == d
  let now := here.take (countTo (fun l => l.touches pa n) here)
  { now.foldl (fun k l => k.writeCells l.cells) s with
    late := s.late.filter (fun l => l.die != d) ++ here.drop now.length }

/-- Writes bytes of one page, each with its address, for an agent on die `d`, or on none. On a REPLICATED page a write reaches every
copy in one order in service mode; in maintenance mode it reaches die 0 and the writer's own, and the other dies later (10 R261; 16
R358, R360, R365; log 87). -/
def State.writeAt (s : State) (e : Nat) (d : Option Nat) (cs : List Host.Cell) : State :=
  if leafState e = some .replicated then
    let copy (n : Nat) : List Host.Cell := cs.map fun c => (replicaOf c.1 n, c.2)
    match s.mode with
    | .service => (List.range 16).foldl (fun q n => q.writeCells (copy n)) s
    | .maintenance =>
      let own := d.getD 0
      let s1 := cs.foldl (fun q c => q.landAtDie own c.1 1) s
      let s2 := s1.writeCells (copy 0)
      { (if own = 0 then s2 else s2.writeCells (copy own)) with
        late := s1.late ++ (((List.range 16).filter fun n => n != 0 && n != own).map fun n => { die := n, cells := copy n }) }
  else s.writeCells cs

/-- Writes a string of bytes of one page for an agent on no die. -/
def State.writePage (s : State) (pa e : Nat) (bs : List Byte) : State :=
  s.writeAt e none ((List.range bs.length).zip bs |>.map fun c => (pa + c.1, c.2))

/-- What becomes of the late writes in a cycle (16 R365): one of them may show early at its die, and some take their place, at least
one. Which they are the manual leaves open: free values choose (log 87). -/
def State.settleLate (s : State) : State :=
  let n := s.late.length
  if n = 0 then s
  else
    let w := (Config.freeWord s.draws).toNat
    let s1 : State := { s with draws := s.draws + 1 }
    let s2 := match s1.late[w % 65536 % n]? with
      | some l => s1.writeCells l.cells
      | none => s1
    s2.landLate (1 + w / 65536 % n)

/-- The whole parcels of a range of bytes: a partial write verifies them (21 R449). -/
def parcels (pa n : Nat) : Nat × Nat := (pa - pa % 256, (pa % 256 + n + 255) / 256 * 256)

/-- The frames that a write of a page's byte reaches: every copy of a REPLICATED page (10 R261). -/
def copiesOf (pa e : Nat) : List Nat :=
  if leafState e = some .replicated then (List.range 16).map (replicaOf pa) else [pa]

/-- Whether the parcels of a range of bytes are good in every copy that a write of it reaches (10 R261; 21 R449). -/
def copiesGood (s : State) (pa e n : Nat) : Bool :=
  (copiesOf pa e).all fun a => s.rangeGood (parcels a n).1 (parcels a n).2

/-- The uncorrectable marks of those parcels dropped: a failed verify has read them. -/
def State.clearCopies (s : State) (pa e n : Nat) : State :=
  (copiesOf pa e).foldl (fun q a => q.clearMarks (parcels a n).1 (parcels a n).2) s

/-! ### Page requests (10 R249 to R251) -/

/-- The I/O die that serves a function (10 R250). -/
def reqDie (f : Nat) : Nat := if f = 512 then 16 else 16 + f % 2

/-- The entry a new request of a function takes: reserved, shared, or none (10 R250). -/
def freeEntry (s : State) (f : Nat) : Option Bool :=
  let mine := s.requests.filter fun r => r.func == f
  let shared := s.requests.filter fun r => !r.reserved && reqDie r.func == reqDie f
  if f ≠ 512 && (mine.filter PageReq.reserved).length < 4 then some true
  else if shared.length < 1024 && (mine.filter fun r => !r.reserved).length < 256 then some false
  else none

/-- Sets or clears bits of the first entry of a page's group (10 R245, R249). -/
def State.editLeaf (s : State) (x va : Nat) (f : Nat → Nat) : State :=
  match walk s x va with
  | .leaf e pa =>
    let n := 4 ^ groupLog (leafK e)
    (List.range n).foldl (fun k i => writeEntry k (pa + 8 * i) (f e)) s
  | .invalid _ _ => s

/-- A bit of an entry set to a value. -/
def setBit (e i v : Nat) : Nat := e - bitsOf e i 1 * 2 ^ i + v % 2 * 2 ^ i

/-- Whether the page at an address of a context is in DEMAND. -/
def onDemand (s : State) (x va : Nat) : Bool :=
  match walk s x va with
  | .leaf e _ => leafState e == some .demand
  | .invalid _ _ => false

/-- Whether a waiting request has reached its I/O die and is next: withdrawn, as its page is no longer DEMAND, or with an entry for it
(01 R12; 10 R251). -/
def admissible (s : State) (r : PageReq) : Bool :=
  decide (r.dueAt ≤ s.now) && (!onDemand s r.ctx r.va || (freeEntry s r.func).isSome)

/-- Admits the waiting requests of an I/O die that may be, at most `n`: the oldest that an entry is free for first; one whose page
has moved on is withdrawn (10 R251). -/
def admitWaiting (die : Nat) : Nat → State → State
  | 0, s => s
  | n + 1, s =>
    match s.waiting.find? fun r => reqDie r.func == die && admissible s r with
    | none => s
    | some r =>
      let q : State := { s with waiting := s.waiting.erase r }
      admitWaiting die n (match freeEntry s r.func with
        | some b =>
          if onDemand s r.ctx r.va then
            { q.editLeaf r.ctx r.va (fun e => setBit e 8 1) with requests := s.requests ++ [{ r with reserved := b }] }
          else q
        | none => q)

/-- An access meets a page in DEMAND, which its I/O die learns in cycle `at'`: a request is posted, or waits for that cycle or for an
entry, which older requests take first; further accesses join it, one that is nearer brings it forward (10 R245, R249 to R251). -/
def State.requestAt (s0 : State) (x page : Nat) (st : PageState) (at' : Nat) : State :=
  let f := (s0.ctx x).func
  let this (r : PageReq) : Bool := r.ctx == x && r.va == page
  match st with
  | .demand =>
    let s := admitWaiting (reqDie f) s0.waiting.length s0
    if !onDemand s x page then s
    else if s.waiting.any this then
      { s with waiting := s.waiting.map fun r => if this r then { r with dueAt := min r.dueAt at' } else r }
    else match (if at' ≤ s.now then freeEntry s f else none) with
      | some b =>
        { s.editLeaf x page (fun e => setBit e 8 1) with
          requests := s.requests ++ [{ ctx := x, va := page, func := f, reserved := b, dueAt := at' }] }
      | none => { s with waiting := s.waiting ++ [{ ctx := x, va := page, func := f, reserved := false, dueAt := at' }] }
  | _ => s0

/-- A request of the executive, which stands on the I/O dies. -/
def State.requestPage (s : State) (x page : Nat) (st : PageState) : State := s.requestAt x page st s.now

/-- A request from a compute die, which crosses to the I/O die of its function (01 R12). -/
def State.requestFrom (s : State) (die x page : Nat) (st : PageState) : State :=
  s.requestAt x page st (s.now + 12 * ioCrossings die (reqDie (s.ctx x).func))

/-- A walk's table error is posted to the executive (10 R243). -/
def State.tableError (s : State) (bad : Option Nat) : State :=
  match bad with
  | none => s
  | some pa => { s with tableErrs := s.tableErrs ++ [pa] }

/-- Posts the table error of the first of some addresses of a context whose walk fails, where a malformed entry stopped it (10
R243). -/
def State.walkErrors (s : State) (x : Nat) (vas : List Nat) : State :=
  match vas.findSome? fun va => match walk s x va with
      | .invalid _ bad => some bad
      | .leaf _ _ => none with
  | some bad => s.tableError bad
  | none => s

/-! ### Reading and writing a context's space whole (counters, rings, reports; 18 R399, R403) -/

/-- The bytes of a range of a context's space, each through its page, where every page is resident and readable and every word
good (21 R444, R449). -/
def readVirt (s : State) (x tag va : Nat) : Nat → Option (List Byte)
  | 0 => some []
  | n + 1 =>
    match translate s x tag va .read with
    | .ok pa _ => if s.rangeGood pa 1 then (readVirt s x tag (va + 1) n).map (readByte s.hbm pa :: ·) else none
    | _ => none

/-- Writes bytes of one page of a context's space, where it is resident and writable and its parcels pass their check (21 R449). -/
def writePart (s : State) (x tag va : Nat) (bs : List Byte) : Option State :=
  if bs.isEmpty then some s
  else match translate s x tag va .write with
    | .ok pa e => if copiesGood s pa e bs.length then some (s.writePage pa e bs) else none
    | _ => none

/-- Writes a range of at most 128 KiB of a context's space, whole or not at all. -/
def writeVirt (s : State) (x tag va : Nat) (bs : List Byte) : Option State :=
  let n := 2 ^ 17 - va % 2 ^ 17
  (writePart s x tag va (bs.take n)).bind fun q => writePart q x tag (va + n) (bs.drop n)

/-- The uncorrectable marks of the words of a range dropped, and of the entries that lead to it: the first read has met them (21
R444). -/
def State.clearVirt (s : State) (x tag va n : Nat) : State :=
  (List.range n).foldl (fun q i => match translate q x tag (va + i) .read with
    | .ok pa _ => q.clearMarks pa 1
    | .spoilt pa => q.clearMarks pa 8
    | _ => q) s

/-! ### Windows (20 R436, R437) -/

/-- The number under which window `w` of function `f` is known to the switch. -/
def windowKey (f w : Nat) : Nat := f * 64 + w

/-- The window in force that an address of context `x` falls in, its counter included (20 R437). -/
def windowAt (s : State) (x va : Nat) : Option (Nat × Window) :=
  (s.func (s.ctx x).func).windows.find? fun p =>
    p.2.en && p.2.lctx == x &&
      ((decide (p.2.base ≤ va) && decide (va < p.2.base + 2 ^ 17 * p.2.len)) ||
       (p.2.kind && decide (p.2.ctr ≤ va) && decide (va < p.2.ctr + 4)))

/-- Whether a scale-up port reaches a module (20 R434, R435). -/
def reaches (s : State) (m : Nat) : Bool :=
  s.ports.any fun p => decide (4 ≤ p.1) && (p.2.st == .up || p.2.st == .degraded || p.2.st == .retraining) &&
    p.2.peers.getLsbD m

/-- Where an access of a context goes: to its own tables here, to another context's tables on this module (a window
homed here), to a module that a port reaches, or nowhere (20 R434, R437). -/
inductive Route where
  | here (x : Nat)
  | remote
  | lost
  deriving DecidableEq, Repr

/-- The route of an access (20 R437). -/
def routeOf (s : State) (x va : Nat) : Route :=
  match windowAt s x va with
  | none => .here x
  | some (_, w) => if w.home = s.modNum then .here w.rctx else if reaches s w.home then .remote else .lost

/-- The module to which a window forwards an access of a context (20 R437). -/
def homeModule (s : State) (x va : Nat) : Nat := ((windowAt s x va).map fun p => p.2.home).getD s.modNum

/-- The port that now carries traffic to module `m`: any, where that is this module (20 R434, R438). -/
def portTo (s : State) (m : Nat) : Option Nat :=
  (s.ports.find? fun p => decide (4 ≤ p.1) && (p.2.st == .up || p.2.st == .degraded) &&
    (m == s.modNum || p.2.peers.getLsbD m)).map Prod.fst

/-- Whether traffic to module `m` is held while the links to it retrain (20 R433). -/
def linkHeld (s : State) (m : Nat) : Bool := m != s.modNum && reaches s m && (portTo s m).isNone

/-- Whether an access of a context is forwarded over links that retrain, which hold it (20 R433, R437). -/
def forwardHeld (s : State) (x va : Nat) : Bool := linkHeld s (homeModule s x va)

/-- The die crossings from core `c` to a module: those to the I/O die of the port (01 R12). -/
def outCrossings (s : State) (c m : Nat) : Nat := ((portTo s m).map fun p => ioCrossings (dieOf c) (portDie p)).getD 0

/-- The die crossings from core `c` of context `x` to where an address is read or written: the home, for a read of a REPLICATED page
the core's own die, for a forwarded access the I/O die of its port (01 R12, R20; 20 R437). -/
def crossingsTo (s : State) (c x va : Nat) (write : Bool) : Nat :=
  match routeOf s x va with
  | .here y => match translate s y (s.ctx x).tag va (if write then .write else .read) with
    | .ok pa e => crossings (dieOf c) (homeDie (if write then pa else readAt pa e (dieOf c)))
    | _ => 0
  | _ => outCrossings s c (homeModule s x va)

end Sys2Proof.Machine
end

