-- ==== Sys2Proof/Machine/Operands.lean ====
section
/-!
DEFINITION. Operand forms: which instructions are arithmetic and which enter the vector queue, the register fields a
repeat frame shifts, the vector registers an instruction names, and the checks of local ranges and of the limits a
kernel declares (04 R90, R93; 05 R122, R128, R129).
-/

namespace Sys2Proof.Machine

/-- The arithmetic instructions (04 R93); no other is. -/
def isArith : Instr → Bool
  | .add _ _ _ => true
  | .sub _ _ _ => true
  | .and _ _ _ => true
  | .or _ _ _ => true
  | .xor _ _ _ => true
  | .andn _ _ _ => true
  | .shl _ _ _ => true
  | .shr _ _ _ => true
  | .sra _ _ _ => true
  | .slt _ _ _ => true
  | .sltu _ _ _ => true
  | .seq _ _ _ => true
  | .sne _ _ _ => true
  | .min _ _ _ => true
  | .max _ _ _ => true
  | .minu _ _ _ => true
  | .maxu _ _ _ => true
  | .sel _ _ _ => true
  | .clz _ _ => true
  | .popc _ _ => true
  | .brev _ _ => true
  | .addi _ _ _ => true
  | .andi _ _ _ => true
  | .ori _ _ _ => true
  | .xori _ _ _ => true
  | .slti _ _ _ => true
  | .sltiu _ _ _ => true
  | .shli _ _ _ => true
  | .shri _ _ _ => true
  | .srai _ _ _ => true
  | .mul _ _ _ => true
  | .mulh _ _ _ => true
  | .mulhu _ _ _ => true
  | .div _ _ _ => true
  | .divu _ _ _ => true
  | .rem _ _ _ => true
  | .remu _ _ _ => true
  | .vadd _ _ _ _ => true
  | .vsub _ _ _ _ => true
  | .vmul _ _ _ _ => true
  | .vfma _ _ _ _ => true
  | .vfms _ _ _ _ => true
  | .vfnma _ _ _ _ => true
  | .vmin _ _ _ _ => true
  | .vmax _ _ _ _ => true
  | .vaddBf _ _ _ _ => true
  | .vsubBf _ _ _ _ => true
  | .vmulBf _ _ _ _ => true
  | .vfmaBf _ _ _ _ => true
  | .vfmsBf _ _ _ _ => true
  | .vfnmaBf _ _ _ _ => true
  | .vminBf _ _ _ _ => true
  | .vmaxBf _ _ _ _ => true
  | .viadd _ _ _ _ _ => true
  | .visub _ _ _ _ _ => true
  | .vimul _ _ _ _ _ => true
  | .vimulh _ _ _ _ _ => true
  | .vand _ _ _ _ _ => true
  | .vor _ _ _ _ _ => true
  | .vxor _ _ _ _ _ => true
  | .vshl _ _ _ _ _ => true
  | .vshr _ _ _ _ _ => true
  | .vsra _ _ _ _ _ => true
  | .vimin _ _ _ _ _ => true
  | .vimax _ _ _ _ _ => true
  | .vredadd _ _ _ => true
  | .vredmax _ _ _ => true
  | .vredmin _ _ _ => true
  | .vrediadd _ _ _ => true
  | .vcvtfb _ _ _ _ => true
  | .vcvtbf _ _ _ _ => true
  | .vcvtfh _ _ _ _ => true
  | .vcvthf _ _ _ _ => true
  | .vcvtfi _ _ _ => true
  | .vcvtif _ _ _ => true
  | .vexp2 _ _ _ => true
  | .vlog2 _ _ _ => true
  | .vrcp _ _ _ => true
  | .vrsq _ _ _ => true
  | .vtanh _ _ _ => true
  | _ => false

/-- The instructions that enter the vector queue (06 R143; 07 R189; 11 R277). -/
def isVector : Instr → Bool
  | .vadd _ _ _ _ => true
  | .vsub _ _ _ _ => true
  | .vmul _ _ _ _ => true
  | .vfma _ _ _ _ => true
  | .vfms _ _ _ _ => true
  | .vfnma _ _ _ _ => true
  | .vmin _ _ _ _ => true
  | .vmax _ _ _ _ => true
  | .vaddBf _ _ _ _ => true
  | .vsubBf _ _ _ _ => true
  | .vmulBf _ _ _ _ => true
  | .vfmaBf _ _ _ _ => true
  | .vfmsBf _ _ _ _ => true
  | .vfnmaBf _ _ _ _ => true
  | .vminBf _ _ _ _ => true
  | .vmaxBf _ _ _ _ => true
  | .viadd _ _ _ _ _ => true
  | .visub _ _ _ _ _ => true
  | .vimul _ _ _ _ _ => true
  | .vimulh _ _ _ _ _ => true
  | .vand _ _ _ _ _ => true
  | .vor _ _ _ _ _ => true
  | .vxor _ _ _ _ _ => true
  | .vshl _ _ _ _ _ => true
  | .vshr _ _ _ _ _ => true
  | .vsra _ _ _ _ _ => true
  | .vimin _ _ _ _ _ => true
  | .vimax _ _ _ _ _ => true
  | .vcmpeq _ _ _ _ => true
  | .vcmpne _ _ _ _ => true
  | .vcmplt _ _ _ _ => true
  | .vcmple _ _ _ _ => true
  | .vicmpeq _ _ _ _ => true
  | .vicmplt _ _ _ _ => true
  | .vicmpltu _ _ _ _ => true
  | .vsel _ _ _ _ => true
  | .vperm _ _ _ _ => true
  | .vbcast _ _ _ => true
  | .vins _ _ _ => true
  | .vmand _ _ _ => true
  | .vmor _ _ _ => true
  | .vmnot _ _ => true
  | .vredadd _ _ _ => true
  | .vredmax _ _ _ => true
  | .vredmin _ _ _ => true
  | .vrediadd _ _ _ => true
  | .vmov _ _ _ => true
  | .vld _ _ _ => true
  | .vst _ _ _ => true
  | .vlds _ _ _ => true
  | .vsts _ _ _ => true
  | .vgth _ _ _ _ => true
  | .vsct _ _ _ _ => true
  | .vcvtfb _ _ _ _ => true
  | .vcvtbf _ _ _ _ => true
  | .vcvtfh _ _ _ _ => true
  | .vcvthf _ _ _ _ => true
  | .vcvtfi _ _ _ => true
  | .vcvtif _ _ _ => true
  | .vfxenc _ _ => true
  | .vfxdec _ _ _ => true
  | .vexp2 _ _ _ => true
  | .vlog2 _ _ _ => true
  | .vrcp _ _ _ => true
  | .vrsq _ _ _ => true
  | .vtanh _ _ _ => true
  | .mrd _ _ _ => true
  | .vaadd _ _ _ _ _ => true
  | .vaand _ _ _ _ _ => true
  | .vaor _ _ _ _ _ => true
  | .vaxor _ _ _ _ _ => true
  | .vamin _ _ _ _ _ => true
  | .vamax _ _ _ _ _ => true
  | .vaminu _ _ _ _ _ => true
  | .vamaxu _ _ _ _ _ => true
  | .vafadd _ _ _ _ _ => true
  | _ => false

/-- An instruction of a repeat frame with its register fields shifted (05 R122); only arithmetic instructions are
captured. -/
def shiftRegs (dd da db : BitVec 5) (i : Instr) : Instr :=
  match i with
  | .add d a b => .add (d + dd) (a + da) (b + db)
  | .sub d a b => .sub (d + dd) (a + da) (b + db)
  | .and d a b => .and (d + dd) (a + da) (b + db)
  | .or d a b => .or (d + dd) (a + da) (b + db)
  | .xor d a b => .xor (d + dd) (a + da) (b + db)
  | .andn d a b => .andn (d + dd) (a + da) (b + db)
  | .shl d a b => .shl (d + dd) (a + da) (b + db)
  | .shr d a b => .shr (d + dd) (a + da) (b + db)
  | .sra d a b => .sra (d + dd) (a + da) (b + db)
  | .slt d a b => .slt (d + dd) (a + da) (b + db)
  | .sltu d a b => .sltu (d + dd) (a + da) (b + db)
  | .seq d a b => .seq (d + dd) (a + da) (b + db)
  | .sne d a b => .sne (d + dd) (a + da) (b + db)
  | .min d a b => .min (d + dd) (a + da) (b + db)
  | .max d a b => .max (d + dd) (a + da) (b + db)
  | .minu d a b => .minu (d + dd) (a + da) (b + db)
  | .maxu d a b => .maxu (d + dd) (a + da) (b + db)
  | .sel d a b => .sel (d + dd) (a + da) (b + db)
  | .clz d a => .clz (d + dd) (a + da)
  | .popc d a => .popc (d + dd) (a + da)
  | .brev d a => .brev (d + dd) (a + da)
  | .addi d a i => .addi (d + dd) (a + da) i
  | .andi d a i => .andi (d + dd) (a + da) i
  | .ori d a i => .ori (d + dd) (a + da) i
  | .xori d a i => .xori (d + dd) (a + da) i
  | .slti d a i => .slti (d + dd) (a + da) i
  | .sltiu d a i => .sltiu (d + dd) (a + da) i
  | .shli d a n => .shli (d + dd) (a + da) n
  | .shri d a n => .shri (d + dd) (a + da) n
  | .srai d a n => .srai (d + dd) (a + da) n
  | .mul d a b => .mul (d + dd) (a + da) (b + db)
  | .mulh d a b => .mulh (d + dd) (a + da) (b + db)
  | .mulhu d a b => .mulhu (d + dd) (a + da) (b + db)
  | .div d a b => .div (d + dd) (a + da) (b + db)
  | .divu d a b => .divu (d + dd) (a + da) (b + db)
  | .rem d a b => .rem (d + dd) (a + da) (b + db)
  | .remu d a b => .remu (d + dd) (a + da) (b + db)
  | .vadd d a b m => .vadd (d + dd) (a + da) (b + db) m
  | .vsub d a b m => .vsub (d + dd) (a + da) (b + db) m
  | .vmul d a b m => .vmul (d + dd) (a + da) (b + db) m
  | .vfma d a b m => .vfma (d + dd) (a + da) (b + db) m
  | .vfms d a b m => .vfms (d + dd) (a + da) (b + db) m
  | .vfnma d a b m => .vfnma (d + dd) (a + da) (b + db) m
  | .vmin d a b m => .vmin (d + dd) (a + da) (b + db) m
  | .vmax d a b m => .vmax (d + dd) (a + da) (b + db) m
  | .vaddBf d a b m => .vaddBf (d + dd) (a + da) (b + db) m
  | .vsubBf d a b m => .vsubBf (d + dd) (a + da) (b + db) m
  | .vmulBf d a b m => .vmulBf (d + dd) (a + da) (b + db) m
  | .vfmaBf d a b m => .vfmaBf (d + dd) (a + da) (b + db) m
  | .vfmsBf d a b m => .vfmsBf (d + dd) (a + da) (b + db) m
  | .vfnmaBf d a b m => .vfnmaBf (d + dd) (a + da) (b + db) m
  | .vminBf d a b m => .vminBf (d + dd) (a + da) (b + db) m
  | .vmaxBf d a b m => .vmaxBf (d + dd) (a + da) (b + db) m
  | .viadd d a b m w => .viadd (d + dd) (a + da) (b + db) m w
  | .visub d a b m w => .visub (d + dd) (a + da) (b + db) m w
  | .vimul d a b m w => .vimul (d + dd) (a + da) (b + db) m w
  | .vimulh d a b m w => .vimulh (d + dd) (a + da) (b + db) m w
  | .vand d a b m w => .vand (d + dd) (a + da) (b + db) m w
  | .vor d a b m w => .vor (d + dd) (a + da) (b + db) m w
  | .vxor d a b m w => .vxor (d + dd) (a + da) (b + db) m w
  | .vshl d a b m w => .vshl (d + dd) (a + da) (b + db) m w
  | .vshr d a b m w => .vshr (d + dd) (a + da) (b + db) m w
  | .vsra d a b m w => .vsra (d + dd) (a + da) (b + db) m w
  | .vimin d a b m w => .vimin (d + dd) (a + da) (b + db) m w
  | .vimax d a b m w => .vimax (d + dd) (a + da) (b + db) m w
  | .vredadd d a m => .vredadd (d + dd) (a + da) m
  | .vredmax d a m => .vredmax (d + dd) (a + da) m
  | .vredmin d a m => .vredmin (d + dd) (a + da) m
  | .vrediadd d a m => .vrediadd (d + dd) (a + da) m
  | .vcvtfb d a b m => .vcvtfb (d + dd) (a + da) (b + db) m
  | .vcvtbf d a q m => .vcvtbf (d + dd) (a + da) q m
  | .vcvtfh d a b m => .vcvtfh (d + dd) (a + da) (b + db) m
  | .vcvthf d a q m => .vcvthf (d + dd) (a + da) q m
  | .vcvtfi d a m => .vcvtfi (d + dd) (a + da) m
  | .vcvtif d a m => .vcvtif (d + dd) (a + da) m
  | .vexp2 d a m => .vexp2 (d + dd) (a + da) m
  | .vlog2 d a m => .vlog2 (d + dd) (a + da) m
  | .vrcp d a m => .vrcp (d + dd) (a + da) m
  | .vrsq d a m => .vrsq (d + dd) (a + da) m
  | .vtanh d a m => .vtanh (d + dd) (a + da) m
  | other => other

/-- The vector registers an instruction names, in the order of its fields (06 R163; 05 R128). -/
def vregsNamed (i : Instr) : List (BitVec 5) :=
  match i with
  | .vadd d a b _ => [d, a, b]
  | .vsub d a b _ => [d, a, b]
  | .vmul d a b _ => [d, a, b]
  | .vfma d a b _ => [d, a, b]
  | .vfms d a b _ => [d, a, b]
  | .vfnma d a b _ => [d, a, b]
  | .vmin d a b _ => [d, a, b]
  | .vmax d a b _ => [d, a, b]
  | .vaddBf d a b _ => [d, a, b]
  | .vsubBf d a b _ => [d, a, b]
  | .vmulBf d a b _ => [d, a, b]
  | .vfmaBf d a b _ => [d, a, b]
  | .vfmsBf d a b _ => [d, a, b]
  | .vfnmaBf d a b _ => [d, a, b]
  | .vminBf d a b _ => [d, a, b]
  | .vmaxBf d a b _ => [d, a, b]
  | .viadd d a b _ _ => [d, a, b]
  | .visub d a b _ _ => [d, a, b]
  | .vimul d a b _ _ => [d, a, b]
  | .vimulh d a b _ _ => [d, a, b]
  | .vand d a b _ _ => [d, a, b]
  | .vor d a b _ _ => [d, a, b]
  | .vxor d a b _ _ => [d, a, b]
  | .vshl d a b _ _ => [d, a, b]
  | .vshr d a b _ _ => [d, a, b]
  | .vsra d a b _ _ => [d, a, b]
  | .vimin d a b _ _ => [d, a, b]
  | .vimax d a b _ _ => [d, a, b]
  | .vcmpeq _ a b _ => [a, b]
  | .vcmpne _ a b _ => [a, b]
  | .vcmplt _ a b _ => [a, b]
  | .vcmple _ a b _ => [a, b]
  | .vicmpeq _ a b _ => [a, b]
  | .vicmplt _ a b _ => [a, b]
  | .vicmpltu _ a b _ => [a, b]
  | .vsel d a b _ => [d, a, b]
  | .vperm d a b _ => [d, a, b]
  | .vbcast d _ _ => [d]
  | .vmovs _ a _ => [a]
  | .vins d _ _ => [d]
  | .vredadd d a _ => [d, a]
  | .vredmax d a _ => [d, a]
  | .vredmin d a _ => [d, a]
  | .vrediadd d a _ => [d, a]
  | .vmov d a _ => [d, a]
  | .vld d _ _ => [d]
  | .vst d _ _ => [d]
  | .vlds d _ _ => [d]
  | .vsts d _ _ => [d]
  | .vgth d _ x _ => [d, x]
  | .vsct d _ x _ => [d, x]
  | .vcvtfb d a b _ => [d, a, b]
  | .vcvtbf d a _ _ => [d, a]
  | .vcvtfh d a b _ => [d, a, b]
  | .vcvthf d a _ _ => [d, a]
  | .vcvtfi d a _ => [d, a]
  | .vcvtif d a _ => [d, a]
  | .vfxenc d a => [d, a, a + 1, a + 2, a + 3]
  | .vfxdec d a _ => [d, a]
  | .vexp2 d a _ => [d, a]
  | .vlog2 d a _ => [d, a]
  | .vrcp d a _ => [d, a]
  | .vrsq d a _ => [d, a]
  | .vtanh d a _ => [d, a]
  | .mrd d _ _ => [d]
  | .vaadd d _ b _ _ => [d, b]
  | .vaand d _ b _ _ => [d, b]
  | .vaor d _ b _ _ => [d, b]
  | .vaxor d _ b _ _ => [d, b]
  | .vamin d _ b _ _ => [d, b]
  | .vamax d _ b _ _ => [d, b]
  | .vaminu d _ b _ _ => [d, b]
  | .vamaxu d _ b _ _ => [d, b]
  | .vafadd d _ b _ _ => [d, b]
  | _ => []

/-- RESOURCE_OVERRUN (05 R129): kind, number or address, limit. -/
def overrun (kind n limit : Nat) : Trap := mkTrap trOVERRUN kind n limit 0

/-- The check of the vector registers named against RES_VREGS (05 R128). -/
def vregTrap (c : Core) (rs : List (BitVec 5)) : Option Trap :=
  (rs.find? fun r => decide (c.resVregs.toNat ≤ r.toNat)).map fun r => overrun 1 r.toNat c.resVregs.toNat

/-- The check of a captured instruction in every pass of a frame (05 R123). -/
def frameTrap (c : Core) (f : Frame) (i : Instr) : Option Trap :=
  let passOf (j : Nat) : Instr :=
    shiftRegs (BitVec.ofNat 5 (j * f.sd)) (BitVec.ofNat 5 (j * f.sa)) (BitVec.ofNat 5 (j * f.sb)) i
  (List.range f.count).findSome? fun j => vregTrap c (vregsNamed (passOf j))

/-- The checks of a range of local bytes (05 R128, R129): outside raw local memory, beyond RES_LOCAL, misaligned. -/
def localTrap (c : Core) (a size align reason : Nat) : Option Trap :=
  if 0x8000 < a + size then some (mkTrap trPROTECTION (max a 0x8000) reason 0 0)
  else if c.resLocal.toNat < a + size then some (overrun 3 (max a c.resLocal.toNat) c.resLocal.toNat)
  else if a % align ≠ 0 then some (mkTrap trMISALIGNED a align 0 0)
  else none

/-- The checks of a scalar access (05 R117): the address alone is compared. -/
def scalarTrap (c : Core) (a size : Nat) : Option Trap :=
  if 0x8000 ≤ a then some (mkTrap trPROTECTION a 2 0 0)
  else if c.resLocal.toNat ≤ a then some (overrun 3 a c.resLocal.toNat)
  else if a % size ≠ 0 then some (mkTrap trMISALIGNED a size 0 0)
  else none

/-- Runs the rest of an instruction unless a check trapped. -/
def orTrap (s : State) (t : Option Trap) (k : Unit → Res) : Res :=
  match t with
  | some t => .trap s t
  | none => k ()

/-- A signed byte, half or word offset added to a base register (05 R117). -/
def addrOf (base : Word) (o : BitVec 13) : Word := base + o.signExtend 32

end Sys2Proof.Machine
end

