-- ==== Sys2Proof/Machine/Issue.lean ====
section
/-!
DEFINITION. Issuing an instruction: the conditions of issue, taking a trap and returning from one, fault stops,
disbanding a gang, repeat frames, macro operations, and the completion of an instruction in one core or in every member
of a gang (05 R103 to R131; 06 R170 to R172; 17 R376; 19 R418).
-/

namespace Sys2Proof.Machine

/-! ### Conditions -/

/-- A frame in capture: the sequencer is taking the block's instructions (05 R122). -/
def Core.capturing (c : Core) : Bool :=
  match c.frame with
  | none => false
  | some f => f.pass == 0

/-- A scalar frame replaying (05 R124). -/
def Core.replaying (c : Core) : Bool :=
  match c.frame with
  | none => false
  | some f => f.pass != 0 && !f.feeding

/-- A vector frame feeding its passes (05 R124). -/
def Core.feeds (c : Core) : Bool :=
  match c.frame with
  | none => false
  | some f => f.feeding

/-- No macro call, no frame and no prefixed pair is half done: where halts may fall (05 R103, R124, R125; 04 R95). -/
def Core.whole (c : Core) : Bool := c.md.isNone && c.ops.isEmpty && !c.capturing && !c.replaying

/-- An instruction boundary (05 R103): nothing half done and no wait under way. -/
def Core.atBoundary (c : Core) : Bool := c.whole && c.wait == .none

/-- Whether core `c` issues in cycle `now`: it runs, its cycle has come, it fetches for itself, and neither a rehash nor a trap
that stops it is under way (05 R103, R130; 06 R170; 08 R206). -/
def Core.mayIssue (c : Core) (now : Nat) : Bool :=
  c.status == .running && decide (c.readyAt ≤ now) && !(c.inGang && c.gangMember != 0) && !c.trapFeed && c.rehashAt.isNone &&
    c.fatal.isNone

/-! ### Reports and fault stops -/

/-- The page that a report of record `n` waits for, where its slot is on demand (10 R249; 18 R401). -/
def reportStall (s : State) (r : HQueue) (n : Nat) : Option (Nat × PageState) :=
  if r.hostMem then none
  else match translate s r.ctx (s.ctx r.ctx).tag (r.repBase + 16 * (n % 2 ^ r.log2n)) .write with
    | .stall page st => some (page, st)
    | _ => none

/-- What the write of a report that fails has met at its slot: the table error that stopped its walk, uncorrectable words (10 R243; 21
R444, R449). -/
def State.slotFails (s : State) (x tag a : Nat) : State :=
  let s1 := s.walkErrors x ((List.range 16).map (a + ·))
  match translate s1 x tag a .write with
  | .ok pa e => s1.clearCopies pa e 16
  | .spoilt p => s1.clearMarks p 8
  | _ => s1

/-- Writes a report whole; one that cannot be written puts its queue in ERROR (18 R399, R401, R402). -/
def State.writeReport (s : State) (f q n : Nat) (bs : List Byte) : State :=
  let r := s.queue f q
  let a := r.repBase + 16 * (n % 2 ^ r.log2n)
  let failed : State := if r.st = .disabled then s else s.setQueue f q { r with st := .error, err := 3 }
  if r.hostMem then (if hostReach s f then { s with hostMem := writeBytes s.hostMem a bs } else failed)
  else (writeVirt s r.ctx (s.ctx r.ctx).tag a bs).getD (failed.slotFails r.ctx (s.ctx r.ctx).tag a)

/-- Writes the reports of a queue that wait, in order, up to one whose page is on demand; to host memory none while the link retrains
(20 R433). -/
def flushReports (f q : Nat) : Nat → State → State
  | 0, s => s
  | k + 1, s =>
    let r := s.queue f q
    match r.reports with
    | [] => s
    | (n, bs) :: rest =>
      if r.hostMem && hostHeld s f then s
      else match reportStall s r n with
      | some (page, st) => s.requestPage r.ctx page st
      | none => flushReports f q k ((s.setQueue f q { r with reports := rest }).writeReport f q n bs)

/-- The report of a launch's record: written after those of its queue before it (18 R401). -/
def State.report (s : State) (origin : Option (Nat × Nat × Nat)) (status reason lslot : Nat) : State :=
  match origin with
  | none => s
  | some (f, q, n) =>
    let r := s.queue f q
    let reports := r.reports ++ [(n, reportBytes (BitVec.ofNat 32 n) status reason lslot)]
    flushReports f q reports.length (s.setQueue f q { r with reports := reports })

/-- What a report waits for before it can be written at once, with the page requested: the reports before it, the link to its host, or
its own page. -/
def reportWaits (s : State) (origin : Option (Nat × Nat × Nat)) : Option State :=
  match origin with
  | none => none
  | some (f, q, n) =>
    let r := s.queue f q
    if !r.reports.isEmpty || (r.hostMem && hostHeld s f) then some s
    else (reportStall s r n).map fun p => s.requestPage r.ctx p.1 p.2

/-- Every queue's waiting reports, tried again. -/
def State.settleReports (s : State) : State :=
  s.queues.foldl (fun k p => flushReports (p.1 / 1024) (p.1 % 1024) p.2.reports.length k) s

/-- Sets the launch in slot `l` of context `x`. -/
def State.setLaunch (s : State) (x l : Nat) (r : Launch) : State :=
  s.setCtx x { s.ctx x with launches := put l r (s.ctx x).launches }

/-- The launch in slot `l` of a context. -/
def State.launch (s : State) (x l : Nat) : Option Launch := ((s.ctx x).launches.find? fun p => p.1 == l).map Prod.snd

/-- The physical cores that hold a continuation or a place of context `x`. -/
def coresOf (s : State) (x : Nat) : List Nat := (s.cores.filter fun p => p.2.ctx == some x).map Prod.fst

/-- Asks every core of a context to halt for a fault stop, the one that has stopped too: what its engines do settles as well (17
R376; 19 R413, R418). -/
def State.haltAll (s : State) (x : Nat) : State :=
  { s with cores := s.cores.map fun p => if p.2.ctx == some x then (p.1, { p.2 with haltReq := .fault, latch := true }) else p }

/-- A fault stop of the core `id`, which has stopped (17 R376; 19 R418, R420). Later stops change nothing. -/
def State.faultStop (s : State) (id : Nat) : State :=
  let c := s.core id
  match c.ctx with
  | none => s
  | some x =>
    if (s.ctx x).faultRec.isSome then s
    else
      let s1 := match s.launch x c.lslot with
        | none => s
        | some l =>
          (s.setLaunch x c.lslot { l with st := .faulted }).report l.origin 4 0 c.lslot
      let s2 := s1.setCtx x { s1.ctx x with st := .faulted, faultRec := some (id, s.now), pending := false, haltKind := .none }
      (s2.haltAll x).notify (s.ctx x).func 1 x (BitVec.ofNat 32 c.lcore) c.tcause c.tpc c.tinfo[0] c.tinfo[1]
        c.tinfo[2]

/-! ### Taking a trap (05 R130) -/

/-- Whether the core's launch has debug stop enabled (17 R377; 05 R132). -/
def debugOn (s : State) (c : Core) : Bool :=
  match s.launchOf c with
  | none => false
  | some l => l.record.debug

/-- The handler of the core's kernel (17 R374). -/
def handlerOf (s : State) (c : Core) : Option Nat :=
  match s.kernelOf c with
  | none => none
  | some k => k.header.handler

/-- The core as a trap leaves it: nothing half done, a frame in capture cancelled (05 R130; 04 R100). Writes that have not
landed do so in their cycles, for which the trap waits. DESIGN CHOICE, unsafe: a trap taken at the boundary before the first
instruction after RFT drops the ALANE armed for it, as the first instruction to issue is then the handler's (11 R276; log
89). -/
def Core.trapped (c : Core) : Core :=
  { c with wait := .none, held := none, md := none, ops := [], frame := if c.feeds then c.frame else none, alaneOn := false }

/-- TPC, TCAUSE.CAUSE and TINFO of a trap (05 R129, R130). -/
def Core.record (c : Core) (t : Trap) (tpc : Word) : Core :=
  { c with tpc := tpc, cause := t.cause, tinfo := #v[t.t0, t.t1, t.t2, t.t3] }

/-- The core in its handler at `h`: the loop stack set aside, the first instruction 6 cycles later, and not before a
feeding vector frame has fed its last pass (05 R130). -/
def Core.enterHandler (c : Core) (h : Nat) (readyAt : Nat) : Core :=
  { c with handler := true, aside := c.loops, loops := [], pc := BitVec.ofNat 32 h, readyAt := readyAt,
           trapFeed := c.feeds }

/-- A trap that stops core `id`, its waits over: a double trap leaves the first record standing; a debug stop, a trap without a
handler and CODE_INTEGRITY write theirs (05 R130, R132; 10 R259; 17 R376; 19 R419). -/
def State.endTrap (s : State) (id : Nat) (t : Trap) (tpc : Word) : State :=
  let c0 := s.core id
  let c := { c0.trapped with fatal := none }
  if c.handler && t.cause != trCODE then (s.setCore id { c with status := .stopped }).faultStop id
  else
    let r := c.record t tpc
    if t.cause = trBREAK && debugOn s c0 then
      (s.setCore id { r with status := .debugStopped }).notify (s.ctx (c0.ctx.getD 0)).func 4 (c0.ctx.getD 0)
        (BitVec.ofNat 32 c0.lcore) r.tcause r.tpc t.t0 t.t1 t.t2
    else (s.setCore id { r with status := .stopped }).faultStop id

/-- Whether a trap that stops a core has waited for what it waits for: every pending write has landed and no vector frame feeds
(05 R130). -/
def Core.mayEnd (c : Core) : Bool := c.pend.isEmpty && !c.feeds

/-- The core as it waits for a trap to stop it: nothing half done, a frame in capture cancelled; the writes land in their
cycles (05 R130). -/
def Core.ending (c : Core) (t : Trap) (tpc : Word) : Core :=
  { c.trapped with fatal := some (t, tpc) }

/-- Takes a trap in one core, TPC holding `tpc` (05 R130, R132; 17 R376; 19 R419). -/
def State.takeTrap (s : State) (id : Nat) (t : Trap) (tpc : Word) : State :=
  let c := s.core id
  match (if c.handler || (t.cause == trBREAK && debugOn s c) then none else handlerOf s c) with
  | some h => s.setCore id ((c.trapped.record t tpc).enterHandler h (c.lastLand s.now + 6))
  | none => if c.mayEnd then s.endTrap id t tpc else s.setCore id (c.ending t tpc)

/-- The return from a trap (05 R131): the loop stack is restored and the transfer rule applies to TPC; 2 cycles. -/
def Core.returnFromTrap (c : Core) (now : Nat) : Core :=
  { ({ c.landAll with loops := c.aside, aside := [], handler := false } : Core).transfer c.tpc with
    readyAt := c.lastLand now + 3, wait := .none, held := none, md := none, alaneOn := c.alaneArm, alaneArm := false }

/-! ### Gangs (06 R172) -/

/-- Disbands the gang `ids` under its leader: GANGSTAT is 0, each member keeps a copy of the leader's loop stack, and a frame in
capture is cancelled. No member goes on before its own pending writes have landed, which they do in their cycles (05 R108,
R130). -/
def State.disband (s : State) (ids : List Nat) (leader : Nat) : State :=
  let lead := s.core leader
  ids.foldl (fun k m => k.modCore m fun c =>
    { c with gangstat := 0, loops := lead.loops, md := none, ops := [], wait := .none, held := none,
             frame := if c.feeds then c.frame else none, readyAt := c.lastLand (s.now + 1) }) s

/-- A trap that a core takes at an instruction boundary, with its gang disbanded: the other members go on at the
address that would have issued next (05 R130; 06 R172). -/
def State.boundaryTrap (s : State) (id : Nat) (t : Trap) : State :=
  let ids := gangCores s id
  let leader := ids.headD id
  let pc := (s.core leader).pc
  if (s.core id).inGang then
    let s1 := s.disband ids leader
    (ids.foldl (fun k m => k.modCore m fun c => { c with pc := pc }) s1).takeTrap id t pc
  else s.takeTrap id t pc

/-- A trap the leader takes alone: the followers resume at `next`, after what was illegal (04 R101; 06 R171, R172). -/
def State.leaderTrap (s : State) (id : Nat) (t : Trap) (next : Word) : State :=
  let c := s.core id
  if c.inGang then
    let ids := gangCores s id
    let s1 := s.disband ids id
    let s2 := ids.foldl (fun k m =>
      if m = id then k else k.modCore m fun f => { f with pc := next }) s1
    s2.takeTrap id t c.issueAddr
  else s.takeTrap id t c.issueAddr

/-- A trap every member takes at the leader's address: a fetch that traps (05 R130; 06 R172). -/
def State.allTrap (s : State) (id : Nat) (t : Trap) : State :=
  let c := s.core id
  if c.inGang then
    let ids := gangCores s id
    ids.foldl (fun k m => k.takeTrap m t c.issueAddr) (s.disband ids id)
  else s.takeTrap id t c.issueAddr

/-! ### Illegal instructions (04 R97 to R100) -/

/-- ILLEGAL_INSTRUCTION with a reason: the word, and the modifier word where TPC names one (04 R98). -/
def illegalTrap (w md : Word) (reason : Nat) : Trap := mkTrap trILLEGAL w.toNat md.toNat reason 0

/-- The word of the core's modifier, or 0. -/
def Core.mdWord (c : Core) : Word :=
  match c.md with
  | none => 0
  | some m => modifierBits m

/-- An illegal instruction detected when it would issue: a modifier before a word that is not arithmetic, or a word
that is not arithmetic inside a capture (04 R96, R100). -/
def preTrap (c : Core) (i : Instr) : Option Trap :=
  let w := (encode i).getD 0
  if c.md.isSome && !isArith i then some (illegalTrap w c.mdWord 5)
  else if c.capturing && !isArith i then some (illegalTrap w c.mdWord 6)
  else none

/-- The check of a captured instruction's vector registers in every pass (05 R123). -/
def captureTrap (c : Core) (i : Instr) : Option Trap :=
  match c.frame with
  | none => none
  | some f => if f.pass = 0 then frameTrap c f i else none

/-- The meaning of an instruction in one core behind the check of its capture. -/
def checked (i : Instr) (f : Nat → State → Res) (id : Nat) (s : State) : Res :=
  orTrap s (captureTrap (s.core id) i) fun _ => f id s

/-! ### Completion -/

/-- Where control goes after an instruction (05 R109, R114, R119 to R121). -/
def Core.follow (c : Core) (now : Nat) (ctl : Ctl) : Core :=
  match ctl with
  | .next => c.fall c.pc
  | .jump t cost => { c.transfer t with readyAt := now + 1 + cost }
  | .branch taken t cost =>
    if taken then { c.transfer t with readyAt := now + 1 + cost } else { c.fall c.pc with readyAt := now + 1 + cost }
  | .skip last =>
    let r := backEdge last c.loops
    { c with loops := r.1, pc := r.2.getD (last + 4) }
  | .leave => c

/-- A frame's step after one of its instructions (05 R122, R124): captured instructions execute as pass 0; a vector
frame then feeds, another frame replays without moving on until its last pass. -/
def Core.frameStep (c : Core) (f : Frame) (i : Instr) : Core :=
  if f.pass = 0 then
    let cap := f.captured ++ [{ md := c.md, instr := i, rmode := roundingOf c.rmode }]
    if cap.length < f.n then { c with frame := some { f with captured := cap } }.fall c.pc
    else if f.count ≤ 1 then { c with frame := none }.fall c.pc
    else if cap.all fun k => isVector k.instr then
      { c with frame := some { f with captured := cap, pass := 1, pos := 0, feeding := true } }.fall c.pc
    else { c with frame := some { f with captured := cap, pass := 1, pos := 0 } }
  else if f.pos + 1 < f.n then { c with frame := some { f with pos := f.pos + 1 } }
  else if f.pass + 1 < f.count then { c with frame := some { f with pos := 0, pass := f.pass + 1 } }
  else { c with frame := none }.fall c.pc

/-- The core after instruction `i` completed in cycle `now` (05 R103, R126). An operation of a macro leaves the pc at
the MCALL until the last of them. -/
def Core.finish (c : Core) (now : Nat) (i : Instr) (ctl : Ctl) : Core :=
  let d := { c with wait := .none, held := none, readyAt := now + 1, alaneOn := false }
  let e :=
    match d.ops with
    | [] =>
      match d.frame with
      | none => d.follow now ctl
      | some f => if f.feeding then d.follow now ctl else d.frameStep f i
    | _ :: [] => { d with ops := [] }.fall d.pc
    | _ :: rest => { d with ops := rest }
  { e with md := none }

/-- Completes an instruction in one core; an instruction that leaves has set everything itself. -/
def State.retire (s : State) (id : Nat) (i : Instr) (ctl : Ctl) : State :=
  if ctl = .leave then s else s.modCore id fun c => c.finish s.now i ctl

/-- The core goes on waiting inside the instruction, which is not fetched again (05 R107; 19 R413). -/
def State.hold (s : State) (id : Nat) (i : Instr) (w : Wait) : State :=
  s.modCore id fun c => { c with wait := w, held := some i, readyAt := s.now + 1 }

/-- Issues an instruction in a core outside a gang. -/
def State.issueOne (s : State) (id : Nat) (i : Instr) (f : Nat → State → Res) : State :=
  match checked i f id s with
  | .done k ctl => k.retire id i ctl
  | .wait k w => k.hold id i w
  | .trap k t => k.takeTrap id t (s.core id).issueAddr
  | .enter k t =>
    let k1 := k.retire id i .next
    k1.takeTrap id t (k1.core id).pc

/-- What became of an instruction in one member of a gang. -/
inductive Fate where
  | done (ctl : Ctl)
  | wait (w : Wait)
  | trap (t : Trap)
  | enter (t : Trap)
  deriving DecidableEq, Repr

/-- Runs an instruction in every member in turn. -/
def runMembers (i : Instr) (f : Nat → State → Res) : List Nat → State → State × List (Nat × Fate)
  | [], s => (s, [])
  | m :: ms, s =>
    match checked i f m s with
    | .done k ctl => let r := runMembers i f ms k; (r.1, (m, .done ctl) :: r.2)
    | .wait k w => let r := runMembers i f ms k; (r.1, (m, .wait w) :: r.2)
    | .trap k t => let r := runMembers i f ms k; (r.1, (m, .trap t) :: r.2)
    | .enter k t => let r := runMembers i f ms k; (r.1, (m, .enter t) :: r.2)

/-- Lets the members that wait, or with `stalled` those alone that stall, do what their wait has begun; every member stalls (06
R170). -/
def stallMembers (i : Instr) (f : Nat → State → Res) (stalled : Bool) : List Nat → State → State
  | [], s => s
  | m :: ms, s =>
    stallMembers i f stalled ms (match checked i f m s with
      | .wait k w => if stalled && w != .stall then s.modCore m fun c => { c with held := some i, readyAt := s.now + 1 }
                     else k.hold m i w
      | _ => s.modCore m fun c => { c with held := some i, readyAt := s.now + 1 })

/-- The followers as the leader's fetch drives them: its pc, modifier and operations (06 R170). -/
def State.syncGang (s : State) (ids : List Nat) (leader : Nat) : State :=
  let lead := s.core leader
  ids.foldl (fun k m =>
    if m = leader then k
    else k.modCore m fun c => { c with pc := lead.pc, md := lead.md, mdAt := lead.mdAt, loops := lead.loops }) s

/-- The leader's own control outcome. -/
def leaderCtl (leader : Nat) (fates : List (Nat × Fate)) : Ctl :=
  match fates.find? fun p => p.1 == leader with
  | some (_, .done ctl) => ctl
  | _ => .next

/-- Completes an instruction in every member: the leader decides where control goes, the followers go with it (06
R170). -/
def State.retireGang (s : State) (ids : List Nat) (leader : Nat) (i : Instr) (ctl : Ctl) : State :=
  let s1 := s.retire leader i ctl
  let lead := s1.core leader
  ids.foldl (fun k m =>
    if m = leader then k
    else k.modCore m fun c =>
      let d := if ctl = .leave then { c with wait := .none, held := none } else c.finish s.now i ctl
      { d with pc := lead.pc, loops := lead.loops, readyAt := lead.readyAt }) s1

/-- The traps of an instruction in a gang: the gang disbands; members that took no trap go on after the instruction, or go on
waiting in it where they wait; the others enter their handlers (06 R172; 05 R130; 07 R188). -/
def State.gangTraps (s : State) (ids : List Nat) (leader : Nat) (i : Instr) (fates : List (Nat × Fate)) : State :=
  let lead := s.core leader
  let s1 := s.disband ids leader
  fates.foldl (fun k p =>
    match p.2 with
    | .done _ => k.modCore p.1 fun c => { c with pc := lead.pc + 4 }
    | .wait w => k.modCore p.1 fun c =>
        { c with pc := lead.pc, md := lead.md, mdAt := lead.mdAt, wait := w, held := some i }
    | .trap t => k.takeTrap p.1 t lead.issueAddr
    | .enter t => (k.modCore p.1 fun c => { c with pc := lead.pc + 4 }).takeTrap p.1 t (lead.pc + 4)) s1

/-- Whether every member completes and then enters its handler: TRAP and BKPT (05 R132). -/
def allEnter (fates : List (Nat × Fate)) : Bool :=
  fates.all fun p => match p.2 with
    | .enter _ => true
    | _ => false

/-- The instructions whose targets, counts, frames and expansions the leader alone decides (06 R170). -/
def leaderDecides : Instr → Bool
  | .jalr _ _ _ => true
  | .loop _ _ => true
  | .loopi _ _ => true
  | .repf _ _ _ _ _ => true
  | .mcall _ _ _ _ _ => true
  | _ => false

/-- The trap of an instruction that the leader decides, with the state it leaves (06 R170, R172). -/
def decidedTrap (i : Instr) (f : Nat → State → Res) (leader : Nat) (s : State) : Option (State × Trap) :=
  if leaderDecides i then
    match checked i f leader s with
    | .trap k t => some (k, t)
    | _ => none
  else none

/-- What a list of outcomes holds: a stall, a trap, a wait. -/
def anyFate (f : Fate → Bool) (fates : List (Nat × Fate)) : Bool := fates.any fun p => f p.2

/-- Issues an instruction in every member of the gang that `leader` leads (06 R170 to R172): one member that stalls stalls all;
a trap of what the leader decides is every member's, but for an illegal word, which is the leader's alone; where a member
traps the others complete or go on waiting; else all wait until all complete. -/
def State.issueGang (s0 : State) (leader : Nat) (i : Instr) (f : Nat → State → Res) : State :=
  let ids := gangCores s0 leader
  let s := s0.syncGang ids leader
  match decidedTrap i f leader s with
  | some (k, t) =>
    if t.cause = trILLEGAL then k.leaderTrap leader t ((s.core leader).pc + 4) else k.allTrap leader t
  | none =>
    let r := runMembers i f ids s
    if anyFate (· == .wait .stall) r.2 then stallMembers i f true ids s
    else if allEnter r.2 then
      let k1 := r.1.retireGang ids leader i .next
      let pc := (k1.core leader).pc
      let k2 := k1.disband ids leader
      r.2.foldl (fun q p => match p.2 with
        | .enter t => q.takeTrap p.1 t pc
        | _ => q) k2
    else if anyFate (fun x => match x with | .trap _ => true | .enter _ => true | _ => false) r.2 then
      r.1.gangTraps ids leader i r.2
    else if anyFate (fun x => match x with | .wait _ => true | _ => false) r.2 then stallMembers i f false ids s
    else r.1.retireGang ids leader i (leaderCtl leader r.2)

/-- Issues instruction `i` on the core whose turn it is, `f` being its meaning in one core. A core that may not issue
is left as it is (00 R1). -/
def State.issueState (s : State) (i : Instr) (f : Nat → State → Res) : State :=
  let id := s.cur
  let c := s.core id
  if c.mayIssue s.now then
    match preTrap c i with
    | some t => s.leaderTrap id t (c.pc + 4)
    | none => if c.inGang then s.issueGang id i f else s.issueOne id i f
  else s

/-- The outcome of issuing an instruction: always a next state. -/
def issue (i : Instr) (f : Nat → State → Res) (s : State) : Host.Outcome State Fault Refusal :=
  .next (s.issueState i f)

/-! ### Fetch (05 R116; 10 R259, R260) -/

/-- What a fetch meets; `spoilt` is an uncorrectable word, in a cache of translations or at `pa` (21 R444). -/
inductive Fetched where
  | word (w : Word)
  | stall (page : Nat) (st : PageState)
  | trap (t : Trap) (unmapped : Bool) (bad : Option Nat)
  | spoilt (u : Option HwUnit) (pa : Nat)
  | integrity
  deriving DecidableEq, Repr

/-- The bytes of a kernel's padded code (03 R82). -/
def paddedLen (k : Kernel) : Nat := (k.header.codeLen + 131071) / 131072 * 131072

/-- The fetch of core `id` at `pc`, from its own die's copy of a REPLICATED page (01 R20); a kernel's code stands in the context's space from its code base (log 15). -/
def fetchAt (s : State) (id : Nat) (pc : Word) : Fetched :=
  let c := s.core id
  match c.ctx, s.kernelOf c with
  | some x, some k =>
    if paddedLen k ≤ pc.toNat then .trap (mkTrap trPROTECTION pc.toNat 1 0 0) false none
    else
      match s.marks.find? fun u => u == .xlateCache (clusterOf id) || u == .dieXlate (dieOf id) with
      | some u => .spoilt (some u) 0
      | none =>
      match translate s x c.tag (k.codeVa + pc.toNat) .fetch with
      | .ok pa e =>
        let a := readAt pa e (dieOf id)
        if bitsOf e 7 1 = 0 then .integrity else if s.rangeGood a 4 then .word (readWord s.hbm a) else .spoilt none a
      | .spoilt pa => .spoilt none pa
      | .stall page st => .stall page st
      | .unmapped _ _ bad => .trap (mkTrap trUNMAPPED pc.toNat 0 0x400 0) true bad
      | .denied _ _ => .trap (mkTrap trPROTECTION pc.toNat 15 0 0) false none
  | _, _ => .trap (mkTrap trPROTECTION pc.toNat 1 0 0) false none

/-- Whether a core of context `x` has met CODE_INTEGRITY: one that has not stopped yet, or one whose stop faulted the context
(10 R259). -/
def codeFailed (s : State) (x : Nat) : Bool :=
  (s.ctx x).faultRec.isSome || (coresOf s x).any fun c => (s.core c).fatal.any fun p => p.1.cause == trCODE

/-- CODE_INTEGRITY at the fetch of `pc` (10 R259): the first core records the trap and, once it has waited as every trap does,
stops with no handler entered; the context faults. A later core waits at its fetch for the halt. -/
def State.codeIntegrity (s : State) (id : Nat) (pc : Word) : State :=
  let c := s.core id
  if codeFailed s (c.ctx.getD 0) then s.setCore id { c with readyAt := s.now + 1 }
  else
    let t := mkTrap trCODE pc.toNat (pc.toNat / 131072) 0 0
    if c.mayEnd then s.endTrap id t pc else s.setCore id (c.ending t pc)

/-- The state after a fetch met an uncorrectable word: its mark is spent, the check value of its parcel renewed (21 R444, R449). -/
def State.spendMark (s : State) (u : Option HwUnit) (pa : Nat) : State :=
  match u with
  | some v => { s with marks := s.marks.erase v }
  | none => { s.clearMarks pa 8 with parcelBad := s.parcelBad.erase (pa / 256) }

/-- The trap of a fetch that meets an uncorrectable word. DESIGN CHOICE, unsafe: R445 gives no TINFO for it; TINFO0 is the fetch
address, the others are 0 (log 94). -/
def fetchSpoilt (pc : Word) : Trap := mkTrap trDATA pc.toNat 0 0 0

/-- A fetch that does not bring a word: the core is held and the page requested, or the trap of R260 is taken where the
instruction would issue, or the context stops (10 R249, R257, R259, R260). -/
def State.fetchFails (s : State) (id : Nat) (pc : Word) : State :=
  let c := s.core id
  let x := c.ctx.getD 0
  match fetchAt s id pc with
  | .word _ => s
  | .stall page st =>
    (s.requestFrom (dieOf id) x page st).modCore id fun k => { k with readyAt := s.now + 1, fetchVa := some page }
  | .spoilt u pa => (s.spendMark u pa).allTrap id (fetchSpoilt pc)
  | .trap t un bad =>
    let s1 := s.tableError bad
    let s2 := if un then s1.notify (s.ctx x).func 9 x (BitVec.ofNat 32 c.lcore) 5 pc pc 0 0x400 else s1
    s2.allTrap id t
  | .integrity => s.codeIntegrity id pc

end Sys2Proof.Machine
end

