-- ==== Sys2Proof/Machine/Scalar.lean ====
section
/-!
DEFINITION. Scalar arithmetic: ALU, immediates, shifts, LUI, multiply and divide (05 R104, R107, R110 to R113; 02 R50
to R54).
-/

namespace Sys2Proof.Machine

/-- 1 or 0. -/
def boolInt (b : Bool) : Int := if b then 1 else 0

/-- SHL of R111: the exact product, 0 from an amount of 32 on. -/
def shlInt (a : Word) (n : Nat) : Int := if 32 ≤ n then 0 else a.toInt * 2 ^ n

/-- SHR of R111. -/
def shrInt (a : Word) (n : Nat) : Int := if 32 ≤ n then 0 else ((a.toNat / 2 ^ n : Nat) : Int)

/-- SRA of R111: the sign from an amount of 32 on. -/
def sraInt (a : Word) (n : Nat) : Int := if 32 ≤ n then (if a.toInt < 0 then -1 else 0) else a.toInt / 2 ^ n

/-- The number of leading zero bits of a word. -/
def clzNat (a : Word) : Nat := if a = 0 then 32 else 31 - a.toNat.log2

/-- The number of one bits of a word. -/
def popcNat (a : Word) : Nat := ((List.range 32).filter fun i => a.getLsbD i).length

/-- The bits of a word in reverse order. -/
def brevWord (a : Word) : Word := a.reverse

/-- A scalar arithmetic instruction of latency 1 with exact result `e` (05 R104, R110): the result passes the modifier
stages and lands in the next cycle. -/
def scalarOp (d : BitVec 5) (signed : Bool) (e : Core → Int) (id : Nat) (s : State) : Res :=
  let c := s.core id
  let r := deliverInt c.md signed 32 (e c)
  .done (s.setCore id ((c.orFlags r.2).landG s.now d r.1)) .next

/-- A scalar arithmetic instruction of two registers. -/
def aluOp (d a b : BitVec 5) (signed : Bool) (e : Word → Word → Int) (id : Nat) (s : State) : Res :=
  scalarOp d signed (fun c => e (c.readG a) (c.readG b)) id s

/-- A scalar arithmetic instruction of one register. -/
def unaryOp (d a : BitVec 5) (signed : Bool) (e : Word → Int) (id : Nat) (s : State) : Res :=
  scalarOp d signed (fun c => e (c.readG a)) id s

/-- ADD (05 R111). -/
def execAdd (d a b : BitVec 5) (s : State) : Host.Outcome State Fault Refusal :=
  issue (.add d a b) (aluOp d a b true fun a b => a.toInt + b.toInt) s

/-- SUB (05 R111). -/
def execSub (d a b : BitVec 5) (s : State) : Host.Outcome State Fault Refusal :=
  issue (.sub d a b) (aluOp d a b true fun a b => a.toInt - b.toInt) s

/-- AND (05 R111). -/
def execAnd (d a b : BitVec 5) (s : State) : Host.Outcome State Fault Refusal :=
  issue (.and d a b) (aluOp d a b true fun a b => (a &&& b).toInt) s

/-- OR (05 R111). -/
def execOr (d a b : BitVec 5) (s : State) : Host.Outcome State Fault Refusal :=
  issue (.or d a b) (aluOp d a b true fun a b => (a ||| b).toInt) s

/-- XOR (05 R111). -/
def execXor (d a b : BitVec 5) (s : State) : Host.Outcome State Fault Refusal :=
  issue (.xor d a b) (aluOp d a b true fun a b => (a ^^^ b).toInt) s

/-- ANDN (05 R111). -/
def execAndn (d a b : BitVec 5) (s : State) : Host.Outcome State Fault Refusal :=
  issue (.andn d a b) (aluOp d a b true fun a b => (a &&& ~~~b).toInt) s

/-- SHL (05 R111). -/
def execShl (d a b : BitVec 5) (s : State) : Host.Outcome State Fault Refusal :=
  issue (.shl d a b) (aluOp d a b true fun a b => shlInt a b.toNat) s

/-- SHR (05 R111). -/
def execShr (d a b : BitVec 5) (s : State) : Host.Outcome State Fault Refusal :=
  issue (.shr d a b) (aluOp d a b false fun a b => shrInt a b.toNat) s

/-- SRA (05 R111). -/
def execSra (d a b : BitVec 5) (s : State) : Host.Outcome State Fault Refusal :=
  issue (.sra d a b) (aluOp d a b true fun a b => sraInt a b.toNat) s

/-- SLT (05 R111). -/
def execSlt (d a b : BitVec 5) (s : State) : Host.Outcome State Fault Refusal :=
  issue (.slt d a b) (aluOp d a b true fun a b => boolInt (decide (a.toInt < b.toInt))) s

/-- SLTU (05 R111). -/
def execSltu (d a b : BitVec 5) (s : State) : Host.Outcome State Fault Refusal :=
  issue (.sltu d a b) (aluOp d a b false fun a b => boolInt (decide (a.toNat < b.toNat))) s

/-- SEQ (05 R111). -/
def execSeq (d a b : BitVec 5) (s : State) : Host.Outcome State Fault Refusal :=
  issue (.seq d a b) (aluOp d a b true fun a b => boolInt (a == b)) s

/-- SNE (05 R111). -/
def execSne (d a b : BitVec 5) (s : State) : Host.Outcome State Fault Refusal :=
  issue (.sne d a b) (aluOp d a b true fun a b => boolInt (a != b)) s

/-- MIN (05 R111). -/
def execMin (d a b : BitVec 5) (s : State) : Host.Outcome State Fault Refusal :=
  issue (.min d a b) (aluOp d a b true fun a b => min a.toInt b.toInt) s

/-- MAX (05 R111). -/
def execMax (d a b : BitVec 5) (s : State) : Host.Outcome State Fault Refusal :=
  issue (.max d a b) (aluOp d a b true fun a b => max a.toInt b.toInt) s

/-- MINU (05 R111). -/
def execMinu (d a b : BitVec 5) (s : State) : Host.Outcome State Fault Refusal :=
  issue (.minu d a b) (aluOp d a b false fun a b => min (a.toNat : Int) b.toNat) s

/-- MAXU (05 R111). -/
def execMaxu (d a b : BitVec 5) (s : State) : Host.Outcome State Fault Refusal :=
  issue (.maxu d a b) (aluOp d a b false fun a b => max (a.toNat : Int) b.toNat) s

/-- SEL (05 R111): g[d] before the instruction chooses. -/
def execSel (d a b : BitVec 5) (s : State) : Host.Outcome State Fault Refusal :=
  issue (.sel d a b) (scalarOp d true fun c => if c.readG d ≠ 0 then (c.readG a).toInt else (c.readG b).toInt) s

/-- CLZ (05 R111). -/
def execClz (d a : BitVec 5) (s : State) : Host.Outcome State Fault Refusal :=
  issue (.clz d a) (unaryOp d a true fun a => (clzNat a : Int)) s

/-- POPC (05 R111). -/
def execPopc (d a : BitVec 5) (s : State) : Host.Outcome State Fault Refusal :=
  issue (.popc d a) (unaryOp d a true fun a => (popcNat a : Int)) s

/-- BREV (05 R111). -/
def execBrev (d a : BitVec 5) (s : State) : Host.Outcome State Fault Refusal :=
  issue (.brev d a) (unaryOp d a true fun a => (brevWord a).toInt) s

/-- ADDI (05 R112). -/
def execAddi (d a : BitVec 5) (i : BitVec 16) (s : State) : Host.Outcome State Fault Refusal :=
  issue (.addi d a i) (unaryOp d a true fun a => a.toInt + i.toInt) s

/-- ANDI (05 R112). -/
def execAndi (d a : BitVec 5) (i : BitVec 16) (s : State) : Host.Outcome State Fault Refusal :=
  issue (.andi d a i) (unaryOp d a true fun a => (a &&& i.zeroExtend 32).toInt) s

/-- ORI (05 R112). -/
def execOri (d a : BitVec 5) (i : BitVec 16) (s : State) : Host.Outcome State Fault Refusal :=
  issue (.ori d a i) (unaryOp d a true fun a => (a ||| i.zeroExtend 32).toInt) s

/-- XORI (05 R112). -/
def execXori (d a : BitVec 5) (i : BitVec 16) (s : State) : Host.Outcome State Fault Refusal :=
  issue (.xori d a i) (unaryOp d a true fun a => (a ^^^ i.zeroExtend 32).toInt) s

/-- SLTI (05 R112). -/
def execSlti (d a : BitVec 5) (i : BitVec 16) (s : State) : Host.Outcome State Fault Refusal :=
  issue (.slti d a i) (unaryOp d a true fun a => boolInt (decide (a.toInt < i.toInt))) s

/-- SLTIU (05 R112). -/
def execSltiu (d a : BitVec 5) (i : BitVec 16) (s : State) : Host.Outcome State Fault Refusal :=
  issue (.sltiu d a i) (unaryOp d a false fun a => boolInt (decide (a.toNat < (i.signExtend 32).toNat))) s

/-- SHLI (05 R112; 02 R53). -/
def execShli (d a : BitVec 5) (n : BitVec 6) (s : State) : Host.Outcome State Fault Refusal :=
  issue (.shli d a n) (unaryOp d a true fun a => shlInt a n.toNat) s

/-- SHRI (05 R112; 02 R53). -/
def execShri (d a : BitVec 5) (n : BitVec 6) (s : State) : Host.Outcome State Fault Refusal :=
  issue (.shri d a n) (unaryOp d a false fun a => shrInt a n.toNat) s

/-- SRAI (05 R112; 02 R53). -/
def execSrai (d a : BitVec 5) (n : BitVec 6) (s : State) : Host.Outcome State Fault Refusal :=
  issue (.srai d a n) (unaryOp d a true fun a => sraInt a n.toNat) s

/-- Writes a result of latency 1 (05 R104). -/
def landRes (d : BitVec 5) (v : Core → Word) (id : Nat) (s : State) : Res :=
  let c := s.core id
  .done (s.setCore id (c.landG s.now d (v c))) .next

/-- LUI (05 R112): not arithmetic. -/
def execLui (d : BitVec 5) (i : BitVec 16) (s : State) : Host.Outcome State Fault Refusal :=
  issue (.lui d i) (landRes d fun _ => i ++ 0#16) s

/-- A multiplication with its exact result: latency 3 (05 R104, R113). -/
def mulOp (d a b : BitVec 5) (signed : Bool) (e : Word → Word → Int) (id : Nat) (s : State) : Res :=
  let c := s.core id
  let r := deliverInt c.md signed 32 (e (c.readG a) (c.readG b))
  .done (s.setCore id ((c.orFlags r.2).queueG d r.1 (s.now + 3))) .next

/-- A division with its exact result: it stalls while the divider is busy, and its latency is 18 (05 R104, R107,
R113). -/
def divOp (d a b : BitVec 5) (signed : Bool) (e : Word → Word → Int) (id : Nat) (s : State) : Res :=
  let c := s.core id
  if s.now < c.divFree then .wait s .stall
  else
    let r := deliverInt c.md signed 32 (e (c.readG a) (c.readG b))
    .done (s.setCore id { (c.orFlags r.2).queueG d r.1 (s.now + 18) with divFree := s.now + 18 }) .next

/-- DIV of R113: truncated toward zero; −1 for a divisor of 0. -/
def divInt (a b : Word) : Int := if b = 0 then -1 else a.toInt.tdiv b.toInt

/-- DIVU of R113; 2^32 − 1 for a divisor of 0. -/
def divuInt (a b : Word) : Int := if b = 0 then 2 ^ 32 - 1 else ((a.toNat / b.toNat : Nat) : Int)

/-- MUL (05 R113). -/
def execMul (d a b : BitVec 5) (s : State) : Host.Outcome State Fault Refusal :=
  issue (.mul d a b) (mulOp d a b true fun a b => a.toInt * b.toInt) s

/-- MULH (05 R113). -/
def execMulh (d a b : BitVec 5) (s : State) : Host.Outcome State Fault Refusal :=
  issue (.mulh d a b) (mulOp d a b true fun a b => (a.toInt * b.toInt) / 2 ^ 32) s

/-- MULHU (05 R113). -/
def execMulhu (d a b : BitVec 5) (s : State) : Host.Outcome State Fault Refusal :=
  issue (.mulhu d a b) (mulOp d a b false fun a b => ((a.toNat * b.toNat / 2 ^ 32 : Nat) : Int)) s

/-- DIV (05 R113; 02 R52). -/
def execDiv (d a b : BitVec 5) (s : State) : Host.Outcome State Fault Refusal :=
  issue (.div d a b) (divOp d a b true fun a b => divInt a b) s

/-- DIVU (05 R113; 02 R52). -/
def execDivu (d a b : BitVec 5) (s : State) : Host.Outcome State Fault Refusal :=
  issue (.divu d a b) (divOp d a b false fun a b => divuInt a b) s

/-- REM (05 R113; 02 R52). -/
def execRem (d a b : BitVec 5) (s : State) : Host.Outcome State Fault Refusal :=
  issue (.rem d a b) (divOp d a b true fun a b => if b = 0 then a.toInt else a.toInt - b.toInt * divInt a b) s

/-- REMU (05 R113; 02 R52). -/
def execRemu (d a b : BitVec 5) (s : State) : Host.Outcome State Fault Refusal :=
  issue (.remu d a b) (divOp d a b false fun a b => if b = 0 then (a.toNat : Int) else (a.toNat : Int) - b.toNat * divuInt a b) s

end Sys2Proof.Machine
end

