-- ==== Sys2Proof/Machine/Control.lean ====
section
/-!
DEFINITION. Control: branches and jumps, hardware loops, repeat frames, macro calls and the modifier word (04 R94 to
R96; 05 R109, R114, R115, R119, R122 to R126; 06 R170).
-/

namespace Sys2Proof.Machine

/-- Whether a core reads the registers that decide control: it stands alone or leads its gang (06 R170). -/
def Core.leads (c : Core) : Bool := !c.inGang || c.gangMember == 0

/-! ### Branches and jumps -/

/-- The prediction of a B-form branch (05 R109). -/
def predicted (h : BitVec 2) (o : BitVec 19) : Bool := h == 1#2 || (h == 0#2 && decide (o.toInt ≤ 0))

/-- A B-form branch: the test decides, and a wrong prediction costs 2 cycles (05 R109, R114). -/
def branchOp (h : BitVec 2) (a : BitVec 5) (o : BitVec 19) (test : Word → Bool) (id : Nat) (s : State) : Res :=
  let c := s.core id
  let taken := test (c.readG a)
  .done s (.branch taken (c.pc + o.signExtend 32 * 4) (if taken = predicted h o then 0 else 2))

/-- BEQZ (05 R114). -/
def execBeqz (h : BitVec 2) (a : BitVec 5) (o : BitVec 19) (s : State) : Host.Outcome State Fault Refusal :=
  issue (.beqz h a o) (branchOp h a o fun x => x == 0) s

/-- BNEZ (05 R114). -/
def execBnez (h : BitVec 2) (a : BitVec 5) (o : BitVec 19) (s : State) : Host.Outcome State Fault Refusal :=
  issue (.bnez h a o) (branchOp h a o fun x => x != 0) s

/-- BLTZ (05 R114). -/
def execBltz (h : BitVec 2) (a : BitVec 5) (o : BitVec 19) (s : State) : Host.Outcome State Fault Refusal :=
  issue (.bltz h a o) (branchOp h a o fun x => decide (x.toInt < 0)) s

/-- BGEZ (05 R114). -/
def execBgez (h : BitVec 2) (a : BitVec 5) (o : BitVec 19) (s : State) : Host.Outcome State Fault Refusal :=
  issue (.bgez h a o) (branchOp h a o fun x => decide (0 ≤ x.toInt)) s

/-- BGTZ (05 R114). -/
def execBgtz (h : BitVec 2) (a : BitVec 5) (o : BitVec 19) (s : State) : Host.Outcome State Fault Refusal :=
  issue (.bgtz h a o) (branchOp h a o fun x => decide (0 < x.toInt)) s

/-- BLEZ (05 R114). -/
def execBlez (h : BitVec 2) (a : BitVec 5) (o : BitVec 19) (s : State) : Host.Outcome State Fault Refusal :=
  issue (.blez h a o) (branchOp h a o fun x => decide (x.toInt ≤ 0)) s

/-- The jump of JAL: the link is written in every member (05 R115; 06 R170). -/
def jalOp (d : BitVec 5) (o : BitVec 21) (id : Nat) (s : State) : Res :=
  let c := s.core id
  .done (s.setCore id (c.landG s.now d (c.pc + 4))) (.jump (c.pc + o.signExtend 32 * 4) 0)

/-- JAL (05 R115). -/
def execJal (d : BitVec 5) (o : BitVec 21) (s : State) : Host.Outcome State Fault Refusal :=
  issue (.jal d o) (jalOp d o) s

/-- The jump of JALR: the leader reads the target, which must be a multiple of 4 (05 R109, R115; 06 R170). -/
def jalrOp (d a : BitVec 5) (i : BitVec 16) (id : Nat) (s : State) : Res :=
  let c := s.core id
  let t := c.readG a + i.signExtend 32
  if c.leads && t.toNat % 4 != 0 then .trap s (mkTrap trMISALIGNED t.toNat 4 0 0)
  else .done (s.setCore id (c.landG s.now d (c.pc + 4))) (.jump t 2)

/-- JALR (05 R115). -/
def execJalr (d a : BitVec 5) (i : BitVec 16) (s : State) : Host.Outcome State Fault Refusal :=
  issue (.jalr d a i) (jalrOp d a i) s

/-! ### Hardware loops -/

/-- A loop word with a count and a body of `len` words (05 R119, R120). -/
def loopOp (count : Core → Nat) (len : Nat) (id : Nat) (s : State) : Res :=
  let c := s.core id
  let last := c.pc + BitVec.ofNat 32 (4 * len)
  let n := count c
  let beyond := match c.loops with
    | [] => false
    | l :: _ => decide (l.last.toNat < c.pc.toNat + 4 * len)
  if !c.leads then .done s .next
  else if 2 ≤ c.loops.length || beyond then .trap s (overrun 5 c.pc.toNat 2)
  else if n = 0 then .done s (.skip last)
  else .done (s.setCore id { c with loops := { first := c.pc + 4, last := last, remaining := n } :: c.loops }) .next

/-- LOOP (05 R119): the count is read under R105. -/
def execLoop (c : BitVec 5) (l : BitVec 16) (s : State) : Host.Outcome State Fault Refusal :=
  issue (.loop c l) (loopOp (fun k => (k.readG c).toNat) l.toNat) s

/-- LOOPI (05 R119). -/
def execLoopi (c : BitVec 16) (l : BitVec 10) (s : State) : Host.Outcome State Fault Refusal :=
  issue (.loopi c l) (loopOp (fun _ => c.toNat) l.toNat) s

/-! ### Repeat frames -/

/-- Whether a block of `n` instructions from an address, prefixed pairs counting as one, lies within a loop whose last word is
`last` (05 R122, R123); the page on demand that must be fetched to tell, where one does. -/
def blockFits (s : State) (id : Nat) (last : Nat) : Nat → Word → Except (Nat × PageState) Bool
  | 0, pc => .ok (decide (pc.toNat ≤ last + 4))
  | n + 1, pc =>
    if last < pc.toNat then .ok false
    else match fetchAt s id pc with
      | .stall page st => .error (page, st)
      | .word w => blockFits s id last n (if fmajor w == 0x3E#6 then pc + 8 else pc + 4)
      | _ => blockFits s id last n (pc + 4)

/-- Starts a frame (05 R122, R123). -/
def repfOp (n : BitVec 4) (count : BitVec 6) (sd sa sb : BitVec 4) (id : Nat) (s : State) : Res :=
  let c := s.core id
  if c.frame.isSome then .wait s .stall
  else
    let fits : Except (Nat × PageState) Bool := match c.loops with
      | [] => .ok true
      | l :: _ => blockFits s id l.last.toNat (n.toNat + 1) (c.pc + 4)
    match fits with
    | .error (page, st) => .wait (s.requestFrom (dieOf id) (c.ctx.getD 0) page st) .stall
    | .ok false => .trap s (overrun 5 c.pc.toNat 2)
    | .ok true =>
      let f : Frame :=
        { addr := c.pc, n := n.toNat + 1, count := count.toNat + 1, sd := sd.toNat, sa := sa.toNat, sb := sb.toNat,
          captured := [], pass := 0, pos := 0, feeding := false }
      .done (s.setCore id { c with frame := some f }) .next

/-- The meaning of an instruction that completes before the frame it starts captures anything: REPF moves on by
itself, so that it is not taken for the first captured instruction. -/
def leaving (f : Nat → State → Res) (id : Nat) (s : State) : Res :=
  match f id s with
  | .done k _ => .done (k.modCore id fun c =>
      { c.fall c.pc with wait := .none, held := none, readyAt := s.now + 1, alaneOn := false }) .leave
  | other => other

/-- REPF (05 R122, R123). -/
def execRepf (n : BitVec 4) (c : BitVec 6) (d a b : BitVec 4) (s : State) : Host.Outcome State Fault Refusal :=
  issue (.repf n c d a b) (leaving (repfOp n c d a b)) s

/-! ### Macro calls (05 R125, R126; 15 R343, R344) -/

/-- A word with its marked fields replaced by the call's parameters (17 R373). -/
def substitute (w marks : Word) (p : Nat → BitVec 5) : Word :=
  let put (w : Word) (lo at' : Nat) : Word :=
    let k := bitsOf marks.toNat at' 3
    if k = 0 then w else BitVec.ofNat 32 (w.toNat - bitsOf w.toNat lo 5 * 2 ^ lo + (p (k - 1)).toNat * 2 ^ lo)
  put (put (put w 21 0) 16 3) 11 6

/-- The modifier a word encodes (04 R94). -/
def modifierOf (n a : BitVec 1) (c : BitVec 2) (sat e : BitVec 1) (k : BitVec 6) : Modifier :=
  { neg := n == 1#1, abs := a == 1#1, clamp := c, sat := sat == 1#1, scen := e == 1#1,
    scale := if e = 1 then k.toInt else 0 }

/-- The operations of a macro in order, each with its modifier; or the reason a word is illegal. -/
def expand (p : Nat → BitVec 5) : Option Modifier → List (Word × Word) → Except Nat (List (Option Modifier × Instr))
  | _, [] => .ok []
  | md, (w, marks) :: rest =>
    match decodeWord (substitute w marks p) with
    | .error e => .error e.code
    | .ok (.modifierWord n a c st e k) => expand p (some (modifierOf n a c st e k)) rest
    | .ok i => (expand p none rest).map fun l => (md, i) :: l

/-- The macro set of a kernel in a cluster, with the slot it starts at: sets stand one after another (15 R343, R344). -/
def macroSet (k : Cluster) (ctx kernel : Nat) : Option (Nat × MacroSet) :=
  let size (m : MacroSet) : Nat := m.ops.foldl (fun n p => n + p.2.length) 0
  let rec go (at' : Nat) : List MacroSet → Option (Nat × MacroSet)
    | [] => none
    | m :: ms => if m.ctx = ctx && m.kernel = kernel then some (at', m) else go (at' + size m) ms
  go 0 k.macros

/-- The first slot of a macro within its set. -/
def macroStart (m : MacroSet) (n : Nat) : Nat :=
  (m.ops.filter fun p => decide (p.1 < n)).foldl (fun k p => k + p.2.length) 0

/-- The parameters of a call by number (05 R125). -/
def macroParam (p q r t : BitVec 5) (k : Nat) : BitVec 5 :=
  match k with
  | 0 => p
  | 1 => q
  | 2 => r
  | _ => t

/-- Calls a macro: every check comes before any operation, and the operations issue from the second cycle after the
call (05 R125). -/
def mcallOp (m : BitVec 6) (p q r t : BitVec 5) (w : Word) (id : Nat) (s : State) : Res :=
  let c := s.core id
  if !c.leads then .done s .leave
  else if c.resMacros.toNat ≤ m.toNat then .trap s (overrun 4 m.toNat c.resMacros.toNat)
  else
    let kernel := match s.launchOf c with | none => 0 | some l => l.record.kernel
    let cl := s.cluster (clusterOf id)
    match macroSet cl (c.ctx.getD 0) kernel with
    | none => .done s .next
    | some (base, ms) =>
      let words := look [] m.toNat ms.ops
      let first := base + macroStart ms m.toNat
      match cl.slotsBad.find? fun b => decide (first ≤ b) && decide (b < first + words.length) with
      | some b =>
        .trap (s.setCluster (clusterOf id) { cl with slotsBad := cl.slotsBad.filter (· != b) })
          (mkTrap trDATA b 7 m.toNat 0)
      | none =>
        match expand (macroParam p q r t) none words with
        | .error reason => .trap s (illegalTrap w 0 reason)
        | .ok ops =>
          match ops.findSome? fun o => vregTrap c (vregsNamed o.2) with
          | some tr => .trap s tr
          | none =>
            if ops.isEmpty then .done s .next
            else .done (s.setCore id { c with ops := ops, wait := .none, held := none, readyAt := s.now + 2, alaneOn := false }) .leave

/-- MCALL (05 R125). -/
def execMcall (m : BitVec 6) (p q r t : BitVec 5) (s : State) : Host.Outcome State Fault Refusal :=
  let i := Instr.mcall m p q r t
  issue i (mcallOp m p q r t ((encode i).getD 0)) s

/-! ### The modifier word -/

/-- Whether a word's code is arithmetic (04 R93). -/
def arithWord (w : Word) : Bool :=
  let n := w.toNat
  match (fmajor w).toNat with
  | 0x01 => n % 2048 ≤ 20
  | 0x02 => true
  | 0x03 => true
  | 0x04 => true
  | 0x05 => true
  | 0x06 => true
  | 0x07 => true
  | 0x08 => bitsOf n 14 2 != 3
  | 0x0A => n % 2048 ≤ 6
  | 0x1A => n % 256 ≤ 7
  | 0x1B => n % 256 ≤ 7
  | 0x1C => bitsOf n 6 2 != 3 && n % 64 ≤ 11
  | 0x1D => 15 ≤ n % 256 && n % 256 ≤ 18
  | 0x1F => n % 256 ≤ 5
  | 0x20 => n % 256 ≤ 4
  | _ => false

/-- The core after a modifier word: it applies to the next word, which issues in the same cycle (04 R94, R95). -/
def Core.prefixed (c : Core) (m : Modifier) : Core := { c with md := some m, mdAt := c.pc, pc := c.pc + 4 }

/-- A core whose next fetch, of `page`, stalls: it tries again in the next cycle (10 R249, R257). -/
def State.fetchStall (s : State) (id page : Nat) (st : PageState) : State :=
  (s.requestFrom (dieOf id) ((s.core id).ctx.getD 0) page st).modCore id fun k => { k with readyAt := s.now + 1, fetchVa := some page }

/-- A modifier word that is itself illegal or ends a loop body: TINFO0 holds the word at the next address, which is waited for
while its page is on demand; 0 where none can be fetched, for no other trap goes before this one (04 R96, R98, R99). -/
def State.badModifier (s : State) (id : Nat) (w : Word) (reason : Nat) : State :=
  let c := s.core id
  match fetchAt s id (c.pc + 4) with
  | .stall page st => s.fetchStall id page st
  | .word n => s.leaderTrap id (illegalTrap n w reason) (c.pc + 4)
  | _ => s.leaderTrap id (illegalTrap 0 w reason) (c.pc + 4)

/-- Takes a modifier word (04 R94 to R96): where it is misplaced, or the word after it is illegal, the pair traps at
the modifier word; the followers of a gang go on after what was illegal, for an illegal pair after both words (04 R101; 06
R172). DESIGN CHOICE, unsafe: where the second word's page fails its hash, TPC and TINFO0 hold the second word's address, R259's
fetch address, not the modifier's (log 24). -/
def modifierState (m : Modifier) (s : State) : State :=
  let id := s.cur
  let c := s.core id
  let mw := modifierBits m
  if !c.mayIssue s.now then s
  else if c.md.isSome then s.leaderTrap id (illegalTrap mw c.mdWord 5) (c.pc + 4)
  else if c.loops.any fun l => l.last == c.pc then s.badModifier id mw 5
  else
    match fetchAt s id (c.pc + 4) with
    | .stall page st => s.fetchStall id page st
    | .integrity => s.codeIntegrity id (c.pc + 4)
    | .spoilt u pa => (s.spendMark u pa).allTrap id (fetchSpoilt (c.pc + 4))
    | .trap t un bad =>
      if t.cause = trPROTECTION && t.t1 = 1 then s.leaderTrap id (illegalTrap 0 mw 5) (c.pc + 4)
      else
        let s1 := s.tableError bad
        let s2 := if un then s1.notify (s.ctx (c.ctx.getD 0)).func 9 (c.ctx.getD 0) (BitVec.ofNat 32 c.lcore) 5
          (c.pc + 4) (c.pc + 4) 0 0x400 else s1
        s2.allTrap id t
    | .word w =>
      if !arithWord w then s.leaderTrap id (illegalTrap w mw 5) (c.pc + 4)
      else match decodeWord w with
        | .error e => s.leaderTrap id (illegalTrap w mw e.code) (c.pc + 8)
        | .ok _ => s.setCore id (c.prefixed m)

/-- The modifier word (04 R94 to R96). -/
def execModifierWord (n a : BitVec 1) (c : BitVec 2) (st e : BitVec 1) (k : BitVec 6) (s : State) :
    Host.Outcome State Fault Refusal :=
  .next (modifierState (modifierOf n a c st e k) s)

end Sys2Proof.Machine
end

