-- ==== Sys2Proof/Machine/Banks.lean ====
section
/-!
DEFINITION. The banks of a local memory: which bank serves a word, what a joint operation reads of its A panel in a cycle, the
core's own accesses with their replay, and what lets a delivery wait (05 R104; 07 R180, R186; 08 R205 to R209).
-/

namespace Sys2Proof.Machine

/-- Cycles per row pair per step (07 R180). -/
def pairCycles (cls : Nat) : Nat := if cls = 0 then 32 else if cls = 1 then 16 else 8

/-- The step length D (07 R180). -/
def stepLen (o : JointOp) : Nat := pairCycles o.cls * o.mmax / 2

/-- The bank of a local word (08 R205): bits A[5:2], each folded with the parity of the masked row bits. -/
def bankOf (h : Word) (w : Nat) : Nat :=
  let row := BitVec.ofNat 8 (w / 16)
  let fold (i : Nat) : Nat :=
    let m := row &&& h.extractLsb' (8 * i) 8
    ((List.range 8).filter fun j => m.getLsbD j).length % 2
  (List.range 4).foldl (fun k i => k + (bitsOf w i 1 + fold i) % 2 * 2 ^ i) 0

/-- One cycle of the banks for one access: the bank and word of each service of the cycle, and the words not served; a
bank serves one word. -/
def serveWords (h : Word) (used : List (Nat × Nat)) : List Nat → List (Nat × Nat) × List Nat
  | [] => (used, [])
  | w :: ws =>
    let k := bankOf h w
    match used.find? fun u => u.1 == k with
    | none => serveWords h ((k, w) :: used) ws
    | some u =>
      let r := serveWords h used ws
      if u.2 = w then r else (r.1, w :: r.2)

/-- One cycle of the banks for accesses in program order: the services, and the words of each access not served. -/
def serveAll (h : Word) (used : List (Nat × Nat)) : List (List Nat) → List (Nat × Nat) × List (List Nat)
  | [] => (used, [])
  | a :: as =>
    let r := serveWords h used a
    let q := serveAll h r.1 as
    (q.1, r.2 :: q.2)

/-- The local words of ranges of bytes, each once, in the order of the ranges: conflicting lanes are served lowest lane first (08
R207). -/
def wordsInOrder (rs : List (Nat × Nat)) : List Nat :=
  (rs.flatMap fun r => (List.range ((r.1 + r.2 + 3) / 4 - r.1 / 4)).map (r.1 / 4 + ·)).eraseDups

/-- The local words of ranges of bytes, each once, in rising order. -/
def wordsOf (rs : List (Nat × Nat)) : List Nat :=
  rs.foldl (fun l r => (List.range ((r.1 + r.2 + 3) / 4 - r.1 / 4)).foldl (fun l i => insertNat (r.1 / 4 + i) l) l) []

/-! ### The A panel (07 R174, R176, R180) -/

/-- The ranges of bytes that K block `q` of row `r` takes of a panel of format `f` with `m` rows (07 R176). -/
def blockSpans (f m r q : Nat) : List (Nat × Nat) :=
  match f with
  | 0 => [(256 * r + 32 * q, 32)]
  | 3 => [(64 * r + 8 * q, 8), (64 * m + 4 * r + q / 2, 1)]
  | 4 => [(128 * r + 32 * (q / 2), 32)]
  | _ => [(128 * r + 16 * q, 16), (128 * m + 4 * r + q / 2, 1)]

/-- The words that row pair `p` of slice `j` works on in step `st`. -/
def pairWords (o : JointOp) (j base st p : Nat) : List Nat :=
  let pn := o.panels.getD j ([], 0, 0)
  wordsOf ([2 * p, 2 * p + 1].flatMap fun r =>
    (blockSpans pn.2.1 pn.2.2 r ((j + st) % 8)).map fun b => (base + b.1, b.2))

/-- The words that the slice of core `id` reads of its panel in cycle `t` (07 R174, R180). DESIGN CHOICE, unsafe: R180 gives
the row pair's cycles, not which word is read in which of them; its words are spread evenly over them (log 10). -/
def panelReads (s : State) (id t : Nat) : List Nat :=
  match (s.cluster (clusterOf id)).joint, (s.core id).slice.lock with
  | some o, some (base, _) =>
    let d := stepLen o
    let n := t - o.start
    let p := n % d / pairCycles o.cls
    if o.start ≤ t && decide (n < 8 * d) && decide (2 * p < (o.panels.getD (indexOf id) ([], 0, 0)).2.2) then
      let ws := pairWords o (indexOf id) base (n / d) p
      let u := n % pairCycles o.cls
      ((List.range ws.length).zip ws).filterMap fun x =>
        if x.1 * pairCycles o.cls / ws.length = u then some x.2 else none
    else []
  | _, _ => []

/-! ### A cycle (08 R207 to R209) -/

/-- The core's banks in cycle `now`; the reads of the panel come first. -/
def Core.bankCycle (c : Core) (now : Nat) (panel : List Nat) : Banks :=
  if c.banks.at' = now then c.banks
  else { at' := now, used := panel.map fun w => (bankOf c.bankhash w, w), waited := false }

/-- An access of the core's own to local words, first tried in cycle `now`: where the banks do not serve all of them it enters
the replay queue. `load` marks a scalar LD; `lane` is the lane group a vector instruction takes. -/
def Core.access (c : Core) (now : Nat) (panel words : List Nat) (stamp : Nat) (load : Bool) (lane : Option Nat) : Core :=
  let b := c.bankCycle now panel
  let r := serveWords c.bankhash b.used words
  { c with
    banks := { b with used := r.1 },
    replay := if r.2.isEmpty then c.replay
      else c.replay ++ [{ words := r.2, since := now, stamp := stamp, load := load, lane := lane }] }

/-- CONFLICTS with `n` cycles counted in CORE, stopping at 0xFFFF (08 R209). -/
def addConflicts (w : Word) (n : Nat) : Word :=
  BitVec.ofNat 32 (w.toNat / 65536 * 65536 + min 65535 (w.toNat % 65536 + n))

/-- CONFLICTS with one more cycle counted in ENGINE, stopping at 0xFFFF (08 R209). -/
def addEngine (w : Word) : Word := BitVec.ofNat 32 (min 65535 (w.toNat / 65536 + 1) * 65536 + w.toNat % 65536)

/-- The pending writes with that of the load that issued in cycle `t` put off by a cycle. -/
def putOff (t : Nat) (ps : List Pend) : List Pend :=
  ps.map fun p => if p.load = some t then { p with landAt := p.landAt + 1 } else p

/-- The core after one more replay cycle of an access: its result comes a cycle later (08 R208). -/
def Core.replayOnce (c : Core) (r : Replay) : Core :=
  if r.load then { c with pend := putOff r.since c.pend }
  else if r.lane.isSome then
    { c with vfly := c.vfly.map fun f => if f.stamp = r.stamp then { f with readyAt := f.readyAt + 1 } else f }
  else c

/-- BANK_REPLAY_RETRY of core `c` (08 R208): the accesses first tried in an earlier cycle are retried in program order,
and leave in that order. Each has one more replay cycle, in which a vector instruction keeps its lane group (06 R144). -/
def execBankReplayRetry (c : Nat) (s : State) : Host.Outcome State Fault Refusal :=
  let k := s.core c
  let old := k.replay.filter fun r => decide (r.since < s.now)
  let new := k.replay.filter fun r => !decide (r.since < s.now)
  if old.isEmpty then .next s
  else
    let open' := old.filter fun r => !r.words.isEmpty
    let b := k.bankCycle s.now (panelReads s c s.now)
    let r := serveAll k.bankhash b.used (old.map Replay.words)
    let rest := ((old.zip r.2).map fun p => { p.1 with words := p.2 }).dropWhile fun r => r.words.isEmpty
    let k1 := open'.foldl Core.replayOnce k
    let cl := s.cluster (clusterOf c)
    let lanes := open'.filterMap Replay.lane
    .next ((s.setCore c { k1 with replay := rest ++ new, banks := { b with used := r.1 },
                                  conflicts := addConflicts k.conflicts open'.length }).setCluster (clusterOf c)
      { cl with laneFree := lanes.foldl (fun l g => put g (max (look 0 g l) (s.now + 1)) l) cl.laneFree })

/-! ### Staging and deliveries -/

/-- Whether words want a bank that another word has in this cycle. -/
def clash (h : Word) (used : List (Nat × Nat)) (words : List Nat) : Bool :=
  words.any fun w => used.any fun u => u.1 == bankOf h w && u.2 != w

/-- The core after the banks served the next eight words of its MLDB, or put them off by a cycle (07 R186; 08 R207). DESIGN
CHOICE, unsafe: the eight words of a cycle are served together or not at all (log 10). -/
def Core.stageWords (c : Core) (now : Nat) (panel : List Nat) : Core :=
  let x := c.slice
  let left := x.stage.length - x.staged
  if left = 0 || x.stagedAt ≤ now || now + (left + 31) / 32 < x.stagedAt then c
  else
    let b := c.bankCycle now panel
    let ws := wordsOf [(x.stageAt + x.staged, min 32 left)]
    if clash c.bankhash b.used ws then { c with slice := { x with stagedAt := x.stagedAt + 1 }, banks := b }
    else { c with slice := { x with staged := x.staged + 32 },
                  banks := { b with used := (ws.map fun w => (bankOf c.bankhash w, w)) ++ b.used } }

/-- Whether a delivery to local words is served in this cycle, and the core either way: a delivery that has to wait counts
once in the cycle (08 R207 to R209). -/
def Core.deliver (c : Core) (now : Nat) (panel words : List Nat) : Bool × Core :=
  let b := c.bankCycle now panel
  if clash c.bankhash b.used words then
    (false, { c with banks := { b with waited := true }, conflicts := if b.waited then c.conflicts else addEngine c.conflicts })
  else (true, { c with banks := { b with used := (words.map fun w => (bankOf c.bankhash w, w)) ++ b.used } })

end Sys2Proof.Machine
end

