-- ==== Sys2Proof/Machine/Local.lean ====
section
/-!
DEFINITION. Scalar loads and stores of raw local memory (05 R104, R117, R118; 07 R182; 08 R208; 21 R445).
-/

namespace Sys2Proof.Machine

/-- The vector memory instructions (06 R161). -/
def isVMem : Instr → Bool
  | .vld _ _ _ => true
  | .vst _ _ _ => true
  | .vlds _ _ _ => true
  | .vsts _ _ _ => true
  | .vgth _ _ _ _ => true
  | .vsct _ _ _ _ => true
  | _ => false

/-- Every earlier vector memory instruction of the core has made its local access, its replays included (05 R118; 08
R208). -/
def Core.localDone (c : Core) : Bool :=
  !(c.vq.any fun e => isVMem e.instr) && c.replay.all fun r => r.lane.isNone

/-- Every earlier local access of the core has been made, scalar and vector (08 R206; 16 R368). -/
def Core.accessesDone (c : Core) : Bool := c.localDone && c.replay.isEmpty

/-- Whether a scalar access stalls at issue: behind vector accesses, or while the replay queue is full (05 R118; 08 R208). -/
def Core.accessStalls (c : Core) : Bool := !c.localDone || decide (4 ≤ c.replay.length)

/-- The bytes of a dense B operand of format `f` (15 R339). -/
def bSize (f : Nat) : Nat := if f = 0 then 1024 else 528

/-- The bytes of a sparse tile of `n` non-zeros of format `f` (15 R338). -/
def tileSize (f n : Nat) : Nat := 72 + n * (if f = 0 then 2 else 1)

/-- The number of 1 bits of a bitmap (15 R338). -/
def popBytes (bs : List Byte) : Nat := bs.foldl (fun n b => n + ((List.range 8).filter fun i => b.getLsbD i).length) 0

/-- The local ranges locked against writes: the A panel of a joint operation, the tile and the B operand of a sparse
one, the source of an exchange transfer that has not read its last byte (07 R182; 13 R300; 15 R353). -/
def Core.locks (c : Core) : List (Nat × Nat) :=
  c.slice.lock.toList ++
  ((c.transfers.filter fun t => decide (t.moved + t.buf.length < t.bytes)).map fun t => (t.srcAt, t.bytes)) ++
  match c.sparse with
  | none => []
  | some o => [(o.base, tileSize o.fmt (popBytes o.bitmap)), (o.bbase, bSize o.bfmt)]

/-- Whether local bytes fall in a locked range (07 R182; 15 R353). -/
def Core.locked (c : Core) (a n : Nat) : Bool := c.locks.any fun l => decide (a < l.1 + l.2) && decide (l.1 < a + n)

/-- Drops the mark of a local word: the first read of it raises the error (21 R444). -/
def Core.unmark (c : Core) (w : Nat) : Core := { c with memBad := c.memBad.filter (· != w) }

/-- The local address a scalar access computes (05 R117). -/
def Core.scalarAddr (c : Core) (b : BitVec 5) (o : BitVec 13) : Nat := (addrOf (c.readG b) o).toNat

/-- A scalar load of `size` bytes; `ext` extends them (05 R117). -/
def loadOp (d b : BitVec 5) (o : BitVec 13) (size : Nat) (ext : Nat → Word) (id : Nat) (s : State) : Res :=
  let c := s.core id
  let a := c.scalarAddr b o
  if c.accessStalls then .wait s .stall
  else orTrap s (scalarTrap c a size) fun _ =>
    match c.badWord a size with
    | some w => .trap (s.setCore id (c.unmark w)) (mkTrap trDATA a 6 0 0)
    | none => .done (s.setCore id ((c.queueLoad s.now d (ext (leNat (readBytes c.mem a size)))).access s.now
        (panelReads s id s.now) [a / 4] c.serial true none)) .next

/-- A scalar store of `size` bytes, written at issue (05 R117); it stalls while its bytes are in a locked A panel (07
R182). DEDUCED, unsafe: R445 names ST among the readers that meet an uncorrectable word, so a store into one traps and writes
nothing, whatever its size (log 95). -/
def storeOp (d b : BitVec 5) (o : BitVec 13) (size : Nat) (id : Nat) (s : State) : Res :=
  let c := s.core id
  let a := c.scalarAddr b o
  if c.accessStalls then .wait s .stall
  else orTrap s (scalarTrap c a size) fun _ =>
    if c.locked a size then .wait s .stall
    else match c.badWord a size with
    | some w => .trap (s.setCore id (c.unmark w)) (mkTrap trDATA a 6 0 0)
    | none => .done (s.setCore id ((c.store a (leBytes (c.readG d).toNat size)).access s.now (panelReads s id s.now) [a / 4]
        c.serial false none)) .next

/-- LD.B (05 R117). -/
def execLdB (d b : BitVec 5) (o : BitVec 13) (s : State) : Host.Outcome State Fault Refusal :=
  issue (.ldB d b o) (loadOp d b o 1 fun n => (BitVec.ofNat 8 n).signExtend 32) s

/-- LD.BU (05 R117). -/
def execLdBu (d b : BitVec 5) (o : BitVec 13) (s : State) : Host.Outcome State Fault Refusal :=
  issue (.ldBu d b o) (loadOp d b o 1 fun n => BitVec.ofNat 32 n) s

/-- LD.H (05 R117). -/
def execLdH (d b : BitVec 5) (o : BitVec 13) (s : State) : Host.Outcome State Fault Refusal :=
  issue (.ldH d b o) (loadOp d b o 2 fun n => (BitVec.ofNat 16 n).signExtend 32) s

/-- LD.HU (05 R117). -/
def execLdHu (d b : BitVec 5) (o : BitVec 13) (s : State) : Host.Outcome State Fault Refusal :=
  issue (.ldHu d b o) (loadOp d b o 2 fun n => BitVec.ofNat 32 n) s

/-- LD.W (05 R117). -/
def execLdW (d b : BitVec 5) (o : BitVec 13) (s : State) : Host.Outcome State Fault Refusal :=
  issue (.ldW d b o) (loadOp d b o 4 fun n => BitVec.ofNat 32 n) s

/-- ST.B (05 R117). -/
def execStB (d b : BitVec 5) (o : BitVec 13) (s : State) : Host.Outcome State Fault Refusal :=
  issue (.stB d b o) (storeOp d b o 1) s

/-- ST.H (05 R117). -/
def execStH (d b : BitVec 5) (o : BitVec 13) (s : State) : Host.Outcome State Fault Refusal :=
  issue (.stH d b o) (storeOp d b o 2) s

/-- ST.W (05 R117). -/
def execStW (d b : BitVec 5) (o : BitVec 13) (s : State) : Host.Outcome State Fault Refusal :=
  issue (.stW d b o) (storeOp d b o 4) s

end Sys2Proof.Machine
end

