-- ==== Sys2Proof/Machine/PathOps.lean ====
section
/-!
DEFINITION. The path instructions (08 R202, R203).
-/

namespace Sys2Proof.Machine

/-- Whether the cluster's cache holds a tree record; if not, the instruction stalls at issue and the record is asked
for (08 R196). -/
def recordReady (s : State) (id h : Nat) : Bool :=
  (s.cluster (clusterOf id)).cached.contains ((s.core id).ctx.getD 0, h)

/-- Asks for a tree record. -/
def State.askRecord (s : State) (id h : Nat) : State :=
  let k := clusterOf id
  let cl := s.cluster k
  let q := ((s.core id).ctx.getD 0, h)
  s.setCluster k { cl with fills := if cl.fills.contains q then cl.fills else cl.fills ++ [q] }

/-- The rest of an instruction that needs the record of handle `h` (08 R196). DESIGN CHOICE, unsafe: of an uncorrectable word in the
cache of records R445 gives no TINFO; TINFO0 is the handle, the others are 0 (21 R444; log 94). -/
def needRecord (id h : Nat) (s : State) (k : Unit → Res) : Res :=
  if recordReady s id h then k ()
  else match s.readMark [.treeCache (clusterOf id)] with
    | some q => .trap q (mkTrap trDATA h 0 0 0)
    | none => .wait (s.askRecord id h) .stall

/-- Writes a path register; the result lands in the next cycle (08 R203). -/
def landPath (d : BitVec 3) (p : Path) (id : Nat) (s : State) : Res :=
  .done (s.setCore id ((s.core id).writeA d p)) .next

/-- MALFORMED_PATH (08 R198, R203). -/
def badPath (s : State) (reason : Nat) (p : Path) : Res := .trap s (pathTrap reason p)

/-- The rest of an instruction once its source path has passed R198 (08 R196, R203). -/
def withTree (p : Path) (k : Tree → Res) (id : Nat) (s : State) : Res :=
  needRecord id (pHandle p) s fun _ =>
  match checkPath s ((s.core id).ctx.getD 0) p with
  | .error reason => badPath s reason p
  | .ok t => k t

/-- PSET (08 R203). -/
def psetOp (d : BitVec 3) (a b : BitVec 5) (id : Nat) (s : State) : Res :=
  let c := s.core id
  let h := (c.readG a).toNat % 256
  let t := (c.readG b).toNat % 32
  let p := mkPath h t 0
  needRecord id h s fun _ =>
  match treeAt s (c.ctx.getD 0) h with
  | none => badPath s 1 p
  | some r => if r.depth < t then badPath s 3 p else landPath d p id s

/-- PCHILD (08 R203). -/
def pchildOp (d a : BitVec 3) (b : BitVec 5) (id : Nat) (s : State) : Res :=
  let c := s.core id
  let p := c.readA a
  withTree p (fun t =>
    if pDepth p = t.depth then badPath s 6 p
    else landPath d (mkPath (pHandle p) (pDepth p + 1)
      (pIndex p + (c.readG b).toNat % 4 * 4 ^ (t.depth - pDepth p - 1))) id s) id s

/-- PPARENT (08 R203). -/
def pparentOp (d a : BitVec 3) (id : Nat) (s : State) : Res :=
  let p := (s.core id).readA a
  withTree p (fun t =>
    if pDepth p = 0 then badPath s 6 p
    else landPath d (mkPath (pHandle p) (pDepth p - 1)
      (pIndex p - pIndex p % 4 ^ (t.depth - pDepth p + 1))) id s) id s

/-- PNEXT (08 R203). -/
def pnextOp (d a : BitVec 3) (id : Nat) (s : State) : Res :=
  let p := (s.core id).readA a
  withTree p (fun t =>
    let n := pIndex p + blockCount t (pDepth p)
    if 4 ^ t.depth ≤ n then badPath s 6 p else landPath d (mkPath (pHandle p) (pDepth p) n) id s) id s

/-- PMORT (08 R203): the record of reasons 4 and 5 holds the index built. -/
def pmortOp (d : BitVec 3) (a b : BitVec 5) (id : Nat) (s : State) : Res :=
  let c := s.core id
  let p := c.readA d
  let r := (c.readG a).toNat
  let l := (c.readG b).toNat
  let built := mkPath (pHandle p) (pDepth p) (morton (r % 2 ^ 24) (l % 2 ^ 24))
  withTree p (fun t =>
    if 2 ^ t.depth ≤ r || 2 ^ t.depth ≤ l then badPath s 4 built
    else if morton r l % blockCount t (pDepth p) ≠ 0 then badPath s 5 built
    else landPath d (mkPath (pHandle p) (pDepth p) (morton r l)) id s) id s

/-- PTRUNC (08 R203). -/
def ptruncOp (d a : BitVec 3) (b : BitVec 5) (id : Nat) (s : State) : Res :=
  let c := s.core id
  let p := c.readA a
  let t' := (c.readG b).toNat % 32
  withTree p (fun t =>
    if pDepth p < t' then badPath s 6 p
    else landPath d (mkPath (pHandle p) t' (pIndex p - pIndex p % 4 ^ (t.depth - t'))) id s) id s

/-- PROW, PCOL and PDEPTH: a field of a checked path (08 R203). -/
def pathField (d : BitVec 5) (a : BitVec 3) (f : Path → Nat) (id : Nat) (s : State) : Res :=
  let p := (s.core id).readA a
  withTree p (fun _ => landRes d (fun _ => BitVec.ofNat 32 (f p)) id s) id s

/-- PSETLO and PSETHI: the other half is kept (08 R203). -/
def pathHalf (d : BitVec 3) (a : BitVec 5) (hi : Bool) (id : Nat) (s : State) : Res :=
  let c := s.core id
  let p := c.readA d
  let w := c.readG a
  landPath d (if hi then w ++ p.extractLsb' 0 32 else p.extractLsb' 32 32 ++ w) id s

/-- PSET. -/
def execPset (d : BitVec 3) (a b : BitVec 5) (s : State) : Host.Outcome State Fault Refusal :=
  issue (.pset d a b) (psetOp d a b) s

/-- PCHILD. -/
def execPchild (d a : BitVec 3) (b : BitVec 5) (s : State) : Host.Outcome State Fault Refusal :=
  issue (.pchild d a b) (pchildOp d a b) s

/-- PPARENT. -/
def execPparent (d a : BitVec 3) (s : State) : Host.Outcome State Fault Refusal :=
  issue (.pparent d a) (pparentOp d a) s

/-- PNEXT. -/
def execPnext (d a : BitVec 3) (s : State) : Host.Outcome State Fault Refusal :=
  issue (.pnext d a) (pnextOp d a) s

/-- PMORT. -/
def execPmort (d : BitVec 3) (a b : BitVec 5) (s : State) : Host.Outcome State Fault Refusal :=
  issue (.pmort d a b) (pmortOp d a b) s

/-- PROW (08 R199, R203). -/
def execProw (d : BitVec 5) (a : BitVec 3) (s : State) : Host.Outcome State Fault Refusal :=
  issue (.prow d a) (pathField d a fun p => mortonRow (pIndex p)) s

/-- PCOL (08 R199, R203). -/
def execPcol (d : BitVec 5) (a : BitVec 3) (s : State) : Host.Outcome State Fault Refusal :=
  issue (.pcol d a) (pathField d a fun p => mortonCol (pIndex p)) s

/-- PDEPTH (08 R203). -/
def execPdepth (d : BitVec 5) (a : BitVec 3) (s : State) : Host.Outcome State Fault Refusal :=
  issue (.pdepth d a) (pathField d a pDepth) s

/-- PTRUNC. -/
def execPtrunc (d a : BitVec 3) (b : BitVec 5) (s : State) : Host.Outcome State Fault Refusal :=
  issue (.ptrunc d a b) (ptruncOp d a b) s

/-- PGETLO (08 R203): no check. -/
def execPgetlo (d : BitVec 5) (a : BitVec 3) (s : State) : Host.Outcome State Fault Refusal :=
  issue (.pgetlo d a) (landRes d fun c => (c.readA a).extractLsb' 0 32) s

/-- PGETHI (08 R203): no check. -/
def execPgethi (d : BitVec 5) (a : BitVec 3) (s : State) : Host.Outcome State Fault Refusal :=
  issue (.pgethi d a) (landRes d fun c => (c.readA a).extractLsb' 32 32) s

/-- PSETLO (08 R203). -/
def execPsetlo (d : BitVec 3) (a : BitVec 5) (s : State) : Host.Outcome State Fault Refusal :=
  issue (.psetlo d a) (pathHalf d a false) s

/-- PSETHI (08 R203). -/
def execPsethi (d : BitVec 3) (a : BitVec 5) (s : State) : Host.Outcome State Fault Refusal :=
  issue (.psethi d a) (pathHalf d a true) s

end Sys2Proof.Machine
end

