-- ==== Sys2Proof/Machine/VectorOps.lean ====
section
/-!
DEFINITION. The vector instructions: issue into the vector queue (06 R143), the address checks of vector memory (R161 to
R163; 08 R210 to R213), and what each instruction writes when it runs (06 R151 to R165). Dispatch and completion stand
in VectorUnit.lean.
-/

namespace Sys2Proof.Machine

/-! ### Elements and lanes (06 R141, R142) -/

/-- Element `i` of width `w`. -/
def elem (w : Nat) (v : Vec) (i : Nat) : BitVec w := v.extractLsb' (w * i) w

/-- The register whose `n` elements of width `w` are given. -/
def packVec (w n : Nat) (f : Nat → BitVec w) : Vec :=
  BitVec.ofNat 256 ((List.range n).foldl (fun x i => x + (f i).toNat * 2 ^ (w * i)) 0)

/-- Whether lane `i` is enabled by the mask value a mask field names (06 R142). -/
def laneOn (c : Core) (m : BitVec 3) (i : Nat) : Bool := m == 0 || (c.readM m).getLsbD i

/-- The register bits of the enabled elements of width `w`. -/
def laneMask (w : Nat) (on : Nat → Bool) : Vec :=
  packVec w (256 / w) fun i => if on (i / (32 / w)) then BitVec.allOnes w else 0#w

/-- What an instruction will write: a vector register under a mask, a mask register, flags. -/
structure Written where
  vreg   : Option (BitVec 5)
  vmask  : Vec
  value  : Vec
  mreg   : Option (BitVec 3)
  mvalue : BitVec 8
  flags  : Flags
  deriving DecidableEq, Repr

/-- A vector register written element by element where its lane is enabled; the flags of enabled elements count (06
R142, R145). -/
def writtenBy (w : Nat) (d : BitVec 5) (on : Nat → Bool) (f : Nat → BitVec w × Flags) : Written :=
  let n := 256 / w
  { vreg := some d, vmask := laneMask w on, value := packVec w n fun i => (f i).1, mreg := none, mvalue := 0,
    flags := (List.range n).foldl (fun fl i => if on (i / (32 / w)) then fl ||| (f i).2 else fl) 0 }

/-- A mask register written. -/
def writtenMask (d : BitVec 3) (x : BitVec 8) (fl : Flags) : Written :=
  { vreg := none, vmask := 0, value := 0, mreg := some d, mvalue := x, flags := fl }

/-- Nothing written but flags. -/
def writtenNone (fl : Flags) : Written := { vreg := none, vmask := 0, value := 0, mreg := none, mvalue := 0, flags := fl }

/-! ### Issue into the queue (06 R143) -/

/-- The smallest pass value among the cores with a queue that is not empty that share lane groups with core `id`: those of its
cluster, in a shared one those of its own partition (06 R149; 19 R423). -/
def minPass (s : State) (id : Nat) : Option Nat :=
  ((clusterCores (clusterOf id)).filter fun j => !(s.core j).vq.isEmpty && tagOf s j == tagOf s id).foldl (fun m j =>
    match m with
    | none => some (s.core j).pass
    | some p => some (min p (s.core j).pass)) none

/-- Appends an entry to a core's vector queue; a queue that was empty takes its pass value (06 R149). -/
def State.enqueue (s : State) (id : Nat) (e : VEntry) : State :=
  let c := s.core id
  let p := if c.vq.isEmpty then max c.pass ((minPass s id).getD 0) else c.pass
  s.setCore id { c with vq := c.vq ++ [{ e with stamp := c.serial + 1 }], pass := p, serial := c.serial + 1 }

/-- An entry as the core issues it (06 R143). -/
def Core.entry (c : Core) (i : Instr) : VEntry :=
  { instr := i, addr := c.issueAddr, rmode := roundingOf c.rmode, md := c.md, scalar := 0, lanes := [], bind := none,
    data := 0, lane0 := 0, laneN := 8, seqs := [], stamp := 0, take := false }

/-- Whether a vector instruction stalls at issue: a full queue, or a vector frame still feeding (05 R124; 06 R143). -/
def Core.vectorStall (c : Core) : Bool := decide (16 ≤ c.vq.length) || c.feeds

/-- Issues a vector instruction: registers are checked, then it enters the queue with what `fill` adds to its entry. -/
def vectorOp (i : Instr) (fill : Core → VEntry → VEntry) (id : Nat) (s : State) : Res :=
  let c := s.core id
  if c.vectorStall then .wait s .stall
  else orTrap s (vregTrap c (vregsNamed i)) fun _ => .done (s.enqueue id (fill c (c.entry i))) .next

/-- Issues a vector instruction that takes nothing from the scalar side. -/
def plainVector (i : Instr) (s : State) : Host.Outcome State Fault Refusal := issue i (vectorOp i fun _ e => e) s

/-! ### What arithmetic writes (06 R151 to R160) -/

/-- Two-operand FP32 arithmetic. -/
def fp32Bin (c : Core) (e : VEntry) (d a b : BitVec 5) (m : BitVec 3) (f : Value → Value → Value × Flags) : Written :=
  writtenBy 32 d (laneOn c m) fun i =>
    let r := f (value32 (elem 32 (c.readV a) i)) (value32 (elem 32 (c.readV b) i))
    let x := deliver32 e.md e.rmode r.1
    (x.1, r.2 ||| x.2)

/-- Fused FP32 arithmetic: the former vd is the third operand (06 R151). -/
def fp32Fma (c : Core) (e : VEntry) (d a b : BitVec 5) (m : BitVec 3) (negP negC : Bool) : Written :=
  writtenBy 32 d (laneOn c m) fun i =>
    let r := fFma e.rmode negP negC (value32 (elem 32 (c.readV a) i)) (value32 (elem 32 (c.readV b) i))
      (value32 (elem 32 (c.readV d) i))
    let x := deliver32 e.md e.rmode r.1
    (x.1, r.2 ||| x.2)

/-- Two-operand BF16 arithmetic. -/
def bf16Bin (c : Core) (e : VEntry) (d a b : BitVec 5) (m : BitVec 3) (f : Value → Value → Value × Flags) : Written :=
  writtenBy 16 d (laneOn c m) fun i =>
    let r := f (valueBF (elem 16 (c.readV a) i)) (valueBF (elem 16 (c.readV b) i))
    let x := deliverBF e.md e.rmode r.1
    (x.1, r.2 ||| x.2)

/-- Fused BF16 arithmetic. -/
def bf16Fma (c : Core) (e : VEntry) (d a b : BitVec 5) (m : BitVec 3) (negP negC : Bool) : Written :=
  writtenBy 16 d (laneOn c m) fun i =>
    let r := fFma e.rmode negP negC (valueBF (elem 16 (c.readV a) i)) (valueBF (elem 16 (c.readV b) i))
      (valueBF (elem 16 (c.readV d) i))
    let x := deliverBF e.md e.rmode r.1
    (x.1, r.2 ||| x.2)

/-- Integer arithmetic on elements of width `w`, with exact result `f` (06 R152). -/
def intBin (w : Nat) (c : Core) (e : VEntry) (d a b : BitVec 5) (m : BitVec 3) (signed : Bool)
    (f : BitVec w → BitVec w → Int) : Written :=
  writtenBy w d (laneOn c m) fun i => deliverInt e.md signed w (f (elem w (c.readV a) i) (elem w (c.readV b) i))

/-- Integer arithmetic at the width a width field names: 32, 16 or 8 bits (04 R89). -/
def intVec (wd : BitVec 2) (c : Core) (e : VEntry) (d a b : BitVec 5) (m : BitVec 3) (signed : Bool)
    (f : (w : Nat) → BitVec w → BitVec w → Int) : Written :=
  if wd = 0 then intBin 32 c e d a b m signed (f 32)
  else if wd = 1 then intBin 16 c e d a b m signed (f 16)
  else intBin 8 c e d a b m signed (f 8)

/-- An entry whose modifier does not saturate: a bitwise result never does (06 R152). -/
def VEntry.unsaturated (e : VEntry) : VEntry := { e with md := e.md.map fun m => { m with sat := false } }

/-- The shift amount of an element: the whole word, or the low 8 bits of a packed sub-element (02 R53). -/
def shiftAmount {w : Nat} (b : BitVec w) : Nat := if w = 32 then b.toNat else b.toNat % 256

/-- The exact result of an element's left shift (06 R152). -/
def vshlInt (w : Nat) (a b : BitVec w) : Int := if w ≤ shiftAmount b then 0 else a.toInt * 2 ^ shiftAmount b

/-- The exact result of an element's logical right shift (06 R152). -/
def vshrInt (w : Nat) (a b : BitVec w) : Int :=
  if w ≤ shiftAmount b then 0 else ((a.toNat / 2 ^ shiftAmount b : Nat) : Int)

/-- The exact result of an element's arithmetic right shift (06 R152). -/
def vsraInt (w : Nat) (a b : BitVec w) : Int :=
  if w ≤ shiftAmount b then (if a.toInt < 0 then -1 else 0) else a.toInt / 2 ^ shiftAmount b

/-- A compare: bit i is 1 where lane i is enabled and the comparison holds; enabled lanes count flags (06 R153). -/
def compare8 (c : Core) (d : BitVec 3) (a b : BitVec 5) (m : BitVec 3) (f : Word → Word → Bool × Flags) : Written :=
  let r (i : Nat) : Bool × Flags := f (elem 32 (c.readV a) i) (elem 32 (c.readV b) i)
  writtenMask d
    (BitVec.ofNat 8 ((List.range 8).foldl (fun x i => if laneOn c m i && (r i).1 then x + 2 ^ i else x) 0))
    ((List.range 8).foldl (fun fl i => if laneOn c m i then fl ||| (r i).2 else fl) 0)

/-- Equality of FP32 words: NV on a signalling NaN (06 R153). -/
def cmpEq (x y : Word) : Bool × Flags :=
  let a := value32 x
  let b := value32 y
  (!a.isNaN && !b.isNaN && equalNum a b, flagIf (a.isSig || b.isSig) flNV)

/-- Less than, or less or equal, of FP32 words: NV on any NaN (06 R153). -/
def cmpLess (orEq : Bool) (x y : Word) : Bool × Flags :=
  let a := value32 x
  let b := value32 y
  let nan := a.isNaN || b.isNaN
  (!nan && ((!equalNum a b && lessTotal a b) || (orEq && equalNum a b)), flagIf nan flNV)

/-- An FP32 reduction in the fixed tree; a lane that is not enabled counts as the identity; the modifier acts at the
last step (06 R156). -/
def reduceF (c : Core) (e : VEntry) (d a : BitVec 5) (m : BitVec 3) (ident : Word)
    (f : Value → Value → Value × Flags) : Written :=
  let x (i : Nat) : Word := if laneOn c m i then elem 32 (c.readV a) i else ident
  let comb (md : Option Modifier) (p q : Word × Flags) : Word × Flags :=
    let r := f (value32 p.1) (value32 q.1)
    let y := deliver32 md e.rmode r.1
    (y.1, p.2 ||| q.2 ||| r.2 ||| y.2)
  let leaf (i : Nat) : Word × Flags := (x i, 0)
  let r := comb e.md (comb none (comb none (leaf 0) (leaf 1)) (comb none (leaf 2) (leaf 3)))
    (comb none (comb none (leaf 4) (leaf 5)) (comb none (leaf 6) (leaf 7)))
  { writtenBy 32 d (fun _ => true) (fun i => (if i = 0 then r.1 else 0, 0#8)) with flags := r.2 }

/-- VREDIADD: an exact sum, then the stages (06 R156). -/
def reduceI (c : Core) (e : VEntry) (d a : BitVec 5) (m : BitVec 3) : Written :=
  let sum := (List.range 8).foldl (fun t i => if laneOn c m i then t + (elem 32 (c.readV a) i).toInt else t) (0 : Int)
  let r := deliverInt e.md true 32 sum
  { writtenBy 32 d (fun _ => true) (fun i => (if i = 0 then r.1 else 0, 0#8)) with flags := r.2 }

/-- A per-lane function of one FP32 register (06 R154, R157, R158). -/
def unary32 (c : Core) (d a : BitVec 5) (m : BitVec 3) (f : Word → Word × Flags) : Written :=
  writtenBy 32 d (laneOn c m) fun i => f (elem 32 (c.readV a) i)

/-- A narrowing conversion: elements 2i and 2i + 1 from lane i of two registers (06 R158). -/
def narrow16 (c : Core) (d a b : BitVec 5) (m : BitVec 3) (f : Value → BitVec 16 × Flags) : Written :=
  writtenBy 16 d (laneOn c m) fun i => f (value32 (elem 32 (c.readV (if i % 2 = 0 then a else b)) (i / 2)))

/-- Conversion of a value to BF16 under a modifier (06 R158). -/
def toBF (e : VEntry) (v : Value) : BitVec 16 × Flags :=
  let r := roundBF e.rmode (v.scaled (modScale e.md))
  (modClamp e.md 16 0x3F80#16 valueBF (modSign e.md 16 r.1), r.2)

/-- Conversion of a value to FP16 under a modifier (06 R158). -/
def toF16 (e : VEntry) (v : Value) : BitVec 16 × Flags :=
  let r := roundF16 e.rmode (v.scaled (modScale e.md))
  (modClamp e.md 16 0x3C00#16 valueF16 (modSign e.md 16 r.1), r.2)

/-- The smallest scale code under which a magnitude stays within a bound, 254 if none (06 R159): |x| = m * 2^e, bound
n * 2^k. -/
def scaleFor (m : Nat) (e : Int) (n : Nat) (k : Int) : Nat :=
  let fits (s : Nat) : Bool :=
    let x := e + 127 - (s : Int)
    let lo := min x k
    decide (m * 2 ^ (x - lo).toNat ≤ n * 2 ^ (k - lo).toNat)
  ((List.range 255).find? fits).getD 254

/-- VFXENC (06 R159): the block of 32 values under clamp code `bound`. -/
def fxEncode (c : Core) (e : VEntry) (d a : BitVec 5) : Written :=
  let xs := (List.range 32).map fun j => value32 (elem 32 (c.readV (a + BitVec.ofNat 5 (j / 8))) (j % 8))
  let bound := match e.bind with
    | none => 0x7F
    | some b => if b.clamp = 0 then 0x7F else b.clamp
  let big := xs.foldl (fun (p : Nat × Int) v =>
    match v with
    | .fin _ m x => if p.1 = 0 || lessTotal (.fin false p.1 p.2) (.fin false m x) then (m, x) else p
    | _ => p) (0, 0)
  let bv := match narrowFloat fmtE4M3 bound with
    | .fin _ n k => (n, k)
    | _ => (0, 0)
  let s := if big.1 = 0 then 127 else scaleFor big.1 big.2 bv.1 bv.2
  let enc := xs.map fun v => encodeNarrow .e4m3 v s bound
  let nan := xs.any Value.isNaN
  let r := fx8Encode (enc.map Encoded.code) (if nan then 0xFF else s)
  { writtenBy 32 d (fun _ => true) (fun i => (BitVec.ofNat 32 (leNat ((r.1.drop (4 * i)).take 4)), 0#8)) with
    flags := enc.foldl (fun fl x => fl ||| x.flags) r.2 }

/-- The bytes of a register, byte 0 lowest. -/
def vecBytes (v : Vec) : List Byte := (List.range 32).map fun i => elem 8 v i

/-- VFXDEC (06 R160): NV once for a malformed block (02 R49). -/
def fxDecode (c : Core) (d a : BitVec 5) (j : BitVec 2) : Written :=
  let bs := vecBytes (c.readV a)
  let bad := (fx8Codes bs).isNone
  let r := writtenBy 32 d (fun _ => true) fun i => round32 .nearestEven (fx8Value bs (8 * j.toNat + i))
  { r with flags := r.flags ||| flagIf bad flNV }

/-! ### Vector memory (06 R161 to R165; 08 R210 to R213) -/

/-- The format of window `k` (08 R210). -/
def windowElem (k : Nat) : Elem :=
  match k with
  | 1 => .e4m3
  | 2 => .e5m2
  | 3 => .e2m1
  | 4 => .i8
  | 5 => .i4
  | 6 => .fx8
  | _ => .f16

/-- The tree FORMAT window `k` requires (08 R210). -/
def windowFormat (k : Nat) : Nat := if k = 7 then 2 else k + 2

/-- The range of a unit address: 0 raw, 1 to 7 a window, none (06 R161). -/
def rangeOf (u : Int) : Option Nat :=
  if u < 0 then none
  else if u < 0x8000 then some 0
  else if 0x10000 ≤ u && u < 0x80000 then some (u.toNat / 0x10000)
  else none

/-- The binding of window `k` as it stands at issue, or the trap of its checks; `u` and `lane` are what the trap
reports (08 R212). -/
def bindOf (s : State) (c : Core) (k : Nat) (u : Int) (lane : Nat) : Except Trap WinBind :=
  let w := (c.winbind[k % 8]'(Nat.mod_lt _ (by omega))).toNat
  let p := c.readA (BitVec.ofNat 3 (bitsOf w 29 3))
  let prot (r : Nat) : Trap := { mkTrap trPROTECTION 0 r 0 lane with t0 := BitVec.ofInt 32 u }
  if bitsOf w 28 1 = 0 then .error (prot 7)
  else match checkPath s (c.ctx.getD 0) p with
    | .error r => .error (pathTrap r p)
    | .ok t =>
      if t.fmt ≠ windowFormat k then .error (prot 8)
      else .ok { window := k, m0 := pIndex p, depth := t.depth, rows := t.rows, cols := t.cols, scaled := t.scaled,
                 clamp := t.clamp, dloc := bitsOf w 8 10, sloc := bitsOf w 18 10 }

/-- wext of R213. -/
def WinBind.ext (b : WinBind) (e : Nat) : Bool :=
  let m := b.m0 + e
  m < 4 ^ b.depth && mortonRow m < b.rows && mortonCol m < b.cols

/-- wbyte of R213. -/
def WinBind.byte (b : WinBind) (e : Nat) : Nat :=
  32 * b.dloc + tb (windowFormat b.window) (b.m0 + e) - tb (windowFormat b.window) b.m0

/-- The address of the scale byte of R213, where the tree has scales the window uses. -/
def WinBind.scaleAt (b : WinBind) (e : Nat) : Option Nat :=
  if b.scaled && b.window ≤ 5 then some (32 * b.sloc + (b.m0 + e) / 32 - b.m0 / 32) else none

/-- wclamp of R213, as a magnitude code. -/
def WinBind.bound (b : WinBind) : Nat := if b.clamp = 0 then largestCode (windowElem b.window) else b.clamp

/-- A byte a window reads; past the end of local memory the manual gives no byte (log 11). -/
def Core.localByte (c : Core) (a : Nat) : Nat :=
  if a < 0x8000 then (readByte c.mem a).toNat else (Config.freeWord a).toNat % 256

/-- wscale of R213. -/
def wscale (c : Core) (b : WinBind) (e : Nat) : Nat :=
  match b.scaleAt e with
  | none => 127
  | some a => c.localByte a

/-- The element code a window reads (06 R164): the nibble by R38. -/
def windowCode (c : Core) (b : WinBind) (e : Nat) : Nat :=
  let a := b.byte e
  match windowElem b.window with
  | .f16 => leNat (readBytes c.mem a 2)
  | .e2m1 => c.localByte a / (if (b.m0 + e) % 2 = 0 then 1 else 16) % 16
  | .i4 => c.localByte a / (if (b.m0 + e) % 2 = 0 then 1 else 16) % 16
  | _ => c.localByte a

/-- The FP32 value a window load delivers for element `e`, with its flags (06 R164; 02 R41, R49). -/
def windowLoad (c : Core) (b : WinBind) (e : Nat) : Word × Flags :=
  if !b.ext e then (0, 0)
  else match windowElem b.window with
    | .fx8 =>
      let bs := readBytes c.mem (b.byte e) 32
      let r := round32 .nearestEven (fx8Value bs ((b.m0 + e) % 32))
      (r.1, r.2 ||| flagIf (fx8Codes bs).isNone flNV)
    | .f16 => round32 .nearestEven (valueF16 (BitVec.ofNat 16 (windowCode c b e)))
    | f => decodeNarrow f (windowCode c b e) (wscale c b e)

/-- What a window store of a lane encodes: its code, its flags, and whether it is a NaN in a format that marks the block's
scale (06 R165). -/
def storeCode (c : Core) (b : WinBind) (e : Nat) (x : Word) : Encoded :=
  encodeNarrow (windowElem b.window) (value32 x) (wscale c b e) b.bound

/-- The core after a window store of one lane, with its flags (06 R165). DESIGN CHOICE, unsafe: where the scale byte that a NaN
lane marks would lie at or after 0x8000, outside the local memory, nothing is written for it (log 11). -/
def windowStore (c : Core) (b : WinBind) (e : Nat) (x : Word) : Core × Flags :=
  if !b.ext e then (c, 0)
  else
    let f := windowElem b.window
    let a := b.byte e
    let r := storeCode c b e x
    let put (c : Core) (code : Nat) : Core :=
      match f with
      | .f16 => c.store a (leBytes code 2)
      | .e2m1 | .i4 =>
        let old := (readByte c.mem a).toNat
        c.store a [BitVec.ofNat 8 (if (b.m0 + e) % 2 = 0 then old / 16 * 16 + code else old % 16 + 16 * code)]
      | _ => c.store a [BitVec.ofNat 8 code]
    if r.mark then
      match b.scaleAt e with
      | some sa => (put (if sa < 0x8000 then c.store sa [0xFF#8] else c) r.code, r.flags)
      | none =>
        let sign := x.getLsbD 31
        let code := match f with
          | .e4m3 => if sign then 0x80 else 0
          | .e5m2 => if sign then 0x80 else 0
          | .e2m1 => if sign then 0x8 else 0
          | _ => 0
        (put c code, flNV)
    else (put c r.code, r.flags)

/-- The unit addresses of a vector memory instruction's enabled lanes (06 R162). -/
def unitsOf (c : Core) (i : Instr) : List (Nat × Int) :=
  let plain (b : BitVec 5) (o : BitVec 13) : List (Nat × Int) :=
    let a := ((addrOf (c.readG b) o).toNat : Int)
    (List.range 8).map fun i => (i, if a < 0x8000 then a + 4 * i else a + i)
  let strided (b : BitVec 5) (o : BitVec 13) : List (Nat × Int) :=
    (List.range 8).map fun i => (i, ((c.readG b).toNat : Int) + i * o.toInt)
  let indexed (b x : BitVec 5) (m : BitVec 3) : List (Nat × Int) :=
    ((List.range 8).filter (laneOn c m)).map fun i => (i, ((c.readG b + elem 32 (c.readV x) i).toNat : Int))
  match i with
  | .vld _ b o => plain b o
  | .vst _ b o => plain b o
  | .vlds _ b o => strided b o
  | .vsts _ b o => strided b o
  | .vgth _ b x m => indexed b x m
  | .vsct _ b x m => indexed b x m
  | _ => []

/-- Whether a vector memory instruction stores. -/
def vStores : Instr → Bool
  | .vst _ _ _ => true
  | .vsts _ _ _ => true
  | .vsct _ _ _ _ => true
  | _ => false

/-- Whether it is VLD or VST. -/
def vWhole : Instr → Bool
  | .vld _ _ _ => true
  | .vst _ _ _ => true
  | _ => false

/-- The check of one lane in range `r` (06 R163). -/
def laneTrap (c : Core) (i : Instr) (r : Option Nat) (bind : Option WinBind) (first : Int) (lane : Nat) (u : Int) :
    Option Trap :=
  let at' (t : Trap) : Trap := { t with t0 := BitVec.ofInt 32 u, t3 := BitVec.ofNat 32 lane }
  let ovr : Trap :=
    { overrun 3 0 c.resLocal.toNat with t1 := BitVec.ofInt 32 u, t3 := BitVec.ofNat 32 lane }
  let b : Option Nat :=
    match bind with
    | none => some u.toNat
    | some w => if w.ext (u.toNat % 0x10000) then some (w.byte (u.toNat % 0x10000)) else none
  if rangeOf u = none || rangeOf u ≠ r then some (at' (mkTrap trPROTECTION 0 4 0 0))
  else if r = some 6 && vStores i then some (at' (mkTrap trPROTECTION 0 5 0 0))
  else if (b.getD 0) ≥ 0x8000 then some (at' (mkTrap trPROTECTION 0 4 0 0))
  else if b.isSome && c.resLocal.toNat ≤ b.getD 0 then some ovr
  else if r = some 0 && u % 4 ≠ 0 then some (at' (mkTrap trMISALIGNED 0 4 0 0))
  else if r ≠ some 0 && vWhole i && first % 8 ≠ 0 then some (at' (mkTrap trMISALIGNED 0 32 0 0))
  else none

/-- The handle a core's window `k` names, where the binding is in force. -/
def bindHandle (c : Core) (k : Nat) : Option Nat :=
  let w := (c.winbind[k % 8]'(Nat.mod_lt _ (by omega))).toNat
  if bitsOf w 28 1 = 1 then some (pHandle (c.readA (BitVec.ofNat 3 (bitsOf w 29 3)))) else none

/-- The binding of a vector memory instruction and its enabled lanes, or the first trap of its checks (06 R163; 08
R212). -/
def vmemCheck (s : State) (c : Core) (i : Instr) : Except Trap (Option WinBind × List (Nat × Int)) :=
  let us := unitsOf c i
  match us with
  | [] => .ok (none, [])
  | (i0, u0) :: _ =>
    let r := rangeOf u0
    let bind : Except Trap (Option WinBind) :=
      match r with
      | some (k + 1) => (bindOf s c (k + 1) u0 i0).map some
      | _ => .ok none
    match bind with
    | .error t => .error t
    | .ok b =>
      match us.findSome? fun p => laneTrap c i r b u0 p.1 p.2 with
      | some t => .error t
      | none => .ok (b, us)

/-- Whether an instruction in the queue or in flight still has to write a vector or mask register (06 R144, R162). -/
def writesV (i : Instr) (r : BitVec 5) : Bool :=
  match i with

  | .vadd d _ _ _ => d == r
  | .vsub d _ _ _ => d == r
  | .vmul d _ _ _ => d == r
  | .vfma d _ _ _ => d == r
  | .vfms d _ _ _ => d == r
  | .vfnma d _ _ _ => d == r
  | .vmin d _ _ _ => d == r
  | .vmax d _ _ _ => d == r
  | .vaddBf d _ _ _ => d == r
  | .vsubBf d _ _ _ => d == r
  | .vmulBf d _ _ _ => d == r
  | .vfmaBf d _ _ _ => d == r
  | .vfmsBf d _ _ _ => d == r
  | .vfnmaBf d _ _ _ => d == r
  | .vminBf d _ _ _ => d == r
  | .vmaxBf d _ _ _ => d == r
  | .viadd d _ _ _ _ => d == r
  | .visub d _ _ _ _ => d == r
  | .vimul d _ _ _ _ => d == r
  | .vimulh d _ _ _ _ => d == r
  | .vand d _ _ _ _ => d == r
  | .vor d _ _ _ _ => d == r
  | .vxor d _ _ _ _ => d == r
  | .vshl d _ _ _ _ => d == r
  | .vshr d _ _ _ _ => d == r
  | .vsra d _ _ _ _ => d == r
  | .vimin d _ _ _ _ => d == r
  | .vimax d _ _ _ _ => d == r
  | .vsel d _ _ _ => d == r
  | .vperm d _ _ _ => d == r
  | .vbcast d _ _ => d == r
  | .vins d _ _ => d == r
  | .vredadd d _ _ => d == r
  | .vredmax d _ _ => d == r
  | .vredmin d _ _ => d == r
  | .vrediadd d _ _ => d == r
  | .vmov d _ _ => d == r
  | .vld d _ _ => d == r
  | .vlds d _ _ => d == r
  | .vgth d _ _ _ => d == r
  | .vcvtfb d _ _ _ => d == r
  | .vcvtbf d _ _ _ => d == r
  | .vcvtfh d _ _ _ => d == r
  | .vcvthf d _ _ _ => d == r
  | .vcvtfi d _ _ => d == r
  | .vcvtif d _ _ => d == r
  | .vfxenc d _ => d == r
  | .vfxdec d _ _ => d == r
  | .vexp2 d _ _ => d == r
  | .vlog2 d _ _ => d == r
  | .vrcp d _ _ => d == r
  | .vrsq d _ _ => d == r
  | .vtanh d _ _ => d == r
  | .mrd d _ _ => d == r
  | .vaadd d _ _ _ _ => d == r
  | .vaand d _ _ _ _ => d == r
  | .vaor d _ _ _ _ => d == r
  | .vaxor d _ _ _ _ => d == r
  | .vamin d _ _ _ _ => d == r
  | .vamax d _ _ _ _ => d == r
  | .vaminu d _ _ _ _ => d == r
  | .vamaxu d _ _ _ _ => d == r
  | .vafadd d _ _ _ _ => d == r
  | _ => false

/-- Whether an instruction writes a mask register. -/
def writesM (i : Instr) (r : BitVec 3) : Bool :=
  match i with
  | .vcmpeq d _ _ _ => d == r
  | .vcmpne d _ _ _ => d == r
  | .vcmplt d _ _ _ => d == r
  | .vcmple d _ _ _ => d == r
  | .vicmpeq d _ _ _ => d == r
  | .vicmplt d _ _ _ => d == r
  | .vicmpltu d _ _ _ => d == r
  | .vmand d _ _ => d == r
  | .vmor d _ _ => d == r
  | .vmnot d _ => d == r
  | _ => false

/-- The vector registers an instruction reads, the former destination of a fused operation included (06 R144, R151). -/
def vReads (i : Instr) : List (BitVec 5) :=
  match i with
  | .vadd _ a b _ => [a, b]
  | .vsub _ a b _ => [a, b]
  | .vmul _ a b _ => [a, b]
  | .vfma d a b _ => [d, a, b]
  | .vfms d a b _ => [d, a, b]
  | .vfnma d a b _ => [d, a, b]
  | .vmin _ a b _ => [a, b]
  | .vmax _ a b _ => [a, b]
  | .vaddBf _ a b _ => [a, b]
  | .vsubBf _ a b _ => [a, b]
  | .vmulBf _ a b _ => [a, b]
  | .vfmaBf d a b _ => [d, a, b]
  | .vfmsBf d a b _ => [d, a, b]
  | .vfnmaBf d a b _ => [d, a, b]
  | .vminBf _ a b _ => [a, b]
  | .vmaxBf _ a b _ => [a, b]
  | .viadd _ a b _ _ => [a, b]
  | .visub _ a b _ _ => [a, b]
  | .vimul _ a b _ _ => [a, b]
  | .vimulh _ a b _ _ => [a, b]
  | .vand _ a b _ _ => [a, b]
  | .vor _ a b _ _ => [a, b]
  | .vxor _ a b _ _ => [a, b]
  | .vshl _ a b _ _ => [a, b]
  | .vshr _ a b _ _ => [a, b]
  | .vsra _ a b _ _ => [a, b]
  | .vimin _ a b _ _ => [a, b]
  | .vimax _ a b _ _ => [a, b]
  | .vcmpeq _ a b _ => [a, b]
  | .vcmpne _ a b _ => [a, b]
  | .vcmplt _ a b _ => [a, b]
  | .vcmple _ a b _ => [a, b]
  | .vicmpeq _ a b _ => [a, b]
  | .vicmplt _ a b _ => [a, b]
  | .vicmpltu _ a b _ => [a, b]
  | .vsel _ a b _ => [a, b]
  | .vperm _ a b _ => [a, b]
  | .vmovs _ a _ => [a]
  | .vredadd _ a _ => [a]
  | .vredmax _ a _ => [a]
  | .vredmin _ a _ => [a]
  | .vrediadd _ a _ => [a]
  | .vmov _ a _ => [a]
  | .vst d _ _ => [d]
  | .vsts d _ _ => [d]
  | .vgth _ _ x _ => [x]
  | .vsct d _ x _ => [d, x]
  | .vcvtfb _ a b _ => [a, b]
  | .vcvtbf _ a _ _ => [a]
  | .vcvtfh _ a b _ => [a, b]
  | .vcvthf _ a _ _ => [a]
  | .vcvtfi _ a _ => [a]
  | .vcvtif _ a _ => [a]
  | .vfxenc _ a => [a, a + 1, a + 2, a + 3]
  | .vfxdec _ a _ => [a]
  | .vexp2 _ a _ => [a]
  | .vlog2 _ a _ => [a]
  | .vrcp _ a _ => [a]
  | .vrsq _ a _ => [a]
  | .vtanh _ a _ => [a]
  | .vaadd _ _ b _ _ => [b]
  | .vaand _ _ b _ _ => [b]
  | .vaor _ _ b _ _ => [b]
  | .vaxor _ _ b _ _ => [b]
  | .vamin _ _ b _ _ => [b]
  | .vamax _ _ b _ _ => [b]
  | .vaminu _ _ b _ _ => [b]
  | .vamaxu _ _ b _ _ => [b]
  | .vafadd _ _ b _ _ => [b]
  | _ => []

/-- The mask registers an instruction reads (06 R142, R144, R155). -/
def mReads (i : Instr) : List (BitVec 3) :=
  match i with
  | .vadd _ _ _ m => [m]
  | .vsub _ _ _ m => [m]
  | .vmul _ _ _ m => [m]
  | .vfma _ _ _ m => [m]
  | .vfms _ _ _ m => [m]
  | .vfnma _ _ _ m => [m]
  | .vmin _ _ _ m => [m]
  | .vmax _ _ _ m => [m]
  | .vaddBf _ _ _ m => [m]
  | .vsubBf _ _ _ m => [m]
  | .vmulBf _ _ _ m => [m]
  | .vfmaBf _ _ _ m => [m]
  | .vfmsBf _ _ _ m => [m]
  | .vfnmaBf _ _ _ m => [m]
  | .vminBf _ _ _ m => [m]
  | .vmaxBf _ _ _ m => [m]
  | .viadd _ _ _ m _ => [m]
  | .visub _ _ _ m _ => [m]
  | .vimul _ _ _ m _ => [m]
  | .vimulh _ _ _ m _ => [m]
  | .vand _ _ _ m _ => [m]
  | .vor _ _ _ m _ => [m]
  | .vxor _ _ _ m _ => [m]
  | .vshl _ _ _ m _ => [m]
  | .vshr _ _ _ m _ => [m]
  | .vsra _ _ _ m _ => [m]
  | .vimin _ _ _ m _ => [m]
  | .vimax _ _ _ m _ => [m]
  | .vcmpeq _ _ _ m => [m]
  | .vcmpne _ _ _ m => [m]
  | .vcmplt _ _ _ m => [m]
  | .vcmple _ _ _ m => [m]
  | .vicmpeq _ _ _ m => [m]
  | .vicmplt _ _ _ m => [m]
  | .vicmpltu _ _ _ m => [m]
  | .vsel _ _ _ m => [m]
  | .vperm _ _ _ m => [m]
  | .vbcast _ _ m => [m]
  | .vmand _ a b => [a, b]
  | .vmor _ a b => [a, b]
  | .vmnot _ a => [a]
  | .vredadd _ _ m => [m]
  | .vredmax _ _ m => [m]
  | .vredmin _ _ m => [m]
  | .vrediadd _ _ m => [m]
  | .vmov _ _ m => [m]
  | .vgth _ _ _ m => [m]
  | .vsct _ _ _ m => [m]
  | .vcvtfb _ _ _ m => [m]
  | .vcvtbf _ _ _ m => [m]
  | .vcvtfh _ _ _ m => [m]
  | .vcvthf _ _ _ m => [m]
  | .vcvtfi _ _ m => [m]
  | .vcvtif _ _ m => [m]
  | .vexp2 _ _ m => [m]
  | .vlog2 _ _ m => [m]
  | .vrcp _ _ m => [m]
  | .vrsq _ _ m => [m]
  | .vtanh _ _ m => [m]
  | _ => []

/-- Whether an earlier vector instruction that writes vector register `r` has not completed. -/
def Core.pendingV (c : Core) (r : BitVec 5) : Bool :=
  c.feeds || (c.vq.any fun e => writesV e.instr r) || (c.vfly.any fun f => f.vreg == some r)

/-- Whether an earlier vector instruction that writes mask register `r` has not completed. -/
def Core.pendingM (c : Core) (r : BitVec 3) : Bool :=
  c.feeds || (c.vq.any fun e => writesM e.instr r) || (c.vfly.any fun f => f.mreg == some r)

/-- Issues a vector memory instruction (06 R143, R162, R163). -/
def vmemOp (i : Instr) (x : Option (BitVec 5 × BitVec 3)) (id : Nat) (s : State) : Res :=
  let c := s.core id
  let busy := match x with
    | none => false
    | some (v, m) => c.pendingV v || (m != 0 && c.pendingM m)
  if c.vectorStall || busy then .wait s .stall
  else orTrap s (vregTrap c (vregsNamed i)) fun _ =>
    let go (_ : Unit) : Res :=
      match vmemCheck s c i with
      | .error t => .trap s t
      | .ok (b, us) =>
        .done (s.enqueue id { c.entry i with bind := b, lanes := us.map fun p => (p.1, p.2.toNat) }) .next
    match unitsOf c i with
    | (_, u0) :: _ =>
      match rangeOf u0 with
      | some (k + 1) =>
        match bindHandle c (k + 1) with
        | some h => needRecord id h s go
        | none => go ()
      | _ => go ()
    | [] => go ()

/-- What vector memory does at dispatch: the core after its access, and what it will write (06 R164 to R166). -/
def vmemEffect (c : Core) (e : VEntry) : Core × Written :=
  match e.instr with
  | .vld d _ _ | .vlds d _ _ | .vgth d _ _ _ =>
    let val (u : Nat) : Word × Flags :=
      match e.bind with
      | none => (readWord c.mem u, 0)
      | some b => windowLoad c b (u % 0x10000)
    let on (i : Nat) : Bool := e.lanes.any fun p => p.1 == i
    (c, writtenBy 32 d on fun i =>
      match e.lanes.find? fun p => p.1 == i with
      | some p => val p.2
      | none => (0, 0))
  | .vst d _ _ | .vsts d _ _ | .vsct d _ _ _ =>
    let r := e.lanes.foldl (fun (p : Core × Flags) l =>
      let x := elem 32 (c.readV d) l.1
      match e.bind with
      | none => (p.1.store l.2 (leBytes x.toNat 4), p.2)
      | some b => let q := windowStore p.1 b (l.2 % 0x10000) x; (q.1, p.2 ||| q.2)) (c, 0#8)
    (r.1, writtenNone r.2)
  | _ => (c, writtenNone 0)

/-- The local words a vector memory instruction's lanes reach in data (08 R207), and the bytes it reads or writes. -/
def vmemBytes (e : VEntry) : List (Nat × Nat) :=
  e.lanes.filterMap fun p =>
    match e.bind with
    | none => some (p.2, 4)
    | some b =>
      let i := p.2 % 0x10000
      if b.ext i then some (b.byte i, match windowElem b.window with | .fx8 => 32 | .f16 => 2 | _ => 1) else none

/-- The bytes a vector memory instruction reads: a load's data and the scale bytes. -/
def vmemReads (e : VEntry) : List (Nat × Nat) :=
  (if vStores e.instr then [] else vmemBytes e) ++
  match e.bind with
  | none => []
  | some b => e.lanes.filterMap fun p =>
      if b.ext (p.2 % 0x10000) then (b.scaleAt (p.2 % 0x10000)).map fun a => (a, 1) else none

/-- The bytes a vector store writes: its lanes' data and the scale bytes that NaN lanes mark (07 R182). -/
def vmemWrites (c : Core) (e : VEntry) : List (Nat × Nat) :=
  if !vStores e.instr then []
  else vmemBytes e ++ match e.bind with
    | none => []
    | some b =>
      let d := (vReads e.instr).headD 0
      e.lanes.filterMap fun p =>
        if b.ext (p.2 % 0x10000) && (storeCode c b (p.2 % 0x10000) (elem 32 (c.readV d) p.1)).mark
        then (b.scaleAt (p.2 % 0x10000)).map fun a => (a, 1) else none

/-! ### What an entry writes -/

/-- What a vector instruction writes, from the registers as they stand at its dispatch (06 R144, R150). -/
def vectorEffect (c : Core) (e : VEntry) : Written :=
  match e.instr with
  | .vadd d a b m => fp32Bin c e d a b m (fAdd e.rmode)
  | .vsub d a b m => fp32Bin c e d a b m (fun x y => fAdd e.rmode x y.negate)
  | .vmul d a b m => fp32Bin c e d a b m (fMul)
  | .vmin d a b m => fp32Bin c e d a b m (fMin)
  | .vmax d a b m => fp32Bin c e d a b m (fMax)
  | .vfma d a b m => fp32Fma c e d a b m false false
  | .vfms d a b m => fp32Fma c e d a b m false true
  | .vfnma d a b m => fp32Fma c e d a b m true false
  | .vaddBf d a b m => bf16Bin c e d a b m (fAdd e.rmode)
  | .vsubBf d a b m => bf16Bin c e d a b m (fun x y => fAdd e.rmode x y.negate)
  | .vmulBf d a b m => bf16Bin c e d a b m (fMul)
  | .vminBf d a b m => bf16Bin c e d a b m (fMin)
  | .vmaxBf d a b m => bf16Bin c e d a b m (fMax)
  | .vfmaBf d a b m => bf16Fma c e d a b m false false
  | .vfmsBf d a b m => bf16Fma c e d a b m false true
  | .vfnmaBf d a b m => bf16Fma c e d a b m true false
  | .viadd d a b m wd => intVec wd c e d a b m true (fun _ x y => x.toInt + y.toInt)
  | .visub d a b m wd => intVec wd c e d a b m true (fun _ x y => x.toInt - y.toInt)
  | .vimul d a b m wd => intVec wd c e d a b m true (fun _ x y => x.toInt * y.toInt)
  | .vimulh d a b m wd => intVec wd c e d a b m true (fun w x y => x.toInt * y.toInt / 2 ^ w)
  | .vand d a b m wd => intVec wd c e.unsaturated d a b m true (fun _ x y => (x &&& y).toInt)
  | .vor d a b m wd => intVec wd c e.unsaturated d a b m true (fun _ x y => (x ||| y).toInt)
  | .vxor d a b m wd => intVec wd c e.unsaturated d a b m true (fun _ x y => (x ^^^ y).toInt)
  | .vshl d a b m wd => intVec wd c e d a b m true (vshlInt)
  | .vshr d a b m wd => intVec wd c e d a b m false (vshrInt)
  | .vsra d a b m wd => intVec wd c e d a b m true (vsraInt)
  | .vimin d a b m wd => intVec wd c e d a b m true (fun _ x y => min x.toInt y.toInt)
  | .vimax d a b m wd => intVec wd c e d a b m true (fun _ x y => max x.toInt y.toInt)
  | .vcmpeq d a b m => compare8 c d a b m (cmpEq)
  | .vcmpne d a b m => compare8 c d a b m (fun x y => (!(cmpEq x y).1, (cmpEq x y).2))
  | .vcmplt d a b m => compare8 c d a b m (cmpLess false)
  | .vcmple d a b m => compare8 c d a b m (cmpLess true)
  | .vicmpeq d a b m => compare8 c d a b m (fun x y => (x == y, 0))
  | .vicmplt d a b m => compare8 c d a b m (fun x y => (decide (x.toInt < y.toInt), 0))
  | .vicmpltu d a b m => compare8 c d a b m (fun x y => (decide (x.toNat < y.toNat), 0))
  | .vsel d a b m => writtenBy 32 d (fun _ => true) fun i => (elem 32 (c.readV (if laneOn c m i then a else b)) i, 0)
  | .vperm d a b m => writtenBy 32 d (laneOn c m) fun i =>
      let t := (elem 32 (c.readV b) i).toNat
      (if t < 8 then elem 32 (c.readV a) t else 0, 0)
  | .vbcast d _ m => writtenBy 32 d (laneOn c m) fun _ => (e.scalar, 0)
  | .vins d _ n => writtenBy 32 d (fun i => i == n.toNat) fun _ => (e.scalar, 0)
  | .vmand d a b => writtenMask d (c.readM a &&& c.readM b) 0
  | .vmor d a b => writtenMask d (c.readM a ||| c.readM b) 0
  | .vmnot d a => writtenMask d (~~~(c.readM a)) 0
  | .vredadd d a m => reduceF c e d a m 0x80000000#32 (fAdd e.rmode)
  | .vredmax d a m => reduceF c e d a m 0xFF800000#32 fMax
  | .vredmin d a m => reduceF c e d a m 0x7F800000#32 fMin
  | .vrediadd d a m => reduceI c e d a m
  | .vmov d a m => writtenBy 32 d (laneOn c m) fun i => (elem 32 (c.readV a) i, 0)
  | .vcvtfb d a b m => narrow16 c d a b m (toBF e)
  | .vcvtbf d a q m => writtenBy 32 d (laneOn c m) fun i =>
      deliver32 e.md e.rmode (valueBF (elem 16 (c.readV a) (2 * i + q.toNat)))
  | .vcvtfh d a b m => narrow16 c d a b m (toF16 e)
  | .vcvthf d a q m => writtenBy 32 d (laneOn c m) fun i =>
      deliver32 e.md e.rmode (valueF16 (elem 16 (c.readV a) (2 * i + q.toNat)))
  | .vcvtfi d a m => unary32 c d a m fun x => toInt32 e.md e.rmode (value32 x)
  | .vcvtif d a m => unary32 c d a m (fromInt32 e.md e.rmode)
  | .vfxenc d a => fxEncode c e d a
  | .vfxdec d a j => fxDecode c d a j
  | .vexp2 d a m => unary32 c d a m (special32 0 e.md e.rmode)
  | .vlog2 d a m => unary32 c d a m (special32 1 e.md e.rmode)
  | .vrcp d a m => unary32 c d a m (special32 2 e.md e.rmode)
  | .vrsq d a m => unary32 c d a m (special32 3 e.md e.rmode)
  | .vtanh d a m => unary32 c d a m (special32 4 e.md e.rmode)
  | .mrd d _ _ => { writtenBy 32 d (fun _ => true) (fun i => (elem 32 e.data i, 0)) with flags := 0 }
  | _ => writtenNone 0

/-! ### The instructions -/

/-- VFXENC (06 R159): the registers, then the binding of window 6, are checked at issue. -/
def vfxencOp (d a : BitVec 5) (id : Nat) (s : State) : Res :=
  let c := s.core id
  let i := Instr.vfxenc d a
  if c.vectorStall then .wait s .stall
  else orTrap s (vregTrap c (vregsNamed i)) fun _ =>
    let go (_ : Unit) : Res :=
      match bindOf s c 6 0x60000 0 with
      | .error t => .trap s t
      | .ok b => .done (s.enqueue id { c.entry i with bind := some b }) .next
    match bindHandle c 6 with
    | some h => needRecord id h s go
    | none => go ()

/-- VMOVS (06 R145, R154): it waits until the register's last writer has completed. -/
def vmovsOp (d a : BitVec 5) (n : BitVec 3) (id : Nat) (s : State) : Res :=
  let c := s.core id
  orTrap s (vregTrap c [a]) fun _ =>
    if c.pendingV a then .wait s .stall else landRes d (fun c => elem 32 (c.readV a) n.toNat) id s

/-- VADD (06 R151). -/
def execVadd (d : BitVec 5) (a : BitVec 5) (b : BitVec 5) (m : BitVec 3) (s : State) : Host.Outcome State Fault Refusal :=
  plainVector (.vadd d a b m) s

/-- VSUB (06 R151). -/
def execVsub (d : BitVec 5) (a : BitVec 5) (b : BitVec 5) (m : BitVec 3) (s : State) : Host.Outcome State Fault Refusal :=
  plainVector (.vsub d a b m) s

/-- VMUL (06 R151). -/
def execVmul (d : BitVec 5) (a : BitVec 5) (b : BitVec 5) (m : BitVec 3) (s : State) : Host.Outcome State Fault Refusal :=
  plainVector (.vmul d a b m) s

/-- VFMA (06 R151). -/
def execVfma (d : BitVec 5) (a : BitVec 5) (b : BitVec 5) (m : BitVec 3) (s : State) : Host.Outcome State Fault Refusal :=
  plainVector (.vfma d a b m) s

/-- VFMS (06 R151). -/
def execVfms (d : BitVec 5) (a : BitVec 5) (b : BitVec 5) (m : BitVec 3) (s : State) : Host.Outcome State Fault Refusal :=
  plainVector (.vfms d a b m) s

/-- VFNMA (06 R151). -/
def execVfnma (d : BitVec 5) (a : BitVec 5) (b : BitVec 5) (m : BitVec 3) (s : State) : Host.Outcome State Fault Refusal :=
  plainVector (.vfnma d a b m) s

/-- VMIN (06 R151). -/
def execVmin (d : BitVec 5) (a : BitVec 5) (b : BitVec 5) (m : BitVec 3) (s : State) : Host.Outcome State Fault Refusal :=
  plainVector (.vmin d a b m) s

/-- VMAX (06 R151). -/
def execVmax (d : BitVec 5) (a : BitVec 5) (b : BitVec 5) (m : BitVec 3) (s : State) : Host.Outcome State Fault Refusal :=
  plainVector (.vmax d a b m) s

/-- VADD.BF (06 R151). -/
def execVaddBf (d : BitVec 5) (a : BitVec 5) (b : BitVec 5) (m : BitVec 3) (s : State) : Host.Outcome State Fault Refusal :=
  plainVector (.vaddBf d a b m) s

/-- VSUB.BF (06 R151). -/
def execVsubBf (d : BitVec 5) (a : BitVec 5) (b : BitVec 5) (m : BitVec 3) (s : State) : Host.Outcome State Fault Refusal :=
  plainVector (.vsubBf d a b m) s

/-- VMUL.BF (06 R151). -/
def execVmulBf (d : BitVec 5) (a : BitVec 5) (b : BitVec 5) (m : BitVec 3) (s : State) : Host.Outcome State Fault Refusal :=
  plainVector (.vmulBf d a b m) s

/-- VFMA.BF (06 R151). -/
def execVfmaBf (d : BitVec 5) (a : BitVec 5) (b : BitVec 5) (m : BitVec 3) (s : State) : Host.Outcome State Fault Refusal :=
  plainVector (.vfmaBf d a b m) s

/-- VFMS.BF (06 R151). -/
def execVfmsBf (d : BitVec 5) (a : BitVec 5) (b : BitVec 5) (m : BitVec 3) (s : State) : Host.Outcome State Fault Refusal :=
  plainVector (.vfmsBf d a b m) s

/-- VFNMA.BF (06 R151). -/
def execVfnmaBf (d : BitVec 5) (a : BitVec 5) (b : BitVec 5) (m : BitVec 3) (s : State) : Host.Outcome State Fault Refusal :=
  plainVector (.vfnmaBf d a b m) s

/-- VMIN.BF (06 R151). -/
def execVminBf (d : BitVec 5) (a : BitVec 5) (b : BitVec 5) (m : BitVec 3) (s : State) : Host.Outcome State Fault Refusal :=
  plainVector (.vminBf d a b m) s

/-- VMAX.BF (06 R151). -/
def execVmaxBf (d : BitVec 5) (a : BitVec 5) (b : BitVec 5) (m : BitVec 3) (s : State) : Host.Outcome State Fault Refusal :=
  plainVector (.vmaxBf d a b m) s

/-- VIADD (06 R152). -/
def execViadd (d : BitVec 5) (a : BitVec 5) (b : BitVec 5) (m : BitVec 3) (w : BitVec 2) (s : State) : Host.Outcome State Fault Refusal :=
  plainVector (.viadd d a b m w) s

/-- VISUB (06 R152). -/
def execVisub (d : BitVec 5) (a : BitVec 5) (b : BitVec 5) (m : BitVec 3) (w : BitVec 2) (s : State) : Host.Outcome State Fault Refusal :=
  plainVector (.visub d a b m w) s

/-- VIMUL (06 R152). -/
def execVimul (d : BitVec 5) (a : BitVec 5) (b : BitVec 5) (m : BitVec 3) (w : BitVec 2) (s : State) : Host.Outcome State Fault Refusal :=
  plainVector (.vimul d a b m w) s

/-- VIMULH (06 R152). -/
def execVimulh (d : BitVec 5) (a : BitVec 5) (b : BitVec 5) (m : BitVec 3) (w : BitVec 2) (s : State) : Host.Outcome State Fault Refusal :=
  plainVector (.vimulh d a b m w) s

/-- VAND (06 R152). -/
def execVand (d : BitVec 5) (a : BitVec 5) (b : BitVec 5) (m : BitVec 3) (w : BitVec 2) (s : State) : Host.Outcome State Fault Refusal :=
  plainVector (.vand d a b m w) s

/-- VOR (06 R152). -/
def execVor (d : BitVec 5) (a : BitVec 5) (b : BitVec 5) (m : BitVec 3) (w : BitVec 2) (s : State) : Host.Outcome State Fault Refusal :=
  plainVector (.vor d a b m w) s

/-- VXOR (06 R152). -/
def execVxor (d : BitVec 5) (a : BitVec 5) (b : BitVec 5) (m : BitVec 3) (w : BitVec 2) (s : State) : Host.Outcome State Fault Refusal :=
  plainVector (.vxor d a b m w) s

/-- VSHL (06 R152). -/
def execVshl (d : BitVec 5) (a : BitVec 5) (b : BitVec 5) (m : BitVec 3) (w : BitVec 2) (s : State) : Host.Outcome State Fault Refusal :=
  plainVector (.vshl d a b m w) s

/-- VSHR (06 R152). -/
def execVshr (d : BitVec 5) (a : BitVec 5) (b : BitVec 5) (m : BitVec 3) (w : BitVec 2) (s : State) : Host.Outcome State Fault Refusal :=
  plainVector (.vshr d a b m w) s

/-- VSRA (06 R152). -/
def execVsra (d : BitVec 5) (a : BitVec 5) (b : BitVec 5) (m : BitVec 3) (w : BitVec 2) (s : State) : Host.Outcome State Fault Refusal :=
  plainVector (.vsra d a b m w) s

/-- VIMIN (06 R152). -/
def execVimin (d : BitVec 5) (a : BitVec 5) (b : BitVec 5) (m : BitVec 3) (w : BitVec 2) (s : State) : Host.Outcome State Fault Refusal :=
  plainVector (.vimin d a b m w) s

/-- VIMAX (06 R152). -/
def execVimax (d : BitVec 5) (a : BitVec 5) (b : BitVec 5) (m : BitVec 3) (w : BitVec 2) (s : State) : Host.Outcome State Fault Refusal :=
  plainVector (.vimax d a b m w) s

/-- VCMPEQ (06 R153). -/
def execVcmpeq (d : BitVec 3) (a : BitVec 5) (b : BitVec 5) (m : BitVec 3) (s : State) : Host.Outcome State Fault Refusal :=
  plainVector (.vcmpeq d a b m) s

/-- VCMPNE (06 R153). -/
def execVcmpne (d : BitVec 3) (a : BitVec 5) (b : BitVec 5) (m : BitVec 3) (s : State) : Host.Outcome State Fault Refusal :=
  plainVector (.vcmpne d a b m) s

/-- VCMPLT (06 R153). -/
def execVcmplt (d : BitVec 3) (a : BitVec 5) (b : BitVec 5) (m : BitVec 3) (s : State) : Host.Outcome State Fault Refusal :=
  plainVector (.vcmplt d a b m) s

/-- VCMPLE (06 R153). -/
def execVcmple (d : BitVec 3) (a : BitVec 5) (b : BitVec 5) (m : BitVec 3) (s : State) : Host.Outcome State Fault Refusal :=
  plainVector (.vcmple d a b m) s

/-- VICMPEQ (06 R153). -/
def execVicmpeq (d : BitVec 3) (a : BitVec 5) (b : BitVec 5) (m : BitVec 3) (s : State) : Host.Outcome State Fault Refusal :=
  plainVector (.vicmpeq d a b m) s

/-- VICMPLT (06 R153). -/
def execVicmplt (d : BitVec 3) (a : BitVec 5) (b : BitVec 5) (m : BitVec 3) (s : State) : Host.Outcome State Fault Refusal :=
  plainVector (.vicmplt d a b m) s

/-- VICMPLTU (06 R153). -/
def execVicmpltu (d : BitVec 3) (a : BitVec 5) (b : BitVec 5) (m : BitVec 3) (s : State) : Host.Outcome State Fault Refusal :=
  plainVector (.vicmpltu d a b m) s

/-- VSEL (06 R154). -/
def execVsel (d : BitVec 5) (a : BitVec 5) (b : BitVec 5) (m : BitVec 3) (s : State) : Host.Outcome State Fault Refusal :=
  plainVector (.vsel d a b m) s

/-- VPERM (06 R154). -/
def execVperm (d : BitVec 5) (a : BitVec 5) (b : BitVec 5) (m : BitVec 3) (s : State) : Host.Outcome State Fault Refusal :=
  plainVector (.vperm d a b m) s

/-- VBCAST (06 R154). -/
def execVbcast (d : BitVec 5) (a : BitVec 5) (m : BitVec 3) (s : State) : Host.Outcome State Fault Refusal :=
  issue (.vbcast d a m) (vectorOp (.vbcast d a m) fun c e => { e with scalar := c.readG a }) s

/-- VMOVS (06 R154). -/
def execVmovs (d : BitVec 5) (a : BitVec 5) (n : BitVec 3) (s : State) : Host.Outcome State Fault Refusal :=
  issue (.vmovs d a n) (vmovsOp d a n) s

/-- VINS (06 R154). -/
def execVins (d : BitVec 5) (a : BitVec 5) (n : BitVec 3) (s : State) : Host.Outcome State Fault Refusal :=
  issue (.vins d a n) (vectorOp (.vins d a n) fun c e => { e with scalar := c.readG a }) s

/-- VMAND (06 R155). -/
def execVmand (d : BitVec 3) (a : BitVec 3) (b : BitVec 3) (s : State) : Host.Outcome State Fault Refusal :=
  plainVector (.vmand d a b) s

/-- VMOR (06 R155). -/
def execVmor (d : BitVec 3) (a : BitVec 3) (b : BitVec 3) (s : State) : Host.Outcome State Fault Refusal :=
  plainVector (.vmor d a b) s

/-- VMNOT (06 R155). -/
def execVmnot (d : BitVec 3) (a : BitVec 3) (s : State) : Host.Outcome State Fault Refusal :=
  plainVector (.vmnot d a) s

/-- VREDADD (06 R156). -/
def execVredadd (d : BitVec 5) (a : BitVec 5) (m : BitVec 3) (s : State) : Host.Outcome State Fault Refusal :=
  plainVector (.vredadd d a m) s

/-- VREDMAX (06 R156). -/
def execVredmax (d : BitVec 5) (a : BitVec 5) (m : BitVec 3) (s : State) : Host.Outcome State Fault Refusal :=
  plainVector (.vredmax d a m) s

/-- VREDMIN (06 R156). -/
def execVredmin (d : BitVec 5) (a : BitVec 5) (m : BitVec 3) (s : State) : Host.Outcome State Fault Refusal :=
  plainVector (.vredmin d a m) s

/-- VREDIADD (06 R156). -/
def execVrediadd (d : BitVec 5) (a : BitVec 5) (m : BitVec 3) (s : State) : Host.Outcome State Fault Refusal :=
  plainVector (.vrediadd d a m) s

/-- VMOV (06 R154). -/
def execVmov (d : BitVec 5) (a : BitVec 5) (m : BitVec 3) (s : State) : Host.Outcome State Fault Refusal :=
  plainVector (.vmov d a m) s

/-- VLD (06 R164). -/
def execVld (d : BitVec 5) (b : BitVec 5) (o : BitVec 13) (s : State) : Host.Outcome State Fault Refusal :=
  issue (.vld d b o) (vmemOp (.vld d b o) none) s

/-- VST (06 R165). -/
def execVst (d : BitVec 5) (b : BitVec 5) (o : BitVec 13) (s : State) : Host.Outcome State Fault Refusal :=
  issue (.vst d b o) (vmemOp (.vst d b o) none) s

/-- VLDS (06 R164). -/
def execVlds (d : BitVec 5) (b : BitVec 5) (st : BitVec 13) (s : State) : Host.Outcome State Fault Refusal :=
  issue (.vlds d b st) (vmemOp (.vlds d b st) none) s

/-- VSTS (06 R165). -/
def execVsts (d : BitVec 5) (b : BitVec 5) (st : BitVec 13) (s : State) : Host.Outcome State Fault Refusal :=
  issue (.vsts d b st) (vmemOp (.vsts d b st) none) s

/-- VGTH (06 R164). -/
def execVgth (d : BitVec 5) (b : BitVec 5) (x : BitVec 5) (m : BitVec 3) (s : State) : Host.Outcome State Fault Refusal :=
  issue (.vgth d b x m) (vmemOp (.vgth d b x m) (some (x, m))) s

/-- VSCT (06 R165). -/
def execVsct (d : BitVec 5) (b : BitVec 5) (x : BitVec 5) (m : BitVec 3) (s : State) : Host.Outcome State Fault Refusal :=
  issue (.vsct d b x m) (vmemOp (.vsct d b x m) (some (x, m))) s

/-- VCVTFB (06 R158). -/
def execVcvtfb (d : BitVec 5) (a : BitVec 5) (b : BitVec 5) (m : BitVec 3) (s : State) : Host.Outcome State Fault Refusal :=
  plainVector (.vcvtfb d a b m) s

/-- VCVTBF (06 R158). -/
def execVcvtbf (d : BitVec 5) (a : BitVec 5) (q : BitVec 1) (m : BitVec 3) (s : State) : Host.Outcome State Fault Refusal :=
  plainVector (.vcvtbf d a q m) s

/-- VCVTFH (06 R158). -/
def execVcvtfh (d : BitVec 5) (a : BitVec 5) (b : BitVec 5) (m : BitVec 3) (s : State) : Host.Outcome State Fault Refusal :=
  plainVector (.vcvtfh d a b m) s

/-- VCVTHF (06 R158). -/
def execVcvthf (d : BitVec 5) (a : BitVec 5) (q : BitVec 1) (m : BitVec 3) (s : State) : Host.Outcome State Fault Refusal :=
  plainVector (.vcvthf d a q m) s

/-- VCVTFI (06 R158). -/
def execVcvtfi (d : BitVec 5) (a : BitVec 5) (m : BitVec 3) (s : State) : Host.Outcome State Fault Refusal :=
  plainVector (.vcvtfi d a m) s

/-- VCVTIF (06 R158). -/
def execVcvtif (d : BitVec 5) (a : BitVec 5) (m : BitVec 3) (s : State) : Host.Outcome State Fault Refusal :=
  plainVector (.vcvtif d a m) s

/-- VFXENC (06 R159). -/
def execVfxenc (d : BitVec 5) (a : BitVec 5) (s : State) : Host.Outcome State Fault Refusal :=
  issue (.vfxenc d a) (vfxencOp d a) s

/-- VFXDEC (06 R160). -/
def execVfxdec (d : BitVec 5) (a : BitVec 5) (j : BitVec 2) (s : State) : Host.Outcome State Fault Refusal :=
  plainVector (.vfxdec d a j) s

/-- VEXP2 (06 R157). -/
def execVexp2 (d : BitVec 5) (a : BitVec 5) (m : BitVec 3) (s : State) : Host.Outcome State Fault Refusal :=
  plainVector (.vexp2 d a m) s

/-- VLOG2 (06 R157). -/
def execVlog2 (d : BitVec 5) (a : BitVec 5) (m : BitVec 3) (s : State) : Host.Outcome State Fault Refusal :=
  plainVector (.vlog2 d a m) s

/-- VRCP (06 R157). -/
def execVrcp (d : BitVec 5) (a : BitVec 5) (m : BitVec 3) (s : State) : Host.Outcome State Fault Refusal :=
  plainVector (.vrcp d a m) s

/-- VRSQ (06 R157). -/
def execVrsq (d : BitVec 5) (a : BitVec 5) (m : BitVec 3) (s : State) : Host.Outcome State Fault Refusal :=
  plainVector (.vrsq d a m) s

/-- VTANH (06 R157). -/
def execVtanh (d : BitVec 5) (a : BitVec 5) (m : BitVec 3) (s : State) : Host.Outcome State Fault Refusal :=
  plainVector (.vtanh d a m) s

end Sys2Proof.Machine
end

