-- ==== Sys2Proof/Machine/Matrix.lean ====
section
/-!
DEFINITION. Tiles and the joint array: operand layouts, the matrix instructions, the joint rendezvous and the operation
it starts (07 R173 to R192; 02 R55, R56).
-/

namespace Sys2Proof.Machine

/-! ### Operands (07 R175 to R177) -/

/-- The class of a format code: 0 BF16, 1 FP8, 2 FP4 (07 R175). -/
def fmtClass (f : Nat) : Nat := if f = 0 then 0 else if f = 3 then 2 else 1

/-- The size of an A panel of `m` rows (07 R176). -/
def panelSize (f m : Nat) : Nat :=
  match f with
  | 0 => 256 * m
  | 3 => 68 * m
  | 4 => 128 * m
  | _ => 132 * m

/-- The size of a B piece (07 R176). -/
def pieceSize (f : Nat) : Nat :=
  match f with
  | 0 => 256
  | 3 => 68
  | 4 => 128
  | _ => 132

/-- The value of the element with index `i` in an operand whose scale for it is byte `sc` (07 R176, R177). -/
def operandValue (bs : List Byte) (f i sc : Nat) : Value × Flags :=
  match f with
  | 0 => (valueBF (BitVec.ofNat 16 (byteAt bs (2 * i) + 256 * byteAt bs (2 * i + 1))), 0#8)
  | 1 => latched .e4m3 (byteAt bs i) (byteAt bs sc)
  | 2 => latched .e5m2 (byteAt bs i) (byteAt bs sc)
  | 3 => latched .e2m1 (byteAt bs (i / 2) / (if i % 2 = 0 then 1 else 16) % 16) (byteAt bs sc)
  | _ => fx8Latched ((bs.drop (32 * (i / 32))).take 32) (i % 32)

/-- Element k of row r of an A panel (07 R176). -/
def panelValue (bs : List Byte) (f m r k : Nat) : Value × Flags :=
  operandValue bs f (128 * r + k) ((if f = 3 then 64 else 128) * m + 4 * r + k / 32)

/-- Element (k', n) of a B piece (07 R176). -/
def pieceValue (bs : List Byte) (f k n : Nat) : Value × Flags :=
  operandValue bs f (8 * k + n) ((if f = 3 then 64 else 128) + (8 * k + n) / 32)

/-- Whether an FX8 operand holds a malformed block (07 R177). -/
def malformedFx8 (bs : List Byte) (f : Nat) : Bool :=
  f == 4 && (List.range (bs.length / 32)).any fun b => (fx8Codes ((bs.drop (32 * b)).take 32)).isNone

/-- The exact terms one block of 16 adds to an element, in order: products, or the pair sums of FP4 (02 R55). -/
def blockTerms (cls : Nat) (a b : Nat → Value × Flags) : List (Value × Flags) :=
  if cls = 2 then
    (List.range 8).map fun r => pairSum (latchMul (a (2 * r)) (b (2 * r))) (latchMul (a (2 * r + 1)) (b (2 * r + 1)))
  else (List.range 16).map fun k => latchMul (a k) (b k)

/-- One accumulator element after the whole operation, with its flags: slice j visits the blocks j, j + 1, … (02 R55;
07 R174). -/
def accumulateAll (o : JointOp) (j r n : Nat) (z : Word) : Word × Flags :=
  let pn := o.panels.getD j ([], 0, 0)
  (List.range 8).foldl (fun acc st =>
    let q := (j + st) % 8
    let pc := o.pieces.getD q ([], 0)
    (blockTerms o.cls (fun k => panelValue pn.1 pn.2.1 pn.2.2 r (16 * q + k)) (fun k => pieceValue pc.1 pc.2 k n)).foldl
      (fun a t => let x := accumulate a.1 t; (x.1, a.2 ||| x.2)) acc) (z, 0#8)

/-! ### Waits and errors of a tile (07 R184, R189, R190; 15 R353) -/

/-- Whether the slice computes on tile `t` and row `r` is not final: an operation with that target, or a sparse
operation. -/
def Core.tileBusy (c : Core) (t r : Nat) : Bool :=
  ((c.slice.st == .rotating || c.slice.st == .draining) && c.slice.tile == t && decide (c.slice.wm ≤ r)) ||
  match c.sparse with
  | none => false
  | some o => o.tile == t

/-- Whether any row of tile `t` is not final. -/
def Core.tileInFlight (c : Core) (t : Nat) : Bool :=
  ((c.slice.st == .rotating || c.slice.st == .draining) && c.slice.tile == t) || c.tileBusy t 8

/-- DATA_INTEGRITY of a slice error (07 R184). -/
def sliceTrap (e : SliceErr) : Trap := mkTrap trDATA e.addr e.kind e.tile e.step

/-- The rest of an instruction of tile `t` unless an error of its last operation is pending (07 R184): raising it clears
it. DEDUCED, unsafe: an error stands until an instruction of its own tile raises it, as R184 says, whatever operation on the
other tile came after, and ERR of MWM shows it all that time (log 81). -/
def orSliceErr (t id : Nat) (s : State) (k : Unit → Res) : Res :=
  let c := s.core id
  match c.slice.err with
  | some e => if e.tile = t then .trap (s.setCore id { c with slice := { c.slice with err := none } }) (sliceTrap e) else k ()
  | none => k ()

/-! ### Instructions -/

/-- The slice after a binding or staging (07 R178). -/
def Slice.settle (x : Slice) : Slice :=
  { x with st := if (x.st = .unbound || x.st = .final) && x.abound && x.bstaged then .bound else x.st }

/-- MBINDA (07 R178, R186). -/
def mbindaOp (r a f : BitVec 5) (id : Nat) (s : State) : Res :=
  let c := s.core id
  let base := (c.readG a).toNat
  if !c.localDone then .wait s .stall
  else orTrap s (localTrap c base (panelSize f.toNat r.toNat) 32 6) fun _ =>
    .done (s.setCore id { c with slice :=
      { c.slice with abase := base, afmt := f.toNat, arows := r.toNat, abound := true }.settle }) .next

/-- MBINDA. -/
def execMbinda (r a f : BitVec 5) (s : State) : Host.Outcome State Fault Refusal :=
  issue (.mbinda r a f) (mbindaOp r a f) s

/-- MLDB (07 R178, R186): the piece is taken as it stands; a marked word in it makes the latch bad (R184). -/
def mldbOp (a f : BitVec 5) (id : Nat) (s : State) : Res :=
  let c := s.core id
  let base := (c.readG a).toNat
  let n := pieceSize f.toNat
  if !c.localDone || decide (s.now < c.slice.stagedAt) then .wait s .stall
  else orTrap s (localTrap c base n 32 6) fun _ =>
    let bad := c.badWord base n
    let x := { c.slice with stage := readBytes c.mem base n, stageAt := base, staged := 0, bfmt := f.toNat, bstaged := true,
                            stageBad := bad.isSome, stagedAt := s.now + 1 + (n + 31) / 32 }.settle
    let c1 := { c with slice := x, memBad := c.memBad.filter fun w => !(decide (w * 4 < base + n) && decide (base < w * 4 + 4)) }
    .done (s.setCore id c1) .next

/-- MLDB. -/
def execMldb (a f : BitVec 5) (s : State) : Host.Outcome State Fault Refusal := issue (.mldb a f) (mldbOp a f) s

/-- MLDB_STAGING_COMPLETE (07 R186). -/
def execMldbStagingComplete (c : Nat) (s : State) : Host.Outcome State Fault Refusal :=
  let k := s.core c
  .next (if k.slice.stagedAt ≠ 0 && k.slice.stagedAt ≤ s.now then
    s.setCore c { k with slice := { k.slice with stagedAt := 0 } } else s)

/-- MAXROWS of a core's slice (07 R192). -/
def maxRows (s : State) (id : Nat) : Nat := look 8 id s.macRows

/-- TILE_SHAPE (07 R188). -/
def tileTrap (reason a b : Nat) : Trap := mkTrap trTILE reason a b 0

/-- Whether a core waits in GISSUE. -/
def Core.inJoint (c : Core) : Bool :=
  match c.wait with
  | .joint _ => true
  | _ => false

/-- Whether a core is at a YIELD or CEND (07 R179). -/
def Core.atEnd (c : Core) : Bool :=
  match c.held with
  | some (.yield _) => true
  | some .cend => true
  | _ => false

/-- The lowest core of a cluster that makes a joint rendezvous of context `x` fail: idle, of another context, or at its end,
as core `leaving` is (07 R179, R188). -/
def jointCause (s : State) (k : Nat) (x : Option Nat) (leaving : Option Nat) : Option Nat :=
  (clusterCores k).find? fun m =>
    (s.core m).status == .idle || (s.core m).ctx != x || (s.core m).atEnd || leaving == some m

/-- Every core of the cluster that waits in GISSUE takes its trap at its next turn, unless one is already to be taken (07
R179). -/
def State.jointFail (s : State) (k : Nat) (t : Nat → Option Trap) : State :=
  { (clusterCores k).foldl (fun q m =>
      if (s.core m).inJoint && (s.core m).rendErr.isNone then q.modCore m fun c => { c with rendErr := t m } else q) s with
    clusters := put k { s.cluster k with jointAt := none } s.clusters }

/-- The core with its arrival withdrawn or failed: the slice is BOUND again (07 R178). -/
def Core.unjoin (c : Core) : Core :=
  { c with rendErr := none, slice := { c.slice with st := if c.slice.st = .issued then .bound else c.slice.st } }

/-- GISSUE up to the arrival, and the wait after it (07 R178, R179, R187). -/
def gissueOp (z : BitVec 1) (id : Nat) (s : State) : Res :=
  let c := s.core id
  let k := clusterOf id
  if c.inJoint then
    match c.rendErr with
    | some t => .trap (s.setCore id c.unjoin) t
    | none =>
      match jointCause s k c.ctx none with
      | some m => .trap (s.setCore id c.unjoin) (tileTrap 5 (indexOf m) 0)
      | none => .wait s (.joint z.toNat)
  else if c.slice.st = .rotating || c.slice.st = .draining || decide (s.now < c.slice.stagedAt) || !c.localDone ||
      c.sparse.isSome then .wait s .stall
  else if !c.slice.abound || !c.slice.bstaged then
    .trap s (tileTrap 2 ((if c.slice.abound then 2 else 0) + (if c.slice.bstaged then 1 else 0)) 0)
  else if maxRows s id < c.slice.arows then .trap s (tileTrap 1 c.slice.arows (maxRows s id))
  else if fmtClass c.slice.afmt ≠ fmtClass c.slice.bfmt then .trap s (tileTrap 3 c.slice.afmt c.slice.bfmt)
  else match jointCause s k c.ctx none with
    | some m => .trap s (tileTrap 5 (indexOf m) 0)
    | none =>
      let s1 := s.setCore id { c with slice := { c.slice with st := .issued } }
      let all := (clusterCores k).all fun m => m == id || (s.core m).inJoint
      .wait (if all then s1.setCluster k { s1.cluster k with jointAt := some (s.now + 4) } else s1) (.joint z.toNat)

/-- GISSUE (07 R187). -/
def execGissue (z : BitVec 1) (s : State) : Host.Outcome State Fault Refusal := issue (.gissue z) (gissueOp z) s

/-- MRD (07 R189): the row is read at issue and enters the vector queue. -/
def mrdOp (d : BitVec 5) (z : BitVec 1) (r : BitVec 3) (id : Nat) (s : State) : Res :=
  let c := s.core id
  let i := Instr.mrd d z r
  if c.vectorStall then .wait s .stall
  else orTrap s (vregTrap c [d]) fun _ =>
    if c.tileBusy z.toNat r.toNat then .wait s .stall
    else orSliceErr z.toNat id s fun _ =>
      .done (s.enqueue id { c.entry i with data := packVec 32 8 fun n => c.readZ z.toNat r.toNat n }) .next

/-- MRD. -/
def execMrd (d : BitVec 5) (z : BitVec 1) (r : BitVec 3) (s : State) : Host.Outcome State Fault Refusal :=
  issue (.mrd d z r) (mrdOp d z r) s

/-- The core with rows of a tile written with one word. -/
def Core.fillRows (c : Core) (t rows : Nat) (w : Word) : Core :=
  (List.range rows).foldl (fun k r => (List.range 8).foldl (fun k n => k.writeZ t r n w) k) c

/-- MZERO and MWAIT wait for the tile and raise its pending error; `f` is what follows (07 R190). -/
def tileOp (z : BitVec 1) (f : Core → Core) (id : Nat) (s : State) : Res :=
  let c := s.core id
  if c.tileInFlight z.toNat then .wait s .stall
  else orSliceErr z.toNat id s fun _ => .done (s.setCore id (f c)) .next

/-- MZERO (07 R190). -/
def execMzero (z : BitVec 1) (s : State) : Host.Outcome State Fault Refusal :=
  issue (.mzero z) (tileOp z fun c => c.fillRows z.toNat 8 0) s

/-- MWAIT (07 R190). -/
def execMwait (z : BitVec 1) (s : State) : Host.Outcome State Fault Refusal := issue (.mwait z) (tileOp z id) s

/-- The STATE code of MWM (07 R191). -/
def sliceCode : SliceState → Nat
  | .unbound => 0
  | .bound => 1
  | .issued => 2
  | .rotating => 3
  | .draining => 4
  | .final => 5

/-- The word of MWM (07 R191). -/
def mwmWord (c : Core) : Word :=
  let x := c.slice
  let b (q : Bool) (n : Nat) : Nat := if q then n else 0
  BitVec.ofNat 32 (b x.err.isSome 1024 + b x.bstaged 512 + b x.abound 256 + 32 * sliceCode x.st + 16 * x.tile + x.wm)

/-- MWM (07 R191). -/
def execMwm (d : BitVec 5) (s : State) : Host.Outcome State Fault Refusal := issue (.mwm d) (landRes d mwmWord) s

/-- The word of MCAP (07 R192). -/
def mcapWord (s : State) (id : Nat) : Word :=
  let cl := (clusterCores (clusterOf id)).foldl (fun n m => min n (maxRows s m)) 8
  BitVec.ofNat 32 (256 * cl + 16 * indexOf id + maxRows s id)

/-- MCAP (07 R192). -/
def execMcap (d : BitVec 5) (s : State) : Host.Outcome State Fault Refusal :=
  issue (.mcap d) (fun id s => landRes d (fun _ => mcapWord s id) id s) s

/-! ### The joint operation (07 R178 to R184) -/

/-- The row of byte `o` of a panel of format `f` with `m` rows, and the K blocks it serves (07 R176). -/
def panelByte (f m o : Nat) : Nat × List Nat :=
  let scale (n : Nat) : Nat × List Nat := ((o - n) / 4, [(o - n) % 4 * 2, (o - n) % 4 * 2 + 1])
  match f with
  | 0 => (o / 256, [o / 2 % 128 / 16])
  | 3 => if o < 64 * m then (o / 64, [o * 2 % 128 / 16]) else scale (64 * m)
  | 4 => (o / 128, [o % 128 / 32 * 2, o % 128 / 32 * 2 + 1])
  | _ => if o < 128 * m then (o / 128, [o % 128 / 16]) else scale (128 * m)

/-- The ring steps in which slice `j` reads byte `o` of its panel, in order (07 R174). -/
def stepsOf (f m j o : Nat) : List Nat :=
  (List.range 8).filter fun st => (panelByte f m o).2.contains ((j + st) % 8)

/-- The local address of the failing A byte with the smallest ring step, and that step (07 R184). -/
def panelFault (c : Core) (j : Nat) : Option (Nat × Nat) :=
  let x := c.slice
  let bad := (List.range (panelSize x.afmt x.arows)).filter fun o => c.memBad.contains ((x.abase + o) / 4)
  bad.foldl (fun best o =>
    let st := (stepsOf x.afmt x.arows j o).headD 0
    match best with
    | none => some (x.abase + o, st)
    | some (b, n) => if st < n then some (x.abase + o, st) else some (b, n)) none

/-- The error a slice will report: of its A panel or of its own latch, whichever it meets first (07 R184). -/
def jointErr (o : JointOp) (j tile : Nat) : Option SliceErr :=
  let a : Option SliceErr := (o.badA.getD j none).map fun p => { addr := p.1, kind := 1, tile := tile, step := p.2 }
  let b : Option SliceErr := (o.badB.getD j none).map fun st => { addr := 0, kind := 2, tile := tile, step := st }
  match a, b with
  | some x, some y => if y.step < x.step then some y else some x
  | some x, none => some x
  | none, y => y

/-- The operation as the rendezvous captures it in cycle g (07 R178, R180, R182). -/
def jointOf (s : State) (k : Nat) : JointOp :=
  let cs := (clusterCores k).map s.core
  { cls := fmtClass ((cs.map fun c => c.slice.afmt).headD 0),
    mmax := cs.foldl (fun m c => max m c.slice.arows) 0,
    start := s.now + 1, step := 0,
    panels := cs.map fun c => (readBytes c.mem c.slice.abase (panelSize c.slice.afmt c.slice.arows), c.slice.afmt, c.slice.arows),
    pieces := cs.map fun c => (c.slice.stage, c.slice.bfmt),
    badA := (clusterCores k).map fun m => panelFault (s.core m) (indexOf m),
    badB := cs.map fun c => if c.slice.stageBad then some 0 else none }

/-- The core as its GISSUE completes in cycle g: rotating, the panel locked (07 R178, R182). -/
def Core.startJoint (c : Core) (t : Nat) : Core :=
  let n := panelSize c.slice.afmt c.slice.arows
  { c with
    memBad := c.memBad.filter fun w => !(decide (w * 4 < c.slice.abase + n) && decide (c.slice.abase < w * 4 + 4)),
    slice := { c.slice with st := .rotating, bstaged := false, stageBad := false, wm := 0, tile := t, flags := 0,
                            lock := some (c.slice.abase, n) },
    latch := true }

/-- JOINT_RENDEZVOUS_COMPLETE in cluster `k` (07 R178 to R180, R187): every GISSUE completes, or, where the operand
classes differ, every waiting core takes TILE_SHAPE. DESIGN CHOICE, unsafe: R180 lets every GISSUE complete in cycle a + 4 and
R187 lets each core wait there for its pending writes; one core's writes hold back the completion, and step 0, of all eight
(log 81). -/
def execJointRendezvousComplete (k : Nat) (s : State) : Host.Outcome State Fault Refusal :=
  let cs := clusterCores k
  let all := cs.all fun m => (s.core m).inJoint && (s.core m).rendErr.isNone && (s.core m).pend.isEmpty &&
    (s.core m).status == .running
  match (s.cluster k).jointAt with
  | none => .next s
  | some g =>
    if g ≤ s.now && all then
      let cls (m : Nat) : Nat := fmtClass (s.core m).slice.afmt
      match cs.find? fun m => cls m != cls (8 * k) with
      | some m => .next (s.jointFail k fun _ => some (tileTrap 4 (indexOf m) 0))
      | none =>
        let op := jointOf s k
        let s1 := cs.foldl (fun q m =>
          match (s.core m).wait with
          | .joint t => (q.modCore m fun c => c.startJoint t).retire m (.gissue (BitVec.ofNat 1 t)) .next
          | _ => q) s
        .next (s1.setCluster k { s1.cluster k with joint := some op, jointAt := none })
    else .next s

/-- RING_STEP_BEGIN in cluster `k` (07 R174, R178, R180): each slice hands its piece on; step 7 starts the draining. -/
def execRingStepBegin (k : Nat) (s : State) : Host.Outcome State Fault Refusal :=
  match (s.cluster k).joint with
  | none => .next s
  | some o =>
    if o.step < 8 && o.start + o.step * stepLen o ≤ s.now then
      let s1 := s.setCluster k { s.cluster k with joint := some { o with step := o.step + 1 } }
      .next (if o.step = 7 then
        (clusterCores k).foldl (fun q m => q.modCore m fun c =>
          { c with slice := { c.slice with st := if c.slice.st = .rotating then .draining else c.slice.st } }) s1
      else s1)
    else .next s

/-! ### Errors that arise while an operation runs (07 R184) -/

/-- The first ring step that still reads local byte `a` of the panel of slice `j`, locked at `base`, after cycle `now`. -/
def stepToCome (o : JointOp) (j base a now : Nat) : Option Nat :=
  let pn := o.panels.getD j ([], 0, 0)
  let p := (panelByte pn.2.1 pn.2.2 (a - base)).1 / 2
  (stepsOf pn.2.1 pn.2.2 j (a - base)).find? fun st => decide (now < o.start + st * stepLen o + (p + 1) * pairCycles o.cls)

/-- An uncorrectable error in a byte of core `c`'s local memory: the slice finds one in its locked panel where it has still to
read the byte; else the word stays marked for its next reader (07 R184; 21 R444). -/
def State.memoryError (s : State) (c a : Nat) : State :=
  let k := s.cluster (clusterOf c)
  let j := indexOf c
  let found : Option (JointOp × Nat) :=
    match k.joint, (s.core c).slice.lock with
    | some o, some (base, n) =>
      if base ≤ a && a < base + n then (stepToCome o j base a s.now).map fun st => (o, st) else none
    | _, _ => none
  match found with
  | some (o, st) =>
    let e := match o.badA.getD j none with
      | some (b, n) => if st < n then (a, st) else (b, n)
      | none => (a, st)
    s.setCluster (clusterOf c) { k with joint := some { o with badA := o.badA.set j (some e) } }
  | none => s.modCore c fun q => { q with memBad := insertNat (a / 4) q.memBad }

/-- An uncorrectable error in the ring latch of core `c`'s slice, which that slice alone finds: an error in one slice never changes
the result of another (07 R184). -/
def State.latchError (s : State) (c : Nat) : State :=
  let k := s.cluster (clusterOf c)
  match k.joint with
  | none => s
  | some o =>
    let st := o.step - 1
    let n := match o.badB.getD (indexOf c) none with
      | some n => min n st
      | none => st
    s.setCluster (clusterOf c) { k with joint := some { o with badB := o.badB.set (indexOf c) (some n) } }

/-- An uncorrectable error in the staged piece of core `c` (07 R184). -/
def State.stageError (s : State) (c : Nat) : State :=
  s.modCore c fun k => { k with slice := { k.slice with stageBad := k.slice.stageBad || k.slice.bstaged } }

/-- The core after row pair `p` of its slice completed (07 R177, R178, R181, R184; 02 R56). -/
def Core.rowPair (c : Core) (o : JointOp) (j p : Nat) : Core :=
  let t := c.slice.tile
  let m := (o.panels.getD j ([], 0, 0)).2.2
  let rows := [2 * p, 2 * p + 1]
  let res := rows.flatMap fun r => (List.range 8).map fun n => (r, n, accumulateAll o j r n (c.readZ t r n))
  let c1 := res.foldl (fun k x => k.writeZ t x.1 x.2.1 x.2.2.1) c
  let fl := res.foldl (fun f x => f ||| x.2.2.2) c.slice.flags
  if p + 1 < m / 2 then { c1 with slice := { c1.slice with wm := 2 * (p + 1), flags := fl }, latch := true }
  else
    let pn := o.panels.getD j ([], 0, 0)
    let bad := malformedFx8 pn.1 pn.2.1 || o.pieces.any fun q => malformedFx8 q.1 q.2
    let e := jointErr o j t
    let c2 := if e.isSome then c1.fillRows t m genNaN else c1
    let x := { c2.slice with wm := 8, flags := 0, err := e.or c2.slice.err, lock := none,
                             st := if c2.slice.abound && c2.slice.bstaged then .bound else .final }
    { (c2.orFlags (fl ||| flagIf bad flNV)) with slice := x, latch := true }

/-- The cycle in which the next row pair of a slice becomes final (07 R180). -/
def pairDue (o : JointOp) (p : Nat) : Nat := o.start + 7 * stepLen o + (p + 1) * pairCycles o.cls

/-- ROW_PAIR_COMPLETE of core `c` (07 R178, R180, R181); the operation is over when every slice has left it. -/
def execRowPairComplete (c : Nat) (s : State) : Host.Outcome State Fault Refusal :=
  let k := clusterOf c
  match (s.cluster k).joint with
  | none => .next s
  | some o =>
    let x := (s.core c).slice
    if x.st = .draining && pairDue o (x.wm / 2) ≤ s.now then
      let s1 := s.modCore c fun q => q.rowPair o (indexOf c) (x.wm / 2)
      let busy := (clusterCores k).any fun m => (s1.core m).slice.st == .rotating || (s1.core m).slice.st == .draining
      .next (if busy then s1 else s1.setCluster k { s1.cluster k with joint := none })
    else .next s

end Sys2Proof.Machine
end

