-- ==== Sys2Proof/Machine/CombUnit.lean ====
section
/-!
DEFINITION. Sparse tiles and combs: bindings, the comb directory and builder, path choice, sparse operations and the comb
instructions (15 R338 to R357; 19 R423).
-/

namespace Sys2Proof.Machine

/-! ### Tiles (15 R338 to R342) -/

/-- Bit (i, k) of a bitmap (15 R338). -/
def mapBit (bm : List Byte) (i k : Nat) : Bool := (bm.getD (8 * i + k / 8) 0#8).getLsbD (k % 8)

/-- The non-zeros of a row in increasing k. -/
def rowKs (bm : List Byte) (i : Nat) : List Nat := (List.range 64).filter (mapBit bm i)

/-- L of R341. -/
def combLen (bm : List Byte) : Nat :=
  let n := popBytes bm
  max ((List.range 8).foldl (fun m i => max m (rowKs bm i).length) 0) ((n + 1) / 2)

/-- The row whose list of unplaced operations is the longest, the lowest on equal counts, among rows other than `but`; none
where every list is empty (15 R341). -/
def fullestRow (but : Option Nat) (rows : List (Nat × List (Nat × Nat))) : Option (Nat × List (Nat × Nat)) :=
  (rows.filter fun r => but != some r.1 && !r.2.isEmpty).foldl (fun best r =>
    match best with
    | none => some r
    | some b => if b.2.length < r.2.length then some r else some b) none

/-- `n` issue pairs filled from the rows' unplaced operations, each k with its value index (15 R341): an operation is its
row, k and value index. -/
def fillPairs : Nat → List (Nat × List (Nat × Nat)) → List (List (Nat × Nat × Nat))
  | 0, _ => []
  | n + 1, rows =>
    let first := fullestRow none rows
    let second := fullestRow (first.map Prod.fst) rows
    let taken := first.toList ++ second.toList
    let ops := taken.filterMap fun r => r.2.head?.map fun o => (r.1, o)
    ops :: fillPairs n (rows.map fun r => if taken.any fun t => t.1 == r.1 then (r.1, r.2.drop 1) else r)

/-- The comb of a bitmap: its L issue pairs (15 R341). -/
def combPairs (bm : List Byte) : List (List (Nat × Nat × Nat)) :=
  let start (i : Nat) : Nat := popBytes (bm.take (8 * i))
  fillPairs (combLen bm) ((List.range 8).map fun i => (i, (rowKs bm i).zipIdx.map fun p => (p.1, start i + p.2)))

/-- The digest of R342. -/
def digestOf (bm : List Byte) : BitVec 64 :=
  (List.range 8).foldl (fun d i => d.rotateLeft 9 ^^^ BitVec.ofNat 64 (leNat ((bm.drop (8 * i)).take 8))) 0

/-- Whether a tile may be compiled (15 R347). -/
def eligible (n : Nat) : Bool := n ≤ 384

/-! ### Shares of a shared cluster (19 R423) -/

/-- The partition tags of a cluster's cores in rising order, one per core: the owner of each place of a fixed rotation of
eight (log 13). -/
def tagOrder (s : State) (k : Nat) : List Nat :=
  let tags := (clusterCores k).map (tagOf s)
  let rec ins (x : Nat) : List Nat → List Nat
    | [] => [x]
    | y :: t => if x ≤ y then x :: y :: t else y :: ins x t
  tags.foldl (fun l x => ins x l) []

/-- Whether a cluster's cores carry more than one tag (19 R423). -/
def sharedCluster (s : State) (k : Nat) : Bool :=
  (clusterCores k).any fun m => tagOf s m != tagOf s (8 * k)

/-- The number of a cluster's cores that carry a tag. -/
def tagCount (s : State) (k tag : Nat) : Nat := ((clusterCores k).filter fun m => tagOf s m == tag).length

/-- The tag of a comb's context. -/
def combTag (s : State) (c : Comb) : Nat := (s.ctx c.ctx).tag

/-- Whether a comb counts against partition `tag`: every comb of an unshared cluster does. -/
def inShare (s : State) (k tag : Nat) (c : Comb) : Bool := !sharedCluster s k || combTag s c == tag

/-- The directory entries a partition may hold in a cluster (15 R342; 19 R423). -/
def entryShare (s : State) (k tag : Nat) : Nat := if sharedCluster s k then 8 * tagCount s k tag else 64

/-- The control-store slots a partition may hold in a cluster (15 R343; 19 R423). -/
def slotShare (s : State) (k tag : Nat) : Nat := if sharedCluster s k then 512 * tagCount s k tag else 4096

/-- The slots macro sets take in a cluster, of the contexts of a partition where the cluster is shared (15 R343). -/
def macroSlots (s : State) (k tag : Nat) : Nat :=
  ((s.cluster k).macros.filter fun m => !sharedCluster s k || (s.ctx m.ctx).tag == tag).foldl
    (fun n m => n + m.ops.foldl (fun j p => j + p.2.length) 0) 0

/-- The requests a partition may have in the queue (15 R345; 19 R423). -/
def queueShare (s : State) (k : Nat) : Nat := if sharedCluster s k then 1 else 4

/-! ### The directory (15 R345, R346) -/

/-- A COMBSTAT field of 8 bits counted up, stopping at 0xFF (15 R357). -/
def bumpField (w : Word) (lo : Nat) : Word :=
  if bitsOf w.toNat lo 8 = 255 then w else w + BitVec.ofNat 32 (2 ^ lo)

/-- A core's COMBSTAT with a field counted (15 R357): 24 REBIND, 16 FALLBACK, 8 MISS, 0 HIT. -/
def Core.count (c : Core) (lo : Nat) : Core := { c with combstat := bumpField c.combstat lo }

/-- The entry that matches a key and a bitmap (15 R342). -/
def matchComb (cl : Cluster) (x : Nat) (p : Path) (bm : List Byte) : Option (Nat × Comb) :=
  cl.combs.find? fun q => q.2.ctx == x && q.2.path == p && q.2.digest == digestOf bm && q.2.bitmap == bm

/-- The entry that a lookup of cycle `now` matches: one that a request of the same cycle has claimed is not there yet (15
R345). -/
def seenComb (now : Nat) (cl : Cluster) (x : Nat) (p : Path) (bm : List Byte) : Option (Nat × Comb) :=
  (matchComb cl x p bm).filter fun q => !(q.2.st == .queued && q.2.lastUse == now)

/-- The entry with a key, whatever its bitmap. -/
def keyComb (cl : Cluster) (x : Nat) (p : Path) (d : BitVec 64) : Option (Nat × Comb) :=
  cl.combs.find? fun q => q.2.ctx == x && q.2.path == p && q.2.digest == d

/-- Whether a comb may be evicted (15 R346). -/
def Comb.idle (c : Comb) : Bool := c.st == .ready && c.pins == 0

/-- The least recently used comb that may be evicted, among those of a partition's share. -/
def oldestComb (s : State) (k tag : Nat) (cl : Cluster) : Option (Nat × Comb) :=
  (cl.combs.filter fun q => q.2.idle && inShare s k tag q.2).foldl (fun best q =>
    match best with
    | none => some q
    | some b => if q.2.lastUse < b.2.lastUse then some q else some b) none

/-- The directory entry a new request takes: the cluster with room made, or none where the request is dropped (15 R345,
R346). -/
def claimEntry (s : State) (k tag x : Nat) (p : Path) (bm : List Byte) : Option Cluster :=
  let cl := s.cluster k
  let mine (n : Nat) : Bool := cl.combs.any fun q => q.1 == n && inShare s k tag q.2
  if queueShare s k ≤ (cl.queue.filter mine).length then none
  else match keyComb cl x p (digestOf bm) with
    | some (n, c) => if c.idle then some { cl with combs := drop n cl.combs } else none
    | none =>
      if (cl.combs.filter fun q => inShare s k tag q.2).length < entryShare s k tag then some cl
      else (oldestComb s k tag cl).map fun q => { cl with combs := drop q.1 cl.combs }

/-- A core's request for a comb (15 R345, R346): merged, queued, or dropped and counted. -/
def State.requestComb (s : State) (id : Nat) (p : Path) (bm : List Byte) : State :=
  let k := clusterOf id
  let c := s.core id
  let x := c.ctx.getD 0
  let cl := s.cluster k
  let req := (id, c.pickup)
  match matchComb cl x p bm with
  | some (n, q) =>
    let q1 := { q with reqs := if q.reqs.contains req then q.reqs else q.reqs ++ [req] }
    if q.st = .ready then s else s.setCluster k { cl with combs := put n q1 cl.combs }
  | none =>
    match claimEntry s k c.tag x p bm with
    | none => s.modCore id fun c => c.count 16
    | some cl1 =>
      let n := cl1.combSeq
      let e : Comb := { ctx := x, path := p, digest := digestOf bm, bitmap := bm, st := .queued, nnz := popBytes bm,
                        len := combLen bm, pairs := [], pins := 0, lastUse := s.now, reqs := [req], drop := false, readyAt := 0 }
      s.setCluster k { cl1 with combs := put n e cl1.combs, combSeq := n + 1, queue := cl1.queue ++ [n] }

/-- What follows a lookup that found no READY comb (15 R347): a request for an eligible tile whose comb is absent, a
fallback for one that is not eligible. -/
def State.lookupMiss (s : State) (id : Nat) (p : Path) (bm : List Byte) : State :=
  if !eligible (popBytes bm) then s.modCore id fun c => c.count 16
  else match seenComb s.now (s.cluster (clusterOf id)) ((s.core id).ctx.getD 0) p bm with
    | some _ => s
    | none => s.requestComb id p bm

/-! ### The builder (15 R345, R346) -/

/-- Slots in use by combs that are building or ready, of a partition's share. -/
def combSlots (s : State) (k tag : Nat) (cl : Cluster) : Nat :=
  (cl.combs.filter fun q => q.2.st != .queued && inShare s k tag q.2).foldl (fun n q => n + q.2.len) 0

/-- Whether `need` slots are free in a partition's share of a control store (15 R343; 19 R423). -/
def slotsFree (s : State) (k tag need : Nat) (cl : Cluster) : Bool :=
  decide (combSlots s k tag cl + macroSlots s k tag + need ≤ slotShare s k tag)

/-- Evicts least recently used combs that are not pinned until `need` slots are free, at most `n` of them (15 R343, R345). -/
def evictDown (s : State) (k tag need : Nat) : Nat → Cluster → Cluster
  | 0, cl => cl
  | n + 1, cl =>
    if slotsFree s k tag need cl then cl
    else match oldestComb s k tag cl with
      | none => cl
      | some q => evictDown s k tag need n { cl with combs := drop q.1 cl.combs }

/-- The cluster with `need` slots freed by eviction, at most `n` of them; none where they do not come free. -/
def evictFor (s : State) (k tag need n : Nat) (cl : Cluster) : Option Cluster :=
  let c := evictDown s k tag need n cl
  if slotsFree s k tag need c then some c else none

/-- Whether partition `tag` may start a build in this cycle: always in an unshared cluster, else in its windows (19
R423; log 13). -/
def inWindow (s : State) (k tag : Nat) : Bool :=
  !sharedCluster s k || (tagOrder s k).getD (s.now / 128 % 8) 0 == tag

/-- Whose builder a comb's request waits for: that of its partition in a shared cluster, else the cluster's one (19 R423). -/
def builderKey (s : State) (k : Nat) (c : Comb) : Nat := if sharedCluster s k then combTag s c else 0

/-- The request the builder takes next. -/
def nextBuild (s : State) (k : Nat) : Option (Nat × Comb) :=
  let cl := s.cluster k
  cl.queue.findSome? fun n => cl.combs.find? fun q =>
    q.1 == n && inWindow s k (combTag s q.2) && !has (builderKey s k q.2) cl.building

/-- BUILD_START in cluster `k` (15 R345, R346): slots are claimed and combs evicted, or the request is dropped and
counted by every core whose request it carried and whose continuation still runs. -/
def execBuildStart (k : Nat) (s : State) : Host.Outcome State Fault Refusal :=
  match nextBuild s k with
  | none => .next s
  | some (n, c) =>
    let cl := { s.cluster k with queue := (s.cluster k).queue.filter (· != n) }
    match evictFor s k (combTag s c) c.len 64 cl with
    | some cl1 =>
      let e := { c with st := .building, pairs := combPairs c.bitmap, readyAt := s.now + 32 + (c.nnz + 3) / 4 }
      .next (s.setCluster k { cl1 with combs := put n e cl1.combs, building := put (builderKey s k c) n cl1.building })
    | none =>
      let s1 := s.setCluster k { cl with combs := drop n cl.combs }
      .next (c.reqs.foldl (fun q r =>
        if (s.core r.1).pickup = r.2 && (s.core r.1).ctx == some c.ctx && (s.core r.1).status != .idle then q.modCore r.1 fun x => x.count 16 else q) s1)

/-- The cluster's build under number `b`, where its comb is done by cycle `now` or gone (15 R345, R346). -/
def endedBuild (now : Nat) (cl : Cluster) (b : Nat × Nat) : Bool :=
  match cl.combs.find? fun q => q.1 == b.2 with
  | none => true
  | some (_, c) => decide (c.readyAt ≤ now)

/-- Ends one build: its comb is READY, and the requesting cores' latches are set; or it is gone, where CBINV named it. -/
def State.endBuild (k : Nat) (s : State) (b : Nat × Nat) : State :=
  let cl := s.cluster k
  let cl1 := { cl with building := drop b.1 cl.building }
  match cl.combs.find? fun q => q.1 == b.2 with
  | none => s.setCluster k cl1
  | some (_, c) =>
    if c.drop then s.setCluster k { cl1 with combs := drop b.2 cl.combs }
    else c.reqs.foldl (fun q r => q.modCore r.1 Core.wake)
      (s.setCluster k { cl1 with combs := put b.2 { c with st := .ready, lastUse := s.now } cl.combs })

/-- BUILD_END in cluster `k` (15 R345, R346): every build that is done ends. -/
def execBuildEnd (k : Nat) (s : State) : Host.Outcome State Fault Refusal :=
  .next (((s.cluster k).building.filter (endedBuild s.now (s.cluster k))).foldl (State.endBuild k) s)

/-! ### Binding and multiplying -/

/-- SPLD (15 R348, R351). -/
def spldOp (a : BitVec 5) (b : BitVec 3) (f : BitVec 5) (id : Nat) (s : State) : Res :=
  let c := s.core id
  let base := (c.readG a).toNat
  let p := c.readA b
  if !c.localDone then .wait s .stall
  else orTrap s (localTrap c base 72 32 6) fun _ =>
    withTree p (fun _ =>
      let bm := readBytes c.mem base 64
      let bd : Binding := { bound := true, stale := false, base := base, path := p, fmt := f.toNat, nnz := popBytes bm,
                            digest := digestOf bm, bitmap := bm }
      let s1 := s.setCore id { c with binding := bd }
      .done (match seenComb s.now (s.cluster (clusterOf id)) (c.ctx.getD 0) p bm with
        | some _ => s1
        | none => s1.lookupMiss id p bm) .next) id s

/-- SPLD. -/
def execSpld (a : BitVec 5) (b : BitVec 3) (f : BitVec 5) (s : State) : Host.Outcome State Fault Refusal :=
  issue (.spld a b f) (spldOp a b f) s

/-- The range checks of SPMM: neither range may pass raw local memory or RES_LOCAL (15 R352). -/
def passTrap (c : Core) (a n : Nat) : Option Trap :=
  if 0x8000 < a + n then some (mkTrap trPROTECTION (max a 0x8000) 6 0 0)
  else if c.resLocal.toNat < a + n then some (overrun 3 (max a c.resLocal.toNat) c.resLocal.toNat)
  else none

/-- Starts a sparse operation from the binding as it stands (15 R346, R349). -/
def State.startSparse (s : State) (id t bbase bfmt : Nat) : State :=
  let c := s.core id
  let k := clusterOf id
  let b := c.binding
  let cl := s.cluster k
  let hit := (matchComb cl (c.ctx.getD 0) b.path b.bitmap).filter fun q => q.2.st == .ready && decide (q.2.readyAt < s.now)
  let op (work : Nat) (pin : Option Nat) : SparseOp :=
    { tile := t, base := b.base, fmt := b.fmt, bitmap := b.bitmap, bbase := bbase, bfmt := bfmt,
      endAt := s.now + 5 + work, pinned := pin }
  let two := if b.fmt = 0 then 2 else 1
  match hit with
  | some (n, q) =>
    (s.setCluster k { cl with combs := put n { q with pins := q.pins + 1, lastUse := s.now } cl.combs }).setCore id
      { (c.count 0) with sparse := some (op (two * q.len) (some n)) }
  | none =>
    let work := if b.nnz = 512 then 256 * two else b.nnz
    (s.setCore id { (c.count 8) with sparse := some (op work none) }).lookupMiss id b.path b.bitmap

/-- SPMM (15 R352). -/
def spmmOp (z : BitVec 1) (a f : BitVec 5) (id : Nat) (s : State) : Res :=
  let c := s.core id
  let b := c.binding
  let bbase := (c.readG a).toNat
  if c.slice.st = .rotating || c.slice.st = .draining || c.sparse.isSome || !c.localDone then .wait s .stall
  else if !b.bound then .trap s (tileTrap 6 0 0)
  else
    let bm := if b.stale then readBytes c.mem b.base 64 else b.bitmap
    let n := popBytes bm
    orTrap s ((passTrap c bbase (bSize f.toNat)).or (passTrap c b.base (tileSize b.fmt n))) fun _ =>
      if bbase % 32 ≠ 0 then .trap s (mkTrap trMISALIGNED bbase 32 0 0)
      else if fmtClass f.toNat ≠ fmtClass b.fmt then .trap s (tileTrap 3 b.fmt f.toNat)
      else match (List.range 8).find? fun i => decide (maxRows s id ≤ i) && !(rowKs bm i).isEmpty with
        | some i => .trap s (tileTrap 7 i (maxRows s id))
        | none =>
          let s1 := if b.stale then
            s.setCore id { (c.count 24) with binding := { b with stale := false, bitmap := bm, nnz := n, digest := digestOf bm } }
            else s
          .done (s1.startSparse id z.toNat bbase f.toNat) .next

/-- SPMM. -/
def execSpmm (z : BitVec 1) (a f : BitVec 5) (s : State) : Host.Outcome State Fault Refusal :=
  issue (.spmm z a f) (spmmOp z a f) s

/-- The non-zeros of a tile in bitmap order: row and k (15 R338). -/
def nonZeros (bm : List Byte) : List (Nat × Nat) :=
  (List.range 8).flatMap fun i => (rowKs bm i).map fun k => (i, k)

/-- The exact value of non-zero number `v` in row `i` (15 R338 to R340; 02 R36, R39). -/
def sparseValue (c : Core) (o : SparseOp) (i v : Nat) : Value × Flags :=
  if o.fmt = 0 then (valueBF (BitVec.ofNat 16 (leNat (readBytes c.mem (o.base + 72 + 2 * v) 2))), 0#8)
  else (scaledValue (if o.fmt = 1 then .e4m3 else .e5m2) (readByte c.mem (o.base + 72 + v)).toNat
    (readByte c.mem (o.base + 64 + i)).toNat, 0#8)

/-- The exact value of element (k, n) of the B operand (15 R339, R340; 02 R36, R39). -/
def denseValue (c : Core) (o : SparseOp) (k n : Nat) : Value × Flags :=
  let e := 8 * k + n
  if o.bfmt = 0 then (valueBF (BitVec.ofNat 16 (leNat (readBytes c.mem (o.bbase + 2 * e) 2))), 0#8)
  else (scaledValue (if o.bfmt = 1 then .e4m3 else .e5m2) (readByte c.mem (o.bbase + e)).toNat
    (readByte c.mem (o.bbase + 512 + e / 32)).toNat, 0#8)

/-- The core after a sparse operation on its slice (15 R340): the rows that non-zeros reach, and NV and OF. -/
def sparseResult (c : Core) (o : SparseOp) : Core :=
  let nz := nonZeros o.bitmap
  let r := (nz.zipIdx).foldl (fun (p : Core × Flags) x =>
    let a := sparseValue c o x.1.1 x.2
    (List.range 8).foldl (fun (p : Core × Flags) n =>
      let y := accumulate (p.1.readZ o.tile x.1.1 n) (latchMul a (denseValue c o x.1.2 n))
      (p.1.writeZ o.tile x.1.1 n y.1, p.2 ||| y.2)) p) (c, 0#8)
  r.1.orFlags r.2

/-- The ranges of the tile's bytes that a sparse operation reads: its bitmap, the scales of the rows it has non-zeros in, its
values (15 R338 to R340, R353). DEDUCED, unsafe: the bitmap counts among the bytes that the operation reads (log 81). -/
def tileReads (o : SparseOp) : List (Nat × Nat) :=
  (o.base, 64) ::
  (if o.fmt = 0 then []
   else ((List.range 8).filter fun i => !(rowKs o.bitmap i).isEmpty).map fun i => (o.base + 64 + i, 1)) ++
  [(o.base + 72, popBytes o.bitmap * if o.fmt = 0 then 2 else 1)]

/-- The ranges of bytes of the B operand that a sparse operation reads: the rows that its non-zeros meet, with their scales (15
R339, R340). -/
def denseReads (o : SparseOp) : List (Nat × Nat) :=
  ((List.range 64).filter fun k => (List.range 8).any fun i => mapBit o.bitmap i k).flatMap fun k =>
    if o.bfmt = 0 then [(o.bbase + 16 * k, 16)] else [(o.bbase + 8 * k, 8), (o.bbase + 512 + k / 4, 1)]

/-- The first marked word of ranges of bytes, with the address of its first byte in them. -/
def Core.badIn (c : Core) (rs : List (Nat × Nat)) : Option (Nat × Nat) :=
  rs.findSome? fun r => (c.badWord r.1 r.2).map fun w => (w, max (4 * w) r.1)

/-- The core after a sparse operation ended: an uncorrectable byte that it read leaves NaN in the whole tile and the error
recorded (15 R353). -/
def Core.endSparse (c : Core) (o : SparseOp) : Core :=
  let tile := (c.badIn (tileReads o)).map fun p => (p.1, ({ addr := p.2, kind := 3, tile := o.tile, step := 0 } : SliceErr))
  let dense := (c.badIn (denseReads o)).map fun p => (p.1, ({ addr := p.2, kind := 4, tile := o.tile, step := 0 } : SliceErr))
  let c1 := { sparseResult c o with sparse := none }
  match tile.or dense with
  | none => c1
  | some e => { (c1.fillRows o.tile 8 genNaN).unmark e.1 with slice := { c1.slice with err := some e.2 } }

/-- SPARSE_OP_END of core `c` (15 R340, R346, R353): the comb it ran on is unpinned, and removed where CBINV named it. -/
def execSparseOpEnd (c : Nat) (s : State) : Host.Outcome State Fault Refusal :=
  match (s.core c).sparse with
  | none => .next s
  | some o =>
    if s.now < o.endAt then .next s
    else
      let s1 := s.modCore c fun k => k.endSparse o
      match o.pinned with
      | none => .next s1
      | some n =>
        let k := clusterOf c
        let cl := s1.cluster k
        .next (match cl.combs.find? fun q => q.1 == n with
          | none => s1
          | some (_, q) =>
            let q1 := { q with pins := q.pins - 1 }
            s1.setCluster k { cl with combs := if q1.drop && q1.pins == 0 then drop n cl.combs else put n q1 cl.combs })

/-- The comb that matches a core's binding. -/
def bindingComb (s : State) (id : Nat) : Option Comb :=
  let c := s.core id
  (matchComb (s.cluster (clusterOf id)) (c.ctx.getD 0) c.binding.path c.binding.bitmap).map Prod.snd

/-- The word of CBQ and CBWAIT (15 R355). -/
def cbqWord (s : State) (id : Nat) : Word :=
  let c := s.core id
  let b := c.binding
  let st := if !b.bound then 0 else match bindingComb s id with
    | none => 0
    | some q => match q.st with
      | .queued => 1
      | .building => 2
      | .ready => 3
  let on (q : Bool) (n : Nat) : Nat := if q then n else 0
  BitVec.ofNat 32 (on b.bound (2 ^ 31) + on b.stale (2 ^ 30) + st * 2 ^ 27 + on c.sparse.isSome (2 ^ 26) + b.nnz * 2 ^ 16 +
    (if b.bound && eligible b.nnz then combLen b.bitmap else 0) * 2 ^ 8)

/-- CBQ (15 R355). -/
def execCbq (d : BitVec 5) (s : State) : Host.Outcome State Fault Refusal :=
  issue (.cbq d) (fun id s => landRes d (fun _ => cbqWord s id) id s) s

/-- CBWAIT (15 R355): it waits while the matching comb is queued or building. -/
def cbwaitOp (d : BitVec 5) (id : Nat) (s : State) : Res :=
  let b := (s.core id).binding
  let busy := b.bound && !b.stale && match bindingComb s id with
    | none => false
    | some q => q.st != .ready
  if busy then .wait s .stall else landRes d (fun _ => cbqWord s id) id s

/-- CBWAIT. -/
def execCbwait (d : BitVec 5) (s : State) : Host.Outcome State Fault Refusal := issue (.cbwait d) (cbwaitOp d) s

/-- Applies CBINV to every comb of context `x` that a test selects (15 R346, R356). -/
def State.invalidate (s : State) (k x : Nat) (sel : Comb → Bool) : State :=
  let cl := s.cluster k
  let hit (q : Nat × Comb) : Bool := q.2.ctx == x && sel q.2
  let gone (q : Nat × Comb) : Bool := hit q && (q.2.st == .queued || q.2.idle)
  s.setCluster k { cl with
    queue := cl.queue.filter fun n => !(cl.combs.any fun q => q.1 == n && gone q)
    combs := (cl.combs.filter fun q => !gone q).map fun q => if hit q then (q.1, { q.2 with drop := true }) else q }

/-- CBINV (15 R356). -/
def execCbinv (b : BitVec 3) (s : State) : Host.Outcome State Fault Refusal :=
  issue (.cbinv b) (fun id s =>
    .done (s.invalidate (clusterOf id) ((s.core id).ctx.getD 0) fun q => q.path == (s.core id).readA b) .next) s

/-- CBINV.ALL (15 R356). -/
def execCbinvAll (s : State) : Host.Outcome State Fault Refusal :=
  issue .cbinvAll (fun id s => .done (s.invalidate (clusterOf id) ((s.core id).ctx.getD 0) fun _ => true) .next) s

end Sys2Proof.Machine
end

