-- ==== Sys2Proof/Machine/VectorUnit.lean ====
section
/-!
DEFINITION. The vector unit: arbitration and dispatch, completion, the feeding of vector frames (05 R124, R130, R134; 06 R143
to R150; 08 R207, R208; 11 R277, R278; 19 R423).
-/

namespace Sys2Proof.Machine

/-- The cycles an instruction occupies its lane group, and those until its result is ready, without bank replay (06 R144; 07
R189). -/
def vectorCost : Instr → Nat × Nat
  | .vadd _ _ _ _ => (1, 4)
  | .vsub _ _ _ _ => (1, 4)
  | .vmul _ _ _ _ => (1, 4)
  | .vfma _ _ _ _ => (1, 4)
  | .vfms _ _ _ _ => (1, 4)
  | .vfnma _ _ _ _ => (1, 4)
  | .vmin _ _ _ _ => (1, 4)
  | .vmax _ _ _ _ => (1, 4)
  | .vaddBf _ _ _ _ => (1, 4)
  | .vsubBf _ _ _ _ => (1, 4)
  | .vmulBf _ _ _ _ => (1, 4)
  | .vfmaBf _ _ _ _ => (1, 4)
  | .vfmsBf _ _ _ _ => (1, 4)
  | .vfnmaBf _ _ _ _ => (1, 4)
  | .vminBf _ _ _ _ => (1, 4)
  | .vmaxBf _ _ _ _ => (1, 4)
  | .viadd _ _ _ _ _ => (1, 2)
  | .visub _ _ _ _ _ => (1, 2)
  | .vimul _ _ _ _ _ => (1, 2)
  | .vimulh _ _ _ _ _ => (1, 2)
  | .vand _ _ _ _ _ => (1, 2)
  | .vor _ _ _ _ _ => (1, 2)
  | .vxor _ _ _ _ _ => (1, 2)
  | .vshl _ _ _ _ _ => (1, 2)
  | .vshr _ _ _ _ _ => (1, 2)
  | .vsra _ _ _ _ _ => (1, 2)
  | .vimin _ _ _ _ _ => (1, 2)
  | .vimax _ _ _ _ _ => (1, 2)
  | .vredadd _ _ _ => (1, 6)
  | .vredmax _ _ _ => (1, 6)
  | .vredmin _ _ _ => (1, 6)
  | .vrediadd _ _ _ => (1, 6)
  | .vld _ _ _ => (1, 4)
  | .vst _ _ _ => (1, 4)
  | .vlds _ _ _ => (1, 4)
  | .vsts _ _ _ => (1, 4)
  | .vgth _ _ _ _ => (1, 4)
  | .vsct _ _ _ _ => (1, 4)
  | .vcvtfb _ _ _ _ => (1, 4)
  | .vcvtbf _ _ _ _ => (1, 4)
  | .vcvtfh _ _ _ _ => (1, 4)
  | .vcvthf _ _ _ _ => (1, 4)
  | .vcvtfi _ _ _ => (1, 4)
  | .vcvtif _ _ _ => (1, 4)
  | .vfxenc _ _ => (4, 6)
  | .vfxdec _ _ _ => (1, 4)
  | .vexp2 _ _ _ => (2, 8)
  | .vlog2 _ _ _ => (2, 8)
  | .vrcp _ _ _ => (2, 8)
  | .vrsq _ _ _ => (2, 8)
  | .vtanh _ _ _ => (2, 8)
  | _ => (1, 1)

/-- The vector atomics (11 R274). -/
def isVAtomic : Instr → Bool
  | .vaadd _ _ _ _ _ => true
  | .vaand _ _ _ _ _ => true
  | .vaor _ _ _ _ _ => true
  | .vaxor _ _ _ _ _ => true
  | .vamin _ _ _ _ _ => true
  | .vamax _ _ _ _ _ => true
  | .vaminu _ _ _ _ _ => true
  | .vamaxu _ _ _ _ _ => true
  | .vafadd _ _ _ _ _ => true
  | _ => false

/-- An instruction that occupies no lane group: MRD and the vector atomics (06 R149). -/
def noLane (i : Instr) : Bool :=
  isVAtomic i || match i with
    | .mrd _ _ _ => true
    | _ => false

/-! ### Dispatch (06 R144, R149) -/

/-- Whether every earlier writer of what an instruction reads has completed (06 R144). -/
def Core.headReady (c : Core) (i : Instr) : Bool :=
  ((vReads i).all fun r => !(c.vfly.any fun f => f.vreg == some r)) &&
  ((mReads i).all fun r => r == 0 || !(c.vfly.any fun f => f.mreg == some r))

/-- The atom of a sequence number. -/
def Core.atom (c : Core) (n : Nat) : Option Atom := c.atoms.find? fun a => a.seq == n

/-- Whether every lane a vector atomic sent is applied with its old value returned (11 R277). -/
def Core.lanesBack (c : Core) (e : VEntry) : Bool :=
  e.seqs.all fun p => match c.atom p.2 with
    | none => true
    | some a => a.applied && a.returned

/-- Whether the head of a core's queue may dispatch (06 R144; 07 R182; 08 R208; 11 R277; 15 R353). -/
def mayDispatch (c : Core) : Bool :=
  match c.vq with
  | [] => false
  | e :: _ =>
    if isVAtomic e.instr then c.lanesBack e
    else c.headReady e.instr &&
      (!isVMem e.instr || (c.replay.length < 4 && !((vmemWrites c e).any fun r => c.locked r.1 r.2)))

/-- The earlier in program order of two atomic errors (11 R278). -/
def firstErr (a : Option AErr) (b : AErr) : Option AErr :=
  match a with
  | none => some b
  | some x => if b.seq < x.seq then some b else some x

/-- What a vector atomic writes once its old values are back: a lane outside gives 0, a lane its home refused for
DATA_INTEGRITY is left unchanged (11 R266, R277). -/
def atomicWritten (c : Core) (d : BitVec 5) (e : VEntry) : Written :=
  let got (i : Nat) : Option Atom := (e.seqs.find? fun p => p.1 == i).bind fun p => c.atom p.2
  let on (i : Nat) : Bool := decide (e.lane0 ≤ i) && decide (i < e.laneN) && match got i with
    | none => true
    | some a => !a.bad
  writtenBy 32 d on fun i => match got i with
    | none => (0, 0)
    | some a => (a.old, a.flags)

/-- The destination of a vector atomic. -/
def atomicDest (i : Instr) : BitVec 5 := ((vregsNamed i).headD 0)

/-- The core with what a vector atomic leaves: its atoms gone, the first error of its lanes recorded. -/
def Core.dropLanes (c : Core) (e : VEntry) : Core :=
  let mine (a : Atom) : Bool := e.seqs.any fun p => p.2 == a.seq
  let errs := (c.atoms.filter fun a => mine a && a.bad).map fun a =>
    ({ fpath := a.path, kind := 0x300, lane := BitVec.ofNat 32 (a.lane.getD 0), seq := a.seq } : AErr)
  { c with atoms := c.atoms.filter fun a => !mine a, aerr := errs.foldl firstErr c.aerr }

/-- A dispatched instruction with what it will write. -/
def flyOf (e : VEntry) (w : Written) (at' : Nat) : VFly :=
  { instr := e.instr, vreg := w.vreg, vmask := w.vmask, value := w.value, mreg := w.mreg, mvalue := w.mvalue,
    flags := w.flags, readyAt := at', stamp := e.stamp }

/-- The core after a vector memory instruction made its access in cycle `now` on lane group `lane`, `panel` being the words
that its slice reads in the cycle (06 R146, R164 to R166; 08 R207, R208): an uncorrectable word it reads is recorded, and it
writes nothing. The load of a QGET takes its entry (13 R317). DESIGN CHOICE, unsafe: of several errors found before the first is
taken the first record stands, the marks of all being spent (log 90). -/
def Core.vmemAccess (c0 : Core) (now : Nat) (panel : List Nat) (lane : Nat) (e : VEntry) : Core :=
  let c1 := if e.take then { c0 with ring := { c0.ring with head := c0.ring.head + 1, landed := c0.ring.landed - 1 } } else c0
  let c := c1.access now panel (wordsInOrder (vmemBytes e ++ vmemReads e)) e.stamp false (some lane)
  match (vmemReads e).findSome? fun r => (c.badWord r.1 r.2).map fun w => (w, max r.1 (4 * w)) with
  | some (w, a) => { c.unmark w with dataErr := c.dataErr.or (some (a, e.addr)) }
  | none =>
    let r := vmemEffect c e
    { r.1 with vfly := c.vfly ++ [flyOf e r.2 (now + (vectorCost e.instr).2)] }

/-- The core after its queue head dispatched in cycle `now` on lane group `lane`. -/
def Core.dispatchHead (c0 : Core) (now : Nat) (panel : List Nat) (lane : Nat) : Core :=
  match c0.vq with
  | [] => c0
  | e :: rest =>
    let c := { c0 with vq := rest }
    if isVAtomic e.instr then
      { c.dropLanes e with vfly := c.vfly ++ [flyOf e (atomicWritten c (atomicDest e.instr) e) now] }
    else if isVMem e.instr then c.vmemAccess now panel lane e
    else { c with vfly := c.vfly ++ [flyOf e (vectorEffect c e) (now + (vectorCost e.instr).2)] }

/-- The cycles the head of a core's queue takes its lane group; each replay cycle adds one as it comes (06 R144). -/
def occupancy (c : Core) : Nat :=
  match c.vq with
  | [] => 0
  | e :: _ => (vectorCost e.instr).1

/-- SHARE of VSHARE (06 R148). -/
def shareOf (c : Core) : Nat := max 1 (c.vshare.toNat % 16)

/-- Whether lane group `g` serves core `m` in this cycle: always in an unshared cluster, else in the slots of its
partition (19 R423; log 13). -/
def slotServes (s : State) (k g m : Nat) : Bool :=
  !sharedCluster s k || (tagOrder s k).getD ((2 * (s.now % 8) + g) / 2) 0 == tagOf s m

/-- The core of `cs` with the smallest pass value, the lowest index on a tie (06 R149). -/
def leastPass (s : State) : List Nat → Option Nat
  | [] => none
  | m :: ms =>
    match leastPass s ms with
    | none => some m
    | some n => if (s.core n).pass < (s.core m).pass then some n else some m

/-- Whose lane group `g` of cluster `k` is in this cycle: in a shared cluster each partition's work on it stands under the
partition's own number (19 R423). -/
def laneKey (s : State) (k g : Nat) : Nat :=
  if sharedCluster s k then 2 * (tagOrder s k).getD ((2 * (s.now % 8) + g) / 2) 0 + g else g

/-- Lane group `g` takes one head, if it is free (06 R149); `done` are the cores that dispatched in this cycle. -/
def laneTurn (k g : Nat) (s : State) (done : List Nat) : State × List Nat :=
  let cl := s.cluster k
  let key := laneKey s k g
  if s.now < look 0 key cl.laneFree then (s, done)
  else
    let cs := (clusterCores k).filter fun m =>
      !done.contains m && mayDispatch (s.core m) && slotServes s k g m && match (s.core m).vq with
        | [] => false
        | e :: _ => !noLane e.instr
    match leastPass s cs with
    | none => (s, done)
    | some m =>
      let c := s.core m
      let d := c.dispatchHead s.now (panelReads s m s.now) key
      ((s.setCluster k { cl with laneFree := put key (s.now + occupancy c) cl.laneFree }).setCore m
        { d with pass := c.pass + 360360 / shareOf c }, m :: done)

/-- VECTOR_DISPATCH in cluster `k` (06 R149): the heads that take no lane group first, then lane group 0, then 1; a core
dispatches once in a cycle. -/
def execVectorDispatch (k : Nat) (s : State) : Host.Outcome State Fault Refusal :=
  let cs := clusterCores k
  let cl := s.cluster k
  let done0 := if cl.lastDisp = s.now then cs.filter fun m => cl.dispMask.getLsbD (indexOf m) else []
  let free := cs.filter fun m => !done0.contains m && mayDispatch (s.core m) && match (s.core m).vq with
    | [] => false
    | e :: _ => noLane e.instr
  let s1 := free.foldl (fun q m => q.modCore m fun c => c.dispatchHead s.now [] 0) s
  let r0 := laneTurn k 0 s1 (free ++ done0)
  let r1 := laneTurn k 1 r0.1 r0.2
  let mask := BitVec.ofNat 8 ((List.range 8).foldl (fun x j => if r1.2.contains (8 * k + j) then x + 2 ^ j else x) 0)
  .next (r1.1.setCluster k { r1.1.cluster k with lastDisp := s.now, dispMask := mask })

/-! ### Completion and the feeding of frames -/

/-- The core after a dispatched instruction wrote its results (06 R145); the end of a vector atomic sets the event latch (05
R134). -/
def Core.land (c : Core) (f : VFly) : Core :=
  let c1 := match f.vreg with
    | some r => c.writeV r f.vmask f.value
    | none => c
  let c2 := match f.mreg with
    | some r => c1.writeM r f.mvalue
    | none => c1
  let c3 := c2.orFlags f.flags
  if isVAtomic f.instr then c3.wake else c3

/-- VECTOR_COMPLETE of core `c` (06 R145): dispatched instructions complete in program order as their results are
ready. -/
def execVectorComplete (c : Nat) (s : State) : Host.Outcome State Fault Refusal :=
  let k := s.core c
  let ready := k.vfly.takeWhile fun f => decide (f.readyAt ≤ s.now)
  .next (s.setCore c { ready.foldl Core.land k with vfly := k.vfly.drop ready.length })

/-- REPF_VECTOR_FEED of core `c` (05 R124, R130): the next instruction of a later pass enters the vector queue; the
last pass lets a trap entry that waited for it go on. -/
def execRepfVectorFeed (c : Nat) (s : State) : Host.Outcome State Fault Refusal :=
  let k := s.core c
  match k.frame with
  | none => .next s
  | some f =>
    if !f.feeding || 16 ≤ k.vq.length then .next s
    else match f.captured[f.pos]? with
      | none => .next s
      | some p =>
        let i := shiftRegs (BitVec.ofNat 5 (f.pass * f.sd)) (BitVec.ofNat 5 (f.pass * f.sa)) (BitVec.ofNat 5 (f.pass * f.sb))
          p.instr
        let s1 := s.enqueue c { k.entry i with md := p.md, rmode := p.rmode, addr := f.addr }
        let last := f.n ≤ f.pos + 1 && f.count ≤ f.pass + 1
        let f1 := if f.pos + 1 < f.n then { f with pos := f.pos + 1 } else { f with pos := 0, pass := f.pass + 1 }
        .next (s1.modCore c fun q =>
          if last then { q with frame := none, trapFeed := false, readyAt := if q.trapFeed then max q.readyAt (s.now + 6) else q.readyAt }
          else { q with frame := some f1 })

end Sys2Proof.Machine
end

