-- ==== Sys2Proof/Machine/Copy.lean ====
section
/-!
DEFINITION. Global accesses of a core and the copy channels: where an access reaches, the copy instructions, footprints
and edges, beats, deals (08 R196, R201; 09 R217 to R233; 10 R254 to R257; 20 R434, R437).
-/

namespace Sys2Proof.Machine

/-! ### Where an access reaches -/

/-- The retry buffers that an access of context `x` passes (20 R433; 21 R444). -/
def retryBuffers (s : State) (x va : Nat) : List HwUnit :=
  if routeOf s x va = .remote then ((portTo s (homeModule s x va)).map HwUnit.retryBuffer).toList else []

/-- Where a global access reaches: memory here, through the tables of context `x`; a peer module; a peer no port reaches;
or what stands in its way (10 R245, R246, R249; 20 R434, R437; 21 R444). -/
inductive Reach where
  | here (x pa e : Nat)
  | remote
  | lost
  | stall (x page : Nat) (st : PageState)
  | unmapped (lo len : Nat) (bad : Option Nat)
  | denied (lo len : Nat)
  | spoilt (pa : Nat)
  deriving DecidableEq, Repr

/-- Where an access of context `x` by an agent with a partition tag reaches. -/
def reach (s : State) (x tag va : Nat) (a : Access) : Reach :=
  match routeOf s x va with
  | .lost => .lost
  | .remote => .remote
  | .here y =>
    match translate s y tag va a with
    | .ok pa e => .here y pa e
    | .stall page st => .stall y page st
    | .unmapped lo len bad => .unmapped lo len bad
    | .denied lo len => .denied lo len
    | .spoilt pa => .spoilt pa

/-- A byte of a peer module's memory, which this module's state does not hold (log 16). -/
def remoteByte (s : State) (i : Nat) : Byte := BitVec.ofNat 8 (Config.freeWord (s.draws + i)).toNat

/-- What became of an access to bytes of one page. -/
inductive Got where
  | bytes (bs : List Byte) (s : State)
  | stall (s : State)
  | fault (cause : BitVec 8) (lo len : Nat) (s : State)
  deriving DecidableEq, Repr

/-- An access forwarded to a peer module is translated there, in tables this module does not hold (20 R437): it is performed, waits for
a page, or fails as it would here, on a page of a size that the peer's tables give (log 16). -/
def peerGot (s : State) (va : Nat) (k : State → Got) : Got :=
  let w := (Config.freeWord s.draws).toNat
  let q : State := { s with draws := s.draws + 1 }
  match w % 5 with
  | 0 => k q
  | 1 => .stall q
  | 2 => let n := levelSpan (w / 8 % 6); .fault trUNMAPPED (va - va % n) n q
  | 3 => let n := pageSize (w / 8 % 9); .fault trPROTECTION (va - va % n) n q
  | _ => .fault trDATA 0 0 q

/-- An access from die `d`, or from none, that met a page in DEMAND or REQUESTED, or was refused (01 R12; 10 R243, R245, R246, R249; 21
R444). -/
def blocked (s : State) (d : Option Nat) (r : Reach) : Got :=
  match r with
  | .stall y page st => .stall (match d with
    | some n => s.requestFrom n y page st
    | none => s.requestPage y page st)
  | .unmapped lo len bad => .fault trUNMAPPED lo len (s.tableError bad)
  | .denied lo len => .fault trPROTECTION lo len s
  | .spoilt pa => .fault trDATA 0 0 (s.clearMarks pa 8)
  | _ => .fault trDATA 0 0 s

/-- Addresses of one beat in runs that one window, or none, forwards: the counter of a window is forwarded out of a beat around it (20
R437). -/
def windowRuns (s : State) (x : Nat) : List Nat → List (List Nat)
  | [] => []
  | va :: rest =>
    match windowRuns s x rest with
    | (b :: run) :: runs =>
      if (windowAt s x va).map Prod.fst = (windowAt s x b).map Prod.fst then (va :: b :: run) :: runs else [va] :: (b :: run) :: runs
    | runs => [va] :: runs

/-- Reads the bytes at addresses `vas` of one page, which all go one way, for an agent of context `x` on die `d` (10 R246, R261; 21
R449). -/
def readRun (s : State) (x tag d : Nat) (vas : List Nat) : Got :=
  match vas with
  | [] => .bytes [] s
  | va :: _ =>
    match reach s x tag va .read with
    | .here _ pa e =>
      let at' (v : Nat) : Nat := readAt (pa + (v - va)) e d
      let span := vas.getLastD va - va + 1
      if s.rangeGood (at' va) span then .bytes (vas.map fun v => readByte s.hbm (at' v)) s
      else .fault trDATA 0 0 (s.clearMarks (at' va) span)
    | .remote => peerGot s va fun q =>
        .bytes ((List.range vas.length).map (remoteByte q)) { q with draws := q.draws + vas.length }
    | r => blocked s (some d) r

/-- Reads runs of addresses one after another. -/
def readRuns (x tag d : Nat) : List (List Nat) → State → Got
  | [], s => .bytes [] s
  | r :: rs, s =>
    match readRun s x tag d r with
    | .bytes bs q => match readRuns x tag d rs q with
      | .bytes more q1 => .bytes (bs ++ more) q1
      | other => other
    | other => other

/-- Reads the bytes at addresses `vas` of one page for an agent of context `x` on die `d` (10 R246; 20 R437). -/
def readGlobal (s : State) (x tag d : Nat) (vas : List Nat) : Got := readRuns x tag d (windowRuns s x vas) s

/-- Writes bytes at addresses of one page, each with its byte, which all go one way, for an agent on die `d`, or on none (10 R246,
R261, R262; 21 R449). A write to a peer leaves nothing here (log 16). -/
def writeRun (s : State) (x tag : Nat) (d : Option Nat) (bs : List (Nat × Byte)) : Got :=
  match bs with
  | [] => .bytes [] s
  | (va, _) :: _ =>
    match reach s x tag va .write with
    | .here _ pa e =>
      let span := (bs.getLastD (va, 0)).1 - va + 1
      if copiesGood s pa e span then .bytes [] (s.writeAt e d (bs.map fun p => (pa + (p.1 - va), p.2)))
      else .fault trDATA 0 0 (s.clearCopies pa e span)
    | .remote => peerGot s va (.bytes [])
    | r => blocked s d r

/-- Writes runs of bytes one after another. -/
def writeRuns (x tag : Nat) (d : Option Nat) : List (List (Nat × Byte)) → State → Got
  | [], s => .bytes [] s
  | r :: rs, s =>
    match writeRun s x tag d r with
    | .bytes _ q => writeRuns x tag d rs q
    | other => other

/-- Writes bytes at addresses of one page, each with its byte, every run of them or none (10 R246; 20 R437). -/
def writeGlobal (s : State) (x tag : Nat) (d : Option Nat) (bs : List (Nat × Byte)) : Got :=
  let runs := (windowRuns s x (bs.map Prod.fst)).map fun r => bs.filter fun b => r.contains b.1
  let held := runs.findSome? fun r => match writeRun s x tag d r with
    | .bytes _ _ => none
    | other => some other
  match runs, held with
  | _ :: _ :: _, some g => g
  | _, _ => writeRuns x tag d runs s

/-- The notification of an engine's page fault (10 R257). -/
def State.pageFault (s : State) (id : Nat) (cause : BitVec 8) (fpath : Path) (engine : Nat) : State :=
  let c := s.core id
  let x := c.ctx.getD 0
  if cause = trUNMAPPED then
    s.notify (s.ctx x).func 9 x (BitVec.ofNat 32 c.lcore) 5 0 (fpath.extractLsb' 0 32) (fpath.extractLsb' 32 32)
      (BitVec.ofNat 32 engine)
  else s

/-- Starts the exit of a retained local memory that an access waits for (08 R215). -/
def Core.rouse (c : Core) (now : Nat) : Core :=
  match c.retention with
  | .retained => { c with retention := .exiting (now + 2048) }
  | _ => c

/-- Whether a delivery of `n` bytes at local address `a` lands in this cycle: no rehash, retention, zeroing or lock holds
it (07 R182; 08 R206, R215; 15 R353; 21 R448). -/
def Core.takes (c : Core) (now a n : Nat) : Bool :=
  c.rehashAt.isNone && c.retention == .awake && decide (c.zeroUntil ≤ now) && !c.locked a n

/-- Tries a delivery of `n` bytes at local address `a` of core `t` in this cycle: whether it lands, and the state, in which its
words have their banks, or a memory in retention is roused, or the delivery has waited for a conflict (08 R207 to R209,
R215). -/
def State.delivery (s : State) (t a n : Nat) : Bool × State :=
  let c := s.core t
  if c.takes s.now a n then
    let r := c.deliver s.now (panelReads s t s.now) (wordsOf [(a, n)])
    (r.1, s.setCore t r.2)
  else (false, s.modCore t fun r => r.rouse s.now)

/-- The notification of a packet discarded at ejection: both tags and the receiving core (13 R313; 19 R420). -/
def State.tagMismatch (s : State) (x tag id : Nat) : State :=
  s.notify adminFunc 5 x (BitVec.ofNat 32 (s.core id).lcore) 0 0 (BitVec.ofNat 32 tag) (BitVec.ofNat 32 (tagOf s id))
    (BitVec.ofNat 32 id)

/-- Writes bytes at local addresses given one by one. -/
def Core.storeAt (c : Core) (bs : List (Nat × Byte)) : Core := bs.foldl (fun k p => k.store p.1 [p.2]) c

/-! ### Orders of atomics that hold later accesses (11 R268) -/

/-- The order field of an atomic instruction: 1 acquire, 2 release, 3 both. -/
def orderOf : Instr → Nat
  | .aadd _ _ _ _ o => o.toNat
  | .aand _ _ _ _ o => o.toNat
  | .aor _ _ _ _ o => o.toNat
  | .axor _ _ _ _ o => o.toNat
  | .amin _ _ _ _ o => o.toNat
  | .amax _ _ _ _ o => o.toNat
  | .aminu _ _ _ _ o => o.toNat
  | .amaxu _ _ _ _ o => o.toNat
  | .axchg _ _ _ _ o => o.toNat
  | .acas _ _ _ _ o => o.toNat
  | .afadd _ _ _ _ o => o.toNat
  | .vaadd _ _ _ _ o => o.toNat
  | .vaand _ _ _ _ o => o.toNat
  | .vaor _ _ _ _ o => o.toNat
  | .vaxor _ _ _ _ o => o.toNat
  | .vamin _ _ _ _ o => o.toNat
  | .vamax _ _ _ _ o => o.toNat
  | .vaminu _ _ _ _ o => o.toNat
  | .vamaxu _ _ _ _ o => o.toNat
  | .vafadd _ _ _ _ o => o.toNat
  | _ => 0

/-- Whether a vector atomic that acquires is still under way: no later copy, deal, gather, scatter or atomic issues (11
R268). -/
def Core.acquiring (c : Core) : Bool :=
  (c.vq.any fun e => orderOf e.instr % 2 == 1) || (c.vfly.any fun f => orderOf f.instr % 2 == 1)

/-! ### Channels and edges (09 R217 to R222) -/

/-- The record of a core's channel. -/
def Core.channel (c : Core) (n : Nat) : Channel := look Channel.reset n c.channels

/-- Sets the record of a core's channel. -/
def Core.setChannel (c : Core) (n : Nat) (x : Channel) : Core := { c with channels := put n x c.channels }

/-- Whether a copy is under way. -/
def Channel.active (x : Channel) : Bool := x.st == .waiting || x.st == .moving || x.st == .stalled

/-- SCOPE, SPLIT, FIRST, the number of targets and the run of a pattern (09 R231). -/
def patScope (w : Word) : Nat := bitsOf w.toNat 30 2
/-- SPLIT of a pattern. -/
def patSplit (w : Word) : Nat := bitsOf w.toNat 27 3
/-- FIRST of a pattern. -/
def patFirst (w : Word) : Nat := bitsOf w.toNat 16 8
/-- C of a pattern. -/
def patCount (w : Word) : Nat := bitsOf w.toNat 8 8 + 1
/-- R of a pattern. -/
def patRun (w : Word) : Nat := bitsOf w.toNat 0 8 + 1

/-- The core with index `i` in the scope of a pattern around core `id` (09 R231). -/
def dealCore (s : State) (id : Nat) (w : Word) (i : Nat) : Option Nat :=
  if patScope w = 0 then some (8 * clusterOf id + i)
  else
    let die := dieOf id
    let rank := 16 * (rankOf s die (rowOf id) / 16) + i / 16
    (rowOfRank s die rank).map fun row => die * 131072 + row * 256 + (colOf id / 16 * 16 + i % 16)

/-- The target cores of a pattern in order (09 R232). -/
def dealCores (s : State) (id : Nat) (w : Word) : List (Option Nat) :=
  (List.range (patCount w)).map fun i => dealCore s id w (patFirst w + i)

/-- Whether a core is a deal target of context `x`: granted by its core table and of a RUNNING launch of it (09 R233). -/
def dealTarget (s : State) (x : Nat) (t : Option Nat) : Bool :=
  match t with
  | none => false
  | some c =>
    let k := s.core c
    k.ctx == some x && grantedCore s x k.lcore == some c && match s.launchOf k with
      | none => false
      | some l => l.st == .running

/-- The local offset of sub-block `i` of size `n` (09 R232). -/
def dealOffset (w : Word) (n i : Nat) : Nat :=
  (i / (patRun w * patCount w) * patRun w + i % patRun w) * n

/-- The span of a deal of 4^SPLIT sub-blocks of size `n` (09 R232). -/
def dealSpan (w : Word) (n : Nat) : Nat :=
  (List.range (4 ^ patSplit w)).foldl (fun m i => max m (dealOffset w n i)) 0 + n

/-- The size of a deal's sub-block. -/
def dealPiece (x : Channel) : Nat := x.len / 4 ^ patSplit x.pattern

/-- A range of bytes: of a core's local memory, or of the context's space. -/
abbrev Span := Option Nat × Nat × Nat

/-- The virtual range a channel's copy covers. -/
def globalSpan (s : State) (c : Core) (x : Channel) : Span :=
  match treeAt s (c.ctx.getD 0) (pHandle x.path) with
  | none => (none, 0, 0)
  | some t => (none, (if x.scales then t.sbase else t.base) + (pathRange t x.path x.scales).1, x.len)

/-- The local ranges a channel's copy covers (09 R219, R233). -/
def localSpans (s : State) (id : Nat) (x : Channel) : List Span :=
  if x.deal then
    (dealCores s id x.pattern).filterMap fun t => t.map fun c => (some c, x.laddr, dealSpan x.pattern (dealPiece x))
  else [(some id, x.laddr, x.len)]

/-- Whether two footprints share a byte. -/
def meet (a b : List Span) : Bool :=
  a.any fun p => b.any fun q => p.1 == q.1 && decide (p.2.1 < q.2.1 + q.2.2) && decide (q.2.1 < p.2.1 + p.2.2)

/-- Whether two ranges of addresses share a byte. -/
def rangesMeet (a n b k : Nat) : Bool := decide (a < b + k) && decide (b < a + n)

/-- The virtual range of entry `j` of a ticket of core `c` (09 R235). -/
def granuleSpan (s : State) (c : Core) (tk : Ticket) (j : Nat) : Nat × Nat :=
  match treeAt s (c.ctx.getD 0) (pHandle tk.path) with
  | none => (0, 0)
  | some t =>
    let m := pIndex tk.path + (tk.list.getD j 0).toNat * blockCount t (pDepth tk.path)
    (t.base + (pathRange t (mkPath (pHandle tk.path) (pDepth tk.path) m) false).1, tk.gran)

/-- What a copy reads (09 R219). -/
def readsOf (s : State) (id : Nat) (x : Channel) : List Span :=
  if x.dir then localSpans s id x else [globalSpan s (s.core id) x]

/-- What a copy writes (09 R219). -/
def writesOf (s : State) (id : Nat) (x : Channel) : List Span :=
  if x.dir then [globalSpan s (s.core id) x] else localSpans s id x

/-- The edges of a copy `x` on channel `n`: to every other copy under way or FAULTED that conflicts and does not itself
wait for it (09 R220). -/
def edgesOf (s : State) (id n : Nat) (x : Channel) : List (Nat × Nat) :=
  ((s.core id).channels.filter fun p =>
    p.1 != n && (p.2.active || p.2.st == .faulted) &&
    (meet (writesOf s id p.2) (readsOf s id x) || meet (readsOf s id p.2) (writesOf s id x) ||
      meet (writesOf s id p.2) (writesOf s id x)) &&
    !(p.2.st == .waiting && p.2.edges.contains (n, x.serial))).map fun p => (p.1, p.2.serial)

/-- Whether an edge still holds: its copy has neither ended nor been discarded (09 R220). -/
def Core.edgeHolds (c : Core) (e : Nat × Nat) : Bool :=
  let y := c.channel e.1
  y.serial == e.2 && (y.active || y.st == .faulted)

/-- The lowest channel that holds a FAULTED predecessor of a WAITING copy (09 R224). -/
def Core.predFault (c : Core) (x : Channel) : Option Nat :=
  if x.st = .waiting then
    (x.edges.filter fun e => (c.channel e.1).serial == e.2 && (c.channel e.1).st == .faulted).foldl
      (fun m e => match m with
        | none => some e.1
        | some k => some (min k e.1)) none
  else none

/-- Whether an access of `n` bytes at `va` by work ordered after every work up to `after` waits for one of them: a copy that moves, an
entry not ended or an atomic not applied that touches one of its bytes (16 R360). -/
def orderHeld (s : State) (c : Core) (after va n : Nat) : Bool :=
  (c.channels.any fun p => p.2.active && decide (p.2.stamp ≤ after) && (c.predFault p.2).isNone &&
    rangesMeet va n (globalSpan s c p.2).2.1 (globalSpan s c p.2).2.2) ||
  (c.tickets.any fun p => decide (p.2.stamp ≤ after) && p.2.todo.any fun j =>
    rangesMeet va n (granuleSpan s c p.2 j).1 (granuleSpan s c p.2 j).2) ||
  (c.atoms.any fun a => !a.applied && decide (a.stamp ≤ after) && rangesMeet va n a.va 4)

/-- An acquire stands between a core's works so far and those it issues from now on (16 R360). -/
def Core.acquired (c : Core) : Core := { c with ordered := c.serial }

/-- The cycles until the first beat lands: 40, and 24 for each die crossing to where the beat is read or written (01 R12; 09). -/
def firstBeat (s : State) (id : Nat) (x : Channel) : Nat :=
  let c := s.core id
  40 + 24 * crossingsTo s id (c.ctx.getD 0) ((globalSpan s c x).2.1 + x.wp) x.dir

/-- Starts a copy that no edge holds, or lets it wait (09 R222). -/
def State.startCopy (s : State) (id n : Nat) (x : Channel) : State :=
  let es := edgesOf s id n x
  let x1 := { x with edges := es, st := if es.isEmpty then .moving else .waiting, readyAt := s.now + firstBeat s id x }
  s.modCore id fun c => c.setChannel n x1

/-- Whether a core has halted, so that its copies and gathers stand still (09 R230; 19 R413, R418). -/
def Core.still (c : Core) : Bool :=
  c.status == .halted || c.status == .debugHalted || (c.status == .stopped && c.haltReq == .none)

/-! ### Beats (09 R218, R222, R223; 10 R254, R255) -/

/-- P for a write pointer (09 R218). -/
def progressOf (t : Tree) (x : Channel) (wp : Nat) : Nat :=
  let p := if x.scales then wp else match t.fmt with
    | 0 => wp / 4
    | 1 => wp / 2
    | 2 => wp / 2
    | 5 => 2 * wp
    | 7 => 2 * wp
    | 8 => 32 * (wp / 32)
    | _ => wp
  min p x.total

/-- Where byte `o` of a copy's range lies in local memory: the core and the address (09 R217, R232). -/
def localPlace (s : State) (id : Nat) (x : Channel) (o : Nat) : Nat × Nat :=
  if x.deal then
    let n := max 1 (dealPiece x)
    let i := o / n
    ((dealCore s id x.pattern (patFirst x.pattern + i / patRun x.pattern % patCount x.pattern)).getD id,
     x.laddr + dealOffset x.pattern n i + o % n)
  else (id, x.laddr + o)

/-- The channel as a fault leaves it (09 R223), with the notification of R257. -/
def State.copyFault (s : State) (id n : Nat) (x : Channel) (cause : BitVec 8) (fp : Path) : State :=
  (s.modCore id fun c => (c.setChannel n { x with st := .faulted, cause := cause, fpath := fp }).wake).pageFault id cause fp n

/-- FPATH of a fault at offset `o` of the tree's bytes (09 R223; 10 R255). -/
def faultAt (t : Tree) (h d o : Nat) (scales : Bool) (cause : BitVec 8) (lo len : Nat) : Path :=
  if cause = trDATA then dataPath t h d o scales else pagePath t h d o scales lo len

/-- The channel after a beat of `k` bytes landed (09 R222). -/
def Channel.advance (x : Channel) (t : Tree) (k : Nat) : Channel :=
  let wp := x.wp + k
  if x.len ≤ wp then { x with wp := x.len, prog := x.total, st := .done }
  else { x with wp := wp, prog := progressOf t x wp, st := .moving }

/-- Moves the next beat of a copy (09 R222; 10 R254). A beat whose page is resident leaves the copy MOVING though its target
may not take it yet. DESIGN CHOICE, unsafe: a beat that the router of its target discards for its tag counts as moved, and the
copy goes on (13 R313; log 82). -/
def State.beat (s : State) (id n : Nat) (x : Channel) (t : Tree) : State :=
  let c := s.core id
  let ctx := c.ctx.getD 0
  let off := (pathRange t x.path x.scales).1
  let base := if x.scales then t.sbase else t.base
  let o0 := off + x.wp
  let k := min 32 (x.len - x.wp)
  let used := (List.range k).filter fun i => !byteOutside t x.scales (o0 + i)
  let land (q : State) : State := q.modCore id fun c => (c.setChannel n (x.advance t k)).wake
  let fault (q : State) (cause : BitVec 8) (o lo len : Nat) : State :=
    q.copyFault id n x cause (faultAt t (pHandle x.path) (pDepth x.path) o x.scales cause lo len)
  let stalled (q : State) : State := q.modCore id fun c => c.setChannel n { x with st := .stalled }
  match used with
  | [] => land s
  | u0 :: _ =>
    let place := localPlace s id x x.wp
    match s.readMark (.copyBuffer (clusterOf id) :: .xlateCache (clusterOf id) :: .dieXlate (dieOf id) ::
        retryBuffers s ctx (base + o0 + u0)) with
    | some q => fault q trDATA (o0 + u0) 0 0
    | none =>
    if x.dir then
      match used.findSome? fun i => (c.badWord (place.2 + i) 1).map fun w => (i, w) with
      | some (i, w) => fault (s.modCore id fun c => c.unmark w) trDATA (o0 + i) 0 0
      | none =>
        match writeGlobal s ctx c.tag (some (dieOf id)) (used.map fun i => (base + o0 + i, readByte c.mem (place.2 + i))) with
        | .bytes _ q => land q
        | .stall q => stalled q
        | .fault cause lo len q => fault q cause (if cause = trDATA then o0 + u0 else o0) lo len
    else
        match readGlobal s ctx c.tag (dieOf id) (used.map fun i => base + o0 + i) with
      | .bytes bs q =>
        if tagOf s place.1 ≠ c.tag then (land q).tagMismatch ctx c.tag place.1
        else
          let d := s.delivery place.1 place.2 k
          if d.1 then
            land ((q.setCore place.1 (d.2.core place.1)).modCore place.1 fun r =>
              r.storeAt ((used.zip bs).map fun p => (place.2 + p.1, p.2)))
          else d.2.modCore id fun c => c.setChannel n { x with st := .moving }
      | .stall q => stalled q
      | .fault cause lo len q => fault q cause (if cause = trDATA then o0 + u0 else o0) lo len

/-- COPY_BEAT of channel `ch` of core `c` (09 R222): a WAITING copy whose predecessors have ended starts to move; a
copy that moves takes its next beat, unless it is forwarded over links that retrain (20 R433). A halted core's copies stand still
(R230). -/
def execCopyBeat (c ch : Nat) (s : State) : Host.Outcome State Fault Refusal :=
  let k := s.core c
  let x := k.channel ch
  if k.still then .next s
  else match x.st with
    | .waiting =>
      let es := x.edges.filter k.edgeHolds
      let x1 := { x with edges := es, readyAt := s.now + firstBeat s c x, st := if es.isEmpty then .moving else .waiting }
      .next (s.setCore c (k.setChannel ch x1))
    | .moving | .stalled =>
      let g := globalSpan s k x
      if x.readyAt ≤ s.now && !forwardHeld s (k.ctx.getD 0) (g.2.1 + x.wp) && !orderHeld s { k with channels := drop ch k.channels } x.after (g.2.1 + x.wp) (min 32 (x.len - x.wp)) then
        match treeAt s (k.ctx.getD 0) (pHandle x.path) with
        | some t => .next (s.beat c ch x t)
        | none => .next s
      else .next s
    | _ => .next s

/-! ### The instructions -/

/-- Whether the recorded copy matches a restart (09 R222). -/
def Channel.matching (x : Channel) (deal dir scales : Bool) (p : Path) (l : Nat) : Bool :=
  (x.st == .faulted || x.st == .cancelled) && x.deal == deal && x.path == p && x.laddr == l && x.dir == dir &&
    x.scales == scales

/-- Issues a CPY or DEAL past its checks: a new record, or the recorded copy from its progress on (09 R222). -/
def State.putCopy (s : State) (id n : Nat) (restart : Bool) (new : Channel) : State :=
  let c := s.core id
  let k := c.serial + 1
  let x := if restart then { c.channel n with cause := 0, fpath := 0 } else { new with serial := k }
  (s.setCore id { c with serial := k }).startCopy id n { x with stamp := k, after := c.ordered }

/-- The checks of a path and what follows (09 R227, R233). -/
def pathOr (s : State) (x : Nat) (p : Path) (k : Tree → Res) : Res :=
  match checkPath s x p with
  | .error r => .trap s (pathTrap r p)
  | .ok t => k t

/-- CPY (09 R227). -/
def cpyOp (d : BitVec 5) (a : BitVec 3) (b : BitVec 5) (sc rs dir : Bool) (id : Nat) (s : State) : Res :=
  let c := s.core id
  let n := (c.readG d).toNat % 128
  let p := c.readA a
  let l := (c.readG b).toNat
  let x := c.ctx.getD 0
  if !c.localDone || c.acquiring || (c.channel n).active then .wait s .stall
  else needRecord id (pHandle p) s fun _ =>
    let len := match checkPath s x p with
      | .error _ => 32
      | .ok t => (pathRange t p sc).2
    orTrap s (localTrap c l len 32 9) fun _ =>
      pathOr s x p fun t =>
        if sc && !t.scaled then .trap s (pathTrap 7 p)
        else if 32768 < len then .trap s (pathTrap 8 p)
        else if rs && !(c.channel n).matching false dir sc p l then .trap s (pathTrap 9 p)
        else .done (s.putCopy id n rs
          { Channel.reset with dir := dir, scales := sc, path := p, laddr := l, len := len,
                               total := if sc then len else blockCount t (pDepth p) }) .next

/-- CPY. -/
def execCpy (d : BitVec 5) (a : BitVec 3) (b : BitVec 5) (sc r o : BitVec 1) (s : State) :
    Host.Outcome State Fault Refusal :=
  issue (.cpy d a b sc r o) (cpyOp d a b (sc == 1) (r == 1) (o == 1)) s

/-- DEAL (09 R233). DESIGN CHOICE, unsafe (log 82): R233 takes its checks over from R227 and does not say where they stand
among its own; n above 2^23 (reason 8) comes first, then the split (reasons 10 and 8), then the restart (reason 9). And the size S
of a sub-block of fewer than 32 FX8 elements is the block's length divided by 4^SPLIT, which R232 asks to be a multiple of 32,
not the 32 bytes that R199 gives such a block alone. -/
def dealOp (d : BitVec 5) (a : BitVec 3) (b : BitVec 5) (rs : Bool) (id : Nat) (s : State) : Res :=
  let c := s.core id
  let n := (c.readG d).toNat % 128
  let p := c.readA a
  let l := (c.readG b).toNat
  let x := c.ctx.getD 0
  if !c.localDone || c.acquiring || (c.channel n).active then .wait s .stall
  else needRecord id (pHandle p) s fun _ =>
    let y := c.channel n
    let same := rs && y.matching true false false p l
    let w := if same then y.pattern else c.pattern
    let split := patSplit w
    let piece := match checkPath s x p with
      | .error _ => 0
      | .ok t => if pDepth p + split ≤ t.depth then (pathRange t p false).2 / 4 ^ split else 0
    let good := decide (32 ≤ piece) && piece % 32 == 0
    orTrap s (localTrap c l (if good then dealSpan w piece else 32) 32 9) fun _ =>
      if 1 < patScope w || (if patScope w = 0 then 8 else 256) < patFirst w + patCount w ||
          !((dealCores s id w).all (dealTarget s x)) then .trap s (mkTrap trPROTECTION w.toNat 10 0 0)
      else pathOr s x p fun t =>
        let len := (pathRange t p false).2
        if 2 ^ 23 < len then .trap s (pathTrap 8 p)
        else if t.depth < pDepth p + split then .trap s (pathTrap 10 p)
        else if !good then .trap s (pathTrap 8 p)
        else if rs && !same then .trap s (pathTrap 9 p)
        else .done (s.putCopy id n rs
          { Channel.reset with deal := true, path := p, laddr := l, pattern := w, len := len,
                               total := blockCount t (pDepth p) }) .next

/-- DEAL. -/
def execDeal (d : BitVec 5) (a : BitVec 3) (b : BitVec 5) (r : BitVec 1) (s : State) :
    Host.Outcome State Fault Refusal :=
  issue (.deal d a b r) (dealOp d a b (r == 1)) s

/-- A word written to the pattern register: its reserved bits 26:24 read as 0 (09 R231; 00 R9). -/
def patWord (w : Word) : Word := w &&& 0xF8FFFFFF#32

/-- CPAT (09 R231). -/
def execCpat (a : BitVec 5) (s : State) : Host.Outcome State Fault Refusal :=
  issue (.cpat a) (fun id s => .done (s.modCore id fun c => { c with pattern := patWord (c.readG a) }) .next) s

/-- The trap that a copy's record raises at a wait (09 R225). -/
def copyTrap (x : Channel) (n : Nat) : Trap :=
  mkTrap x.cause (x.fpath.toNat % 2 ^ 32) (x.fpath.toNat / 2 ^ 32) n x.prog

/-- CPYR (09 R228). -/
def cpyrOp (d a b : BitVec 5) (id : Nat) (s : State) : Res :=
  let c := s.core id
  let n := (c.readG a).toNat % 128
  let w := (c.readG b).toNat
  let x := c.channel n
  match c.predFault x with
  | some m => .trap s (copyTrap (c.channel m) m)
  | none =>
    if x.active && x.wp < w then .wait s .stall
    else if x.st = .faulted && x.wp < w then .trap s (copyTrap x n)
    else landRes d (fun _ => BitVec.ofNat 32 x.wp) id s

/-- CPYR. -/
def execCpyr (d a b : BitVec 5) (s : State) : Host.Outcome State Fault Refusal := issue (.cpyr d a b) (cpyrOp d a b) s

/-- The STATE code of a channel (09 R224). -/
def copyCode : CopyState → Nat
  | .idle => 0
  | .waiting => 1
  | .moving => 2
  | .stalled => 3
  | .done => 4
  | .faulted => 5
  | .cancelled => 6

/-- The words of CPYQ (09 R224). -/
def cpyqWord (c : Core) (n sel : Nat) : Word :=
  let x := c.channel n
  let on (q : Bool) (k : Nat) : Nat := if q then k else 0
  let pf := c.predFault x
  match sel with
  | 0 => BitVec.ofNat 32 (copyCode x.st * 2 ^ 29 + on x.deal (2 ^ 28) + on x.dir (2 ^ 27) + on x.scales (2 ^ 26) +
      on pf.isSome (2 ^ 25) + x.cause.toNat * 2 ^ 16 + pf.getD 0)
  | 1 => BitVec.ofNat 32 x.wp
  | 2 => BitVec.ofNat 32 x.prog
  | 3 => x.fpath.extractLsb' 0 32
  | _ => x.fpath.extractLsb' 32 32

/-- CPYQ (09 R229). -/
def execCpyq (d a sel : BitVec 5) (s : State) : Host.Outcome State Fault Refusal :=
  issue (.cpyq d a sel) (fun id s =>
    landRes d (fun c => cpyqWord c ((c.readG a).toNat % 128) sel.toNat) id s) s

/-- CPYX (09 R222, R229): no beat is ever half done, so the copy has stopped at once. -/
def cpyxOp (a : BitVec 5) (id : Nat) (s : State) : Res :=
  let c := s.core id
  let n := (c.readG a).toNat % 128
  let x := c.channel n
  let c1 := c.setChannel n { x with st := .cancelled }
  .done (if x.active then s.setCore id c1.wake else if x.st = .faulted then s.setCore id c1 else s) .next

/-- CPYX. -/
def execCpyx (a : BitVec 5) (s : State) : Host.Outcome State Fault Refusal := issue (.cpyx a) (cpyxOp a) s

end Sys2Proof.Machine
end

