-- ==== Sys2Proof/Machine/Gather.lean ====
section
/-!
DEFINITION. Gathers and scatters (09 R234 to R236; 10 R255, R257).
-/

namespace Sys2Proof.Machine

/-- The lowest free ticket (09 R235). -/
def Core.freeTicket (c : Core) : Option Nat := (List.range 8).find? fun t => !has t c.tickets

/-- GATH and SCAT (09 R235). An entry that fails at issue and a ticket that is complete at issue set the event latch (05 R134). DESIGN
CHOICE, unsafe: an entry with a marked word and a granule outside the tree fails with DATA_INTEGRITY (log 92). -/
def gatherOp (scat : Bool) (d : BitVec 5) (a : BitVec 3) (b n : BitVec 5) (id : Nat) (s : State) : Res :=
  let c := s.core id
  let p := c.readA a
  let cnt := (c.readG n).toNat
  let listAt := (c.readG b).toNat % 65536
  let dataAt := (c.readG b).toNat / 65536
  let x := c.ctx.getD 0
  if !c.localDone || c.acquiring then .wait s .stall
  else match c.freeTicket with
    | none => .wait s .stall
    | some k =>
      needRecord id (pHandle p) s fun _ =>
      if 4096 < cnt then .trap s (overrun 6 cnt 4096)
      else
        let g := match checkPath s x p with
          | .error _ => 4
          | .ok t => (pathRange t p false).2
        orTrap s ((localTrap c listAt (4 * cnt) 4 9).or (localTrap c dataAt (cnt * g) 4 9)) fun _ =>
          pathOr s x p fun t =>
            if g % 4 ≠ 0 || (t.fmt = 8 && blockCount t (pDepth p) < 32) then .trap s (pathTrap 8 p)
            else
              let words := (List.range cnt).map fun j => readWord c.mem (listAt + 4 * j)
              let bad := (List.range cnt).filterMap fun j =>
                let failAt (fp : Path) : Option TicketFail := some { pos := j, cause := trDATA, fpath := fp }
                if (c.badWord (listAt + 4 * j) 4).isSome then failAt p
                else match if scat then (List.range g).find? fun i => (c.badWord (dataAt + j * g + i) 1).isSome else none with
                  | none => none
                  | some i =>
                    let m := pIndex p + (words.getD j 0).toNat * blockCount t (pDepth p)
                    let q := mkPath (pHandle p) (pDepth p) m
                    failAt (if 4 ^ t.depth ≤ m then p else dataPath t (pHandle p) (pDepth p) ((pathRange t q false).1 + i) false)
              let tk : Ticket :=
                { scat := scat, path := p, list := words, data := if scat then readBytes c.mem dataAt (cnt * g) else [],
                  dataAt := dataAt, gran := g, fails := bad, stamp := c.serial + 1, after := c.ordered, sentAt := s.now,
                  todo := (List.range cnt).filter fun j => !(bad.any fun f => f.pos == j) }
              landRes d (fun _ => BitVec.ofNat 32 k) id (s.setCore id
                { c with tickets := put k tk c.tickets, serial := c.serial + 1, latch := c.latch || !bad.isEmpty || tk.todo.isEmpty })

/-- GATH. -/
def execGath (d : BitVec 5) (a : BitVec 3) (b c : BitVec 5) (s : State) : Host.Outcome State Fault Refusal :=
  issue (.gath d a b c) (gatherOp false d a b c) s

/-- SCAT. -/
def execScat (d : BitVec 5) (a : BitVec 3) (b c : BitVec 5) (s : State) : Host.Outcome State Fault Refusal :=
  issue (.scat d a b c) (gatherOp true d a b c) s

/-! ### The engine -/

/-- What became of a granule: its bytes, for a gather, each with its offset in the granule; a page to wait for; or a
failure at a byte of the tree. -/
inductive Served where
  | bytes (bs : List (Nat × Byte)) (s : State)
  | stall (s : State)
  | fault (cause : BitVec 8) (o lo len : Nat) (s : State)
  deriving DecidableEq, Repr

/-- Reads a granule beat by beat; `o` is the tree offset of its first byte. -/
def readGranule (x tag die : Nat) (t : Tree) (o g : Nat) : Nat → Nat → State → Served
  | 0, _, s => .bytes [] s
  | n + 1, at', s =>
    let used := (List.range (min 32 (g - at'))).filter fun i => !byteOutside t false (o + at' + i)
    match readGlobal s x tag die (used.map fun i => t.base + o + at' + i) with
    | .stall q => .stall q
    | .fault cause lo len q => .fault cause (o + at' + if cause = trDATA then used.headD 0 else 0) lo len q
    | .bytes bs q =>
      match readGranule x tag die t o g n (at' + 32) q with
      | .bytes r q2 => .bytes (((used.zip bs).map fun p => (at' + p.1, p.2)) ++ r) q2
      | other => other

/-- Writes a granule beat by beat, every beat or none: `s` is the state of the beats so far. -/
def writeGranule (x tag die : Nat) (t : Tree) (o g : Nat) (data : List Byte) : Nat → Nat → State → Served
  | 0, _, s => .bytes [] s
  | n + 1, at', s =>
    let used := (List.range (min 32 (g - at'))).filter fun i => !byteOutside t false (o + at' + i)
    match writeGlobal s x tag (some die) (used.map fun i => (t.base + o + at' + i, data.getD (at' + i) 0#8)) with
    | .stall q => .stall q
    | .fault cause lo len q => .fault cause (o + at' + if cause = trDATA then used.headD 0 else 0) lo len q
    | .bytes _ q => writeGranule x tag die t o g data n (at' + 32) q

/-- The ticket with entry `j` ended. -/
def Ticket.ended (t : Ticket) (j : Nat) (f : Option TicketFail) : Ticket :=
  { t with todo := t.todo.filter (· != j), fails := t.fails ++ f.toList }

/-- A core with entry `j` of ticket `k` ended; the latch is set at a fault and at the completion (05 R134). -/
def Core.endEntry (c : Core) (k j : Nat) (t : Ticket) (f : Option TicketFail) : Core :=
  let t1 := t.ended j f
  { c with tickets := put k t1 c.tickets, latch := c.latch || f.isSome || t1.todo.isEmpty }

/-- What stands in the way of a granule's first beat that cannot be written, if any: nothing is written of a failing or
waiting entry. -/
def writeHeld (s : State) (x tag die : Nat) (t : Tree) (o g : Nat) : Option Served :=
  (List.range ((g + 31) / 32)).findSome? fun b =>
    match writeGranule x tag die t (o + 32 * b) (min 32 (g - 32 * b)) [] 1 0 s with
    | .bytes _ _ => none
    | .stall q => some (.stall q)
    | .fault cause at' lo len q => some (.fault cause at' lo len q)

/-- Serves entry `j` of ticket `k` of core `id` (09 R235; 10 R255, R257). -/
def State.serveEntry (s : State) (id k j : Nat) (tk : Ticket) (t : Tree) : State :=
  let c := s.core id
  let x := c.ctx.getD 0
  let p := tk.path
  let n := blockCount t (pDepth p)
  let m := pIndex p + (tk.list.getD j 0).toNat * n
  let fail (q : State) (cause : BitVec 8) (fp : Path) : State :=
    (q.modCore id fun c => c.endEntry k j tk (some { pos := j, cause := cause, fpath := fp })).pageFault id cause fp (0x100 + k)
  if 4 ^ t.depth ≤ m then fail s trPATH p
  else
    let o := (pathRange t (mkPath (pHandle p) (pDepth p) m) false).1
    let beats := (tk.gran + 31) / 32
    let fault (q : State) (cause : BitVec 8) (at' lo len : Nat) : State :=
      fail q cause (faultAt t (pHandle p) (pDepth p) at' false cause lo len)
    match s.readMark (.dieXlate (dieOf id) :: retryBuffers s x (t.base + o)) with
    | some q => fault q trDATA o 0 0
    | none =>
    if tk.scat then
      match (writeHeld s x c.tag (dieOf id) t o tk.gran).getD
          (writeGranule x c.tag (dieOf id) t o tk.gran ((tk.data.drop (j * tk.gran)).take tk.gran) beats 0 s) with
      | .bytes _ q => q.modCore id fun c => c.endEntry k j tk none
      | .stall q => q
      | .fault cause at' lo len q => fault q cause at' lo len
    else
      match readGranule x c.tag (dieOf id) t o tk.gran beats 0 s with
      | .bytes bs q =>
        let a := tk.dataAt + j * tk.gran
        if tagOf s id ≠ c.tag then (q.modCore id fun c => c.endEntry k j tk none).tagMismatch x c.tag id
        else
          let d := s.delivery id a tk.gran
          if d.1 then
            (q.setCore id (d.2.core id)).modCore id fun c => (c.storeAt (bs.map fun b => (a + b.1, b.2))).endEntry k j tk none
          else d.2
      | .stall q => q
      | .fault cause at' lo len q => fault q cause at' lo len

/-- GATHER_ENTRY: entry `j` of ticket `t` of core `c` (09 R235), unless it is forwarded over links that retrain (20 R433). Scatter
entries of one granule are served in list order. -/
def execGatherEntry (c t j : Nat) (s : State) : Host.Outcome State Fault Refusal :=
  let k := s.core c
  match k.tickets.find? fun p => p.1 == t with
  | none => .next s
  | some (_, tk) =>
    let later := tk.scat && tk.todo.any fun i => decide (i < j) && tk.list.getD i 0 == tk.list.getD j 0
    let g := granuleSpan s k tk j
    if tk.todo.contains j && !later && !forwardHeld s (k.ctx.getD 0) g.1 && !orderHeld s { k with tickets := drop t k.tickets } tk.after g.1 g.2 then
      match treeAt s (k.ctx.getD 0) (pHandle tk.path) with
      | some r => .next (s.serveEntry c t j tk r)
      | none => .next s
    else .next s

/-- The failing entry of a ticket with the lowest position (09 R236). -/
def Ticket.firstFail (t : Ticket) : Option TicketFail :=
  t.fails.foldl (fun (m : Option TicketFail) f => match m with
    | none => some f
    | some g => if f.pos < g.pos then some f else some g) none

/-- GWAIT (09 R225, R236): it frees the ticket, then raises the cause of the failing entry with the lowest position. -/
def gwaitOp (d a : BitVec 5) (id : Nat) (s : State) : Res :=
  let c := s.core id
  let t := (c.readG a).toNat
  match c.tickets.find? fun p => p.1 == t && decide (t < 8) with
  | none => landRes d (fun _ => 0) id s
  | some (_, tk) =>
    if !tk.todo.isEmpty then .wait s .stall
    else
      let s1 := s.setCore id { c with tickets := drop t c.tickets }
      match tk.firstFail with
      | some f => .trap s1 (mkTrap f.cause (f.fpath.toNat % 2 ^ 32) (f.fpath.toNat / 2 ^ 32) (0x100 + t) f.pos)
      | none => landRes d (fun _ => BitVec.ofNat 32 tk.list.length) id s1

/-- GWAIT. -/
def execGwait (d a : BitVec 5) (s : State) : Host.Outcome State Fault Refusal := issue (.gwait d a) (gwaitOp d a) s

end Sys2Proof.Machine
end

