-- ==== Sys2Proof/Machine/Atomics.lean ====
section
/-!
DEFINITION. Atomics: where each goes, the scalar and vector forms, their application at the home and the return of old
values, VAWAIT (11 R265 to R280; 20 R437, R438).
-/

namespace Sys2Proof.Machine

/-! ### What an atomic computes (11 R271) -/

/-- The new value an atomic computes from the old one, with its flags. -/
def atomicValue (op : BitVec 4) (o v : Word) : Word × Flags :=
  match op.toNat with
  | 0 => (o + v, 0)
  | 1 => (o &&& v, 0)
  | 2 => (o ||| v, 0)
  | 3 => (o ^^^ v, 0)
  | 4 => (if v.toInt < o.toInt then v else o, 0)
  | 5 => (if o.toInt < v.toInt then v else o, 0)
  | 6 => (if v.toNat < o.toNat then v else o, 0)
  | 7 => (if o.toNat < v.toNat then v else o, 0)
  | 8 => (v, 0)
  | 9 => (v, 0)
  | _ =>
    let r := fAdd .nearestEven (value32 o) (value32 v)
    let x := deliver32 none .nearestEven r.1
    (x.1, r.2 ||| x.2)

/-- Whether an atomic writes: all do but a failing ACAS. -/
def atomicWrites (op : BitVec 4) (o c : Word) : Bool := op != 9 || o == c

/-- The kinds of atomic that reduction windows merge (11 R265). -/
def merges (op : BitVec 4) : Bool := decide (op.toNat ≤ 7) || op == 10

/-! ### Where an atomic goes -/

/-- The outcome of sending one atomic: its place, a wait for a page, or a fault with the range of its page. -/
inductive Sent where
  | to (p : AtomPlace) (s : State)
  | stall (s : State)
  | fault (cause : BitVec 8) (lo len : Nat) (s : State)
  deriving DecidableEq, Repr

/-- Where an atomic on an element of context `x` goes once its page is translated, here or at the peer it is forwarded to: a
contribution of R265 inside a reduction window, or a close of one by a release of SYSTEM scope on its counter, goes to the
switch; others to the element's home (11 R265, R272; 20 R437, R438). An answer of a peer that its check failed comes with the
result, not here; so does that of a table entry that cannot be read (21 R444). -/
def sendTo (s : State) (x tag die va : Nat) (op : BitVec 4) (sysRel : Bool) : Sent :=
  let merged : Option AtomPlace := match windowAt s x va with
    | none => none
    | some (w, d) =>
      let onCtr := decide (d.ctr ≤ va) && decide (va < d.ctr + 4)
      if d.kind && (if onCtr then sysRel else merges op) then some (.switch w) else none
  let got (g : Got) : Sent := match g with
    | .stall q => .stall q
    | .fault cause lo len q => if cause = trDATA then .to (merged.getD .peer) q else .fault cause lo len q
    | .bytes _ q => .to (merged.getD .peer) q
  match reach s x tag va .atomic with
  | .here _ pa e => .to (merged.getD (.home pa (leafState e == some .replicated))) s
  | .remote => got (peerGot s va (.bytes []))
  | .lost => .to (merged.getD .lost) s
  | .spoilt pa => .to .lost (s.clearMarks pa 8)
  | r => got (blocked s (some die) r)

/-- TINFO of MALFORMED_PATH raised by an atomic (11 R273). -/
def atomPathTrap (reason : Nat) (p : Path) (lane : Nat) : Trap :=
  mkTrap trPATH reason (p.toNat % 2 ^ 32) (p.toNat / 2 ^ 32) lane

/-- TINFO of the other causes of an atomic (11 R273). -/
def atomTrap (cause : BitVec 8) (fp : Path) (kind lane : Nat) : Trap :=
  mkTrap cause (fp.toNat % 2 ^ 32) (fp.toNat / 2 ^ 32) kind lane

/-- The check of an atomic's path: its tree, or the reason (11 R272, R274). -/
def atomTree (s : State) (x : Nat) (p : Path) : Except Nat Tree :=
  match checkPath s x p with
  | .error r => .error r
  | .ok t => if t.fmt ≠ 0 then .error 13 else .ok t

/-! ### Order (11 R268) -/

/-- Whether a release may issue: earlier copies out are at rest, scatters have ended, atomics are applied. -/
def Core.released (c : Core) : Bool :=
  (c.channels.all fun p => !(p.2.dir && p.2.active) || (c.predFault p.2).isSome) &&
  (c.tickets.all fun p => !p.2.scat || p.2.todo.isEmpty) && c.atoms.all Atom.applied

/-- Whether an atomic of an order must wait at issue: a release waits for what it carries, late copies of it included (16 R365). -/
def orderWait (s : State) (c : Core) (order : Nat) : Bool :=
  c.acquiring || (decide (2 ≤ order) && !(c.released && s.late.isEmpty))

/-- The core with atomics of one instruction of an order sent: an acquire orders its earlier works before its later ones (16
R360). -/
def Core.work (c : Core) (order : Nat) (as : List Atom) : Core :=
  { c with atoms := c.atoms ++ as, aseq := c.aseq + as.length, serial := c.serial + 1,
           ordered := if order % 2 = 1 then c.serial else c.ordered }

/-! ### Scalar atomics (11 R272) -/

/-- The result of a scalar atomic that waits for it. -/
def atomicResult (d : BitVec 5) (seq id : Nat) (s : State) : Res :=
  let c := s.core id
  match c.atoms.find? fun a => a.seq == seq with
  | none => .done s .next
  | some a =>
    if !a.returned then .wait s (.atomic seq)
    else
      let c1 := { c with atoms := c.atoms.filter fun a => a.seq != seq }
      if a.bad then .trap (s.setCore id c1) (atomTrap trDATA a.path 0x200 0)
      else .done (s.setCore id (if d = 0 then c1 else c1.landG s.now d a.old)) .next

/-- A scalar atomic: op, order `o` and scope `sc` (11 R272). -/
def atomicOp (op : BitVec 4) (d : BitVec 5) (a : BitVec 3) (b : BitVec 5) (sc : BitVec 3) (o : BitVec 2) (id : Nat)
    (s : State) : Res :=
  let c := s.core id
  match c.wait with
  | .atomic seq => atomicResult d seq id s
  | _ =>
    if orderWait s c o.toNat then .wait s .stall
    else
      let p := c.readA a
      let x := c.ctx.getD 0
      needRecord id (pHandle p) s fun _ =>
      match atomTree s x p with
      | .error r => .trap s (atomPathTrap r p 0)
      | .ok t =>
        if !inside t (pIndex p) then
          let c1 := if o.toNat % 2 = 1 then c.acquired else c
          .done (s.setCore id (if d = 0 then c1 else c1.landG s.now d 0)) .next
        else
          let off := 4 * pIndex p
          let sys := decide (2 ≤ o.toNat) && sc == 4
          match sendTo s x c.tag (dieOf id) (t.base + off) op sys with
          | .stall q => .wait q .stall
          | .fault cause lo len q =>
            let fp := pagePath t (pHandle p) 0 off false lo len
            .trap (q.pageFault id cause fp 0x200) (atomTrap cause fp 0x200 0)
          | .to place q =>
            let c := q.core id
            let posted := d == 0 && o.toNat % 2 == 0
            let n := c.aseq + 1
            let m : Atom :=
              { seq := n, op := op, va := t.base + off, place := place, operand := c.readG b, compare := c.readG d,
                lane := none, posted := posted, path := dataPath t (pHandle p) (pDepth p) off false, applied := false,
                returned := false, old := 0, flags := 0, bad := false, sysRel := sys, sentAt := s.now,
                func := (s.ctx x).func, stamp := c.serial + 1, after := c.ordered }
            let s1 := q.setCore id (c.work o.toNat [m])
            if posted then .done s1 .next else .wait s1 (.atomic n)

/-- AADD (11 R271). -/
def execAadd (d : BitVec 5) (a : BitVec 3) (b : BitVec 5) (sc : BitVec 3) (o : BitVec 2) (s : State) :
    Host.Outcome State Fault Refusal :=
  issue (.aadd d a b sc o) (atomicOp 0 d a b sc o) s

/-- AAND (11 R271). -/
def execAand (d : BitVec 5) (a : BitVec 3) (b : BitVec 5) (sc : BitVec 3) (o : BitVec 2) (s : State) :
    Host.Outcome State Fault Refusal :=
  issue (.aand d a b sc o) (atomicOp 1 d a b sc o) s

/-- AOR (11 R271). -/
def execAor (d : BitVec 5) (a : BitVec 3) (b : BitVec 5) (sc : BitVec 3) (o : BitVec 2) (s : State) :
    Host.Outcome State Fault Refusal :=
  issue (.aor d a b sc o) (atomicOp 2 d a b sc o) s

/-- AXOR (11 R271). -/
def execAxor (d : BitVec 5) (a : BitVec 3) (b : BitVec 5) (sc : BitVec 3) (o : BitVec 2) (s : State) :
    Host.Outcome State Fault Refusal :=
  issue (.axor d a b sc o) (atomicOp 3 d a b sc o) s

/-- AMIN (11 R271). -/
def execAmin (d : BitVec 5) (a : BitVec 3) (b : BitVec 5) (sc : BitVec 3) (o : BitVec 2) (s : State) :
    Host.Outcome State Fault Refusal :=
  issue (.amin d a b sc o) (atomicOp 4 d a b sc o) s

/-- AMAX (11 R271). -/
def execAmax (d : BitVec 5) (a : BitVec 3) (b : BitVec 5) (sc : BitVec 3) (o : BitVec 2) (s : State) :
    Host.Outcome State Fault Refusal :=
  issue (.amax d a b sc o) (atomicOp 5 d a b sc o) s

/-- AMINU (11 R271). -/
def execAminu (d : BitVec 5) (a : BitVec 3) (b : BitVec 5) (sc : BitVec 3) (o : BitVec 2) (s : State) :
    Host.Outcome State Fault Refusal :=
  issue (.aminu d a b sc o) (atomicOp 6 d a b sc o) s

/-- AMAXU (11 R271). -/
def execAmaxu (d : BitVec 5) (a : BitVec 3) (b : BitVec 5) (sc : BitVec 3) (o : BitVec 2) (s : State) :
    Host.Outcome State Fault Refusal :=
  issue (.amaxu d a b sc o) (atomicOp 7 d a b sc o) s

/-- AXCHG (11 R271). -/
def execAxchg (d : BitVec 5) (a : BitVec 3) (b : BitVec 5) (sc : BitVec 3) (o : BitVec 2) (s : State) :
    Host.Outcome State Fault Refusal :=
  issue (.axchg d a b sc o) (atomicOp 8 d a b sc o) s

/-- ACAS (11 R271). -/
def execAcas (d : BitVec 5) (a : BitVec 3) (b : BitVec 5) (sc : BitVec 3) (o : BitVec 2) (s : State) :
    Host.Outcome State Fault Refusal :=
  issue (.acas d a b sc o) (atomicOp 9 d a b sc o) s

/-- AFADD (11 R271). -/
def execAfadd (d : BitVec 5) (a : BitVec 3) (b : BitVec 5) (sc : BitVec 3) (o : BitVec 2) (s : State) :
    Host.Outcome State Fault Refusal :=
  issue (.afadd d a b sc o) (atomicOp 10 d a b sc o) s

/-! ### Vector atomics (11 R274 to R276) -/

/-- The lanes of a vector atomic as far as they translate: the place of every lane inside, or what stopped at a lane. -/
inductive Lanes where
  | ok (ps : List (Nat × Nat × AtomPlace)) (s : State)
  | stall (s : State)
  | fault (lane : Nat) (ps : List (Nat × Nat × AtomPlace)) (t : Trap) (s : State)
  deriving DecidableEq, Repr

/-- Translates the lanes of a list in order (11 R274). -/
def translateLanes (id : Nat) (t : Tree) (p : Path) (op : BitVec 4) (sys : Bool) (idx : Vec) :
    List Nat → State → Lanes
  | [], s => .ok [] s
  | i :: is, s =>
    let c := s.core id
    let u := (elem 32 idx i).toNat
    let m := pIndex p + u
    if blockCount t (pDepth p) ≤ u then .fault i [] (atomPathTrap 12 p i) s
    else
      let rest (here : List (Nat × Nat × AtomPlace)) (s1 : State) : Lanes :=
        match translateLanes id t p op sys idx is s1 with
        | .ok ps q => .ok (here ++ ps) q
        | .fault k ps tr q => .fault k (here ++ ps) tr q
        | .stall q => .stall q
      if !inside t m then rest [] s
      else match sendTo s (c.ctx.getD 0) c.tag (dieOf id) (t.base + 4 * m) op sys with
        | .to place q => rest [(i, m, place)] q
        | .stall q => .stall q
        | .fault cause lo len q =>
          let fp := pagePath t (pHandle p) 0 (4 * m) false lo len
          .fault i [] (atomTrap cause fp 0x300 i) (q.pageFault id cause fp 0x300)

/-- The atoms of translated lanes of core `c`, numbered from `n`. -/
def laneAtoms (c : Core) (f now : Nat) (t : Tree) (p : Path) (op : BitVec 4) (sys : Bool) (vals : Vec) :
    Nat → List (Nat × Nat × AtomPlace) → List Atom
  | _, [] => []
  | n, (i, m, place) :: ps =>
    { seq := n, op := op, va := t.base + 4 * m, place := place, operand := elem 32 vals i, compare := 0, lane := some i,
      posted := false, path := dataPath t (pHandle p) (pDepth p) (4 * m) false, applied := false, returned := false,
      old := 0, flags := 0, bad := false, sysRel := sys, sentAt := now, func := f, stamp := c.serial + 1,
      after := c.ordered } :: laneAtoms c f now t p op sys vals (n + 1) ps

/-- Sends translated lanes and enters the vector queue for lanes `k0` to `k - 1` (11 R274, R275). -/
def State.sendLanes (s : State) (id : Nat) (i : Instr) (as : List Atom) (k0 k : Nat) : State :=
  let c := s.core id
  let s1 := s.setCore id (c.work (orderOf i) as)
  s1.enqueue id { c.entry i with lane0 := k0, laneN := k, seqs := as.filterMap fun a => a.lane.map fun l => (l, a.seq) }

/-- A vector atomic (11 R274 to R276). A fault at a lane above the first records it in ALANE. -/
def vatomicOp (i : Instr) (op : BitVec 4) (d : BitVec 5) (a : BitVec 3) (b : BitVec 5) (sc : BitVec 3) (o : BitVec 2)
    (id : Nat) (s : State) : Res :=
  let c := s.core id
  orTrap s (vregTrap c [d, b]) fun _ =>
    if c.vectorStall || c.pendingV d || c.pendingV b || orderWait s c o.toNat then .wait s .stall
    else
      let p := c.readA a
      needRecord id (pHandle p) s fun _ =>
      match atomTree s (c.ctx.getD 0) p with
      | .error r => .trap s (atomPathTrap r p 0)
      | .ok t =>
        let sys := decide (2 ≤ o.toNat) && sc == 4
        let k0 := if c.alaneOn && c.alaneAt == c.issueAddr then c.alane else 0
        let atoms := laneAtoms c (s.ctx (c.ctx.getD 0)).func s.now t p op sys (c.readV b) (c.aseq + 1)
        match translateLanes id t p op sys (c.readV d) ((List.range 8).filter fun l => decide (k0 ≤ l)) s with
        | .ok ps q => .done (q.sendLanes id i (atoms ps) k0 8) .next
        | .stall q => .wait q .stall
        | .fault k ps tr q =>
          let s1 := if k0 < k then q.sendLanes id i (atoms ps) k0 k else q
          .trap (s1.modCore id fun c => { c with alane := k, alaneAt := c.issueAddr, alaneArm := true }) tr

/-- VAADD (11 R274). -/
def execVaadd (d : BitVec 5) (a : BitVec 3) (b : BitVec 5) (sc : BitVec 3) (o : BitVec 2) (s : State) :
    Host.Outcome State Fault Refusal :=
  let i := Instr.vaadd d a b sc o
  issue i (vatomicOp i 0 d a b sc o) s

/-- VAAND (11 R274). -/
def execVaand (d : BitVec 5) (a : BitVec 3) (b : BitVec 5) (sc : BitVec 3) (o : BitVec 2) (s : State) :
    Host.Outcome State Fault Refusal :=
  let i := Instr.vaand d a b sc o
  issue i (vatomicOp i 1 d a b sc o) s

/-- VAOR (11 R274). -/
def execVaor (d : BitVec 5) (a : BitVec 3) (b : BitVec 5) (sc : BitVec 3) (o : BitVec 2) (s : State) :
    Host.Outcome State Fault Refusal :=
  let i := Instr.vaor d a b sc o
  issue i (vatomicOp i 2 d a b sc o) s

/-- VAXOR (11 R274). -/
def execVaxor (d : BitVec 5) (a : BitVec 3) (b : BitVec 5) (sc : BitVec 3) (o : BitVec 2) (s : State) :
    Host.Outcome State Fault Refusal :=
  let i := Instr.vaxor d a b sc o
  issue i (vatomicOp i 3 d a b sc o) s

/-- VAMIN (11 R274). -/
def execVamin (d : BitVec 5) (a : BitVec 3) (b : BitVec 5) (sc : BitVec 3) (o : BitVec 2) (s : State) :
    Host.Outcome State Fault Refusal :=
  let i := Instr.vamin d a b sc o
  issue i (vatomicOp i 4 d a b sc o) s

/-- VAMAX (11 R274). -/
def execVamax (d : BitVec 5) (a : BitVec 3) (b : BitVec 5) (sc : BitVec 3) (o : BitVec 2) (s : State) :
    Host.Outcome State Fault Refusal :=
  let i := Instr.vamax d a b sc o
  issue i (vatomicOp i 5 d a b sc o) s

/-- VAMINU (11 R274). -/
def execVaminu (d : BitVec 5) (a : BitVec 3) (b : BitVec 5) (sc : BitVec 3) (o : BitVec 2) (s : State) :
    Host.Outcome State Fault Refusal :=
  let i := Instr.vaminu d a b sc o
  issue i (vatomicOp i 6 d a b sc o) s

/-- VAMAXU (11 R274). -/
def execVamaxu (d : BitVec 5) (a : BitVec 3) (b : BitVec 5) (sc : BitVec 3) (o : BitVec 2) (s : State) :
    Host.Outcome State Fault Refusal :=
  let i := Instr.vamaxu d a b sc o
  issue i (vatomicOp i 7 d a b sc o) s

/-- VAFADD (11 R274). -/
def execVafadd (d : BitVec 5) (a : BitVec 3) (b : BitVec 5) (sc : BitVec 3) (o : BitVec 2) (s : State) :
    Host.Outcome State Fault Refusal :=
  let i := Instr.vafadd d a b sc o
  issue i (vatomicOp i 10 d a b sc o) s

/-! ### At the home (11 R267, R270 to R272, R278) -/

/-- Changes the atom with a number. -/
def Core.modAtom (c : Core) (n : Nat) (f : Atom → Atom) : Core :=
  { c with atoms := c.atoms.map fun a => if a.seq = n then f a else a }

/-- Whether an atom is next at its element among its core's: none of the core's earlier atomics to that element waits
(11 R267). -/
def Core.firstAt (c : Core) (a : Atom) : Bool :=
  c.atoms.all fun b => b.applied || b.va != a.va || decide (a.seq ≤ b.seq)

/-- The core with its atom `a` applied, answer `old`: a posted atomic is done with, its error recorded; flags of a scalar
count now; the latch is set (05 R134; 11 R271, R272, R278). -/
def Core.atomDone (c : Core) (a : Atom) (old : Word) (fl : Flags) (bad : Bool) : Core :=
  let c1 := if a.lane.isNone then c.orFlags fl else c
  let c2 := { c1 with latch := true }
  if a.posted then
    let e : AErr := { fpath := a.path, kind := 0x200, lane := 0, seq := a.seq }
    { c2 with atoms := c2.atoms.filter fun b => b.seq != a.seq, aerr := if bad then firstErr c2.aerr e else c2.aerr }
  else c2.modAtom a.seq fun b => { b with applied := true, old := old, flags := fl, bad := bad }

/-- Applies an atomic at a physical address (11 R270, R271): the parcel is verified, in every copy it is written to, and a mismatch
writes nothing. On a replicated page the late writes to the element, and those before them, come first (R267). -/
def State.applyAt (s0 : State) (pa : Nat) (repl : Bool) (op : BitVec 4) (v cmp : Word) : State × Option (Word × Flags) :=
  let pc := parcels pa 4
  let s := if repl then s0.landOver pa 4 else s0
  let o := readWord s.hbm pa
  let copies := if repl && atomicWrites op o cmp then (List.range 16).map (replicaOf pc.1) else [pc.1]
  if !(s.rangeGood pc.1 pc.2 && copies.all fun a => s.rangeGood a pc.2) then
    (copies.foldl (fun q a => q.clearMarks a pc.2) (s.clearMarks pc.1 pc.2), none)
  else
    let r := atomicValue op o v
    let bs := leBytes r.1.toNat 4
    let s1 := if !atomicWrites op o cmp then s
      else if repl then s.writeCopies pa bs
      else s.writePhys pa bs
    (s1, some (o, r.2))

/-- Applies an atomic to an element of context `x`, at the home the tables give it now (10 R261): a page replicated since it was
sent has copies. -/
def State.applyIn (s : State) (x va pa : Nat) (repl : Bool) (op : BitVec 4) (v cmp : Word) :
    State × Option (Word × Flags) :=
  match walk s x va with
  | .leaf e _ =>
    if leafState e = some .replicated && leafFrame e + va % pageSize (leafK e) = pa then s.applyAt pa true op v cmp
    else s.applyAt pa repl op v cmp
  | .invalid _ _ => s.applyAt pa repl op v cmp

/-- The tables that translate an address of context `x` on this module (20 R437). -/
def homeCtx (s : State) (x va : Nat) : Nat :=
  match routeOf s x va with
  | .here y => y
  | _ => x

/-- The answer of a peer to an atomic executed there, which this module does not hold (log 16): an old value, the flags of an AFADD
(11 R271), or a failed check. -/
def State.peerAnswer (s : State) (op : BitVec 4) : State × Option (Word × Flags) :=
  let w := (Config.freeWord (s.draws + 1)).toNat
  ({ s with draws := s.draws + 2 },
   if w / 32 % 2 = 1 then none else some (Config.freeWord s.draws, if op = 10 then BitVec.ofNat 8 w &&& 0x17#8 else 0))

/-- Atomic `n` of core `c` executes (11 R267, R270, R272). One whose peer no port reaches fails its integrity (20 R434); one that
an earlier work of its core must precede waits (16 R360); one whose translation or flit was uncorrectable fails its integrity (21
R444). -/
def State.applyOwn (s : State) (c n : Nat) : State :=
  let k := s.core c
  match k.atoms.find? fun a => a.seq == n with
  | none => s
  | some a =>
    let answer (r : State × Option (Word × Flags)) : State :=
      match r.2 with
      | some (o, fl) => r.1.modCore c fun k => k.atomDone a o fl false
      | none => r.1.modCore c fun k => k.atomDone a 0 0 true
    if a.applied || !k.firstAt a || orderHeld s { k with atoms := k.atoms.filter fun b => b.seq != n } a.after a.va 4 then s
    else match s.readMark (.xlateCache (clusterOf c) :: .dieXlate (dieOf c) :: retryBuffers s (k.ctx.getD 0) a.va) with
    | some q => answer (q, none)
    | none => match a.place with
      | .home pa repl => answer (s.applyIn (homeCtx s (k.ctx.getD 0) a.va) a.va pa repl a.op a.operand a.compare)
      | .peer => answer (s.peerAnswer a.op)
      | .lost => answer (s, none)
      | .switch _ => s

/-- ATOMIC_APPLY: an atomic of a core here, or one of a peer on an element homed here, translated in the tables of the context it
names; one its page does not admit leaves everything as it is (11 R267; 20 R437). -/
def execAtomicApply (a : AtomSource) (s : State) : Host.Outcome State Fault Refusal :=
  match a with
  | .own c n => .next (s.applyOwn c n)
  | .peer x va op operand compare =>
    match translate s x (s.ctx x).tag (va - va % 4) .atomic with
    | .ok pa e => .next (s.applyAt pa (leafState e == some .replicated) op operand compare).1
    | .stall page st => .next (s.requestPage x page st)
    | .unmapped _ _ bad => .next (s.tableError bad)
    | .denied _ _ => .next s
    | .spoilt p => .next (s.clearMarks p 8)

/-- An access of a peer module that a window forwards to its home here: a beat or a granule of context `x`, read or written as an
access of the context is (20 R437; 10 R246). What it reads leaves the module. -/
def execPeerAccess (x va n : Nat) (data : Option (List Byte)) (s : State) : Host.Outcome State Fault Refusal :=
  let vas := (List.range n).map (va + ·)
  let got := match data with
    | some bs => writeRun s x (s.ctx x).tag none (vas.zip bs)
    | none => readRun s x (s.ctx x).tag 0 vas
  .next (match got with
    | .bytes _ q => q
    | .stall q => q
    | .fault _ _ _ q => q)

/-- ATOMIC_RESULT_RETURN of atomic `n` of core `c` (11 R272): the old value is back. -/
def execAtomicResultReturn (c n : Nat) (s : State) : Host.Outcome State Fault Refusal :=
  .next (s.modCore c fun k => k.modAtom n fun a => if a.applied then { a with returned := true } else a)

/-- The atomic error record is raised and cleared (11 R278). -/
def raiseAErr (id : Nat) (s : State) (k : Unit → Res) : Res :=
  let c := s.core id
  match c.aerr with
  | some e => .trap (s.setCore id { c with aerr := none }) (mkTrap trDATA (e.fpath.toNat % 2 ^ 32) (e.fpath.toNat / 2 ^ 32)
      e.kind.toNat e.lane.toNat)
  | none => k ()

/-- Whether every atomic of a core is applied and every vector atomic complete (11 R279, R280). -/
def Core.atomsDone (c : Core) : Bool :=
  (c.atoms.all Atom.applied) && !(c.vq.any fun e => isVAtomic e.instr) && !(c.vfly.any fun f => isVAtomic f.instr)

/-- VAWAIT (11 R279). -/
def vawaitOp (id : Nat) (s : State) : Res :=
  if !(s.core id).atomsDone then .wait s .stall else raiseAErr id s fun _ => .done s .next

/-- VAWAIT. -/
def execVawait (s : State) : Host.Outcome State Fault Refusal := issue .vawait vawaitOp s

end Sys2Proof.Machine
end

