-- ==== Sys2Proof/Machine/Barrier.lean ====
section
/-!
DEFINITION. Barrier channels: arrivals and their entry into the tree, releases, idle members, and the barrier
instructions (12 R281 to R294; 13 R302, R303).
-/

namespace Sys2Proof.Machine

/-! ### Groups and members -/

/-- The physical core that holds logical core `n` of context `x`. -/
def memberCore (s : State) (x n : Nat) : Option Nat :=
  (s.cores.find? fun p => p.2.ctx == some x && p.2.lcore == n).map Prod.fst

/-- Group `g` of a launch. -/
def State.group (s : State) (x l g : Nat) : Option Group := (s.launch x l).bind fun r => r.groups[g]?

/-- Sets group `g` of a launch. -/
def State.setGroup (s : State) (x l g : Nat) (r : Group) : State :=
  match s.launch x l with
  | none => s
  | some q => s.setLaunch x l { q with groups := q.groups.set g r }

/-- The group of a core (13 R295). -/
def State.groupOf (s : State) (c : Core) : Option Group :=
  match c.ctx, c.group with
  | some x, some g => s.group x c.lslot g
  | _, _ => none

/-- Sets the group of a core. -/
def State.setGroupOf (s : State) (c : Core) (r : Group) : State :=
  match c.ctx, c.group with
  | some x, some g => s.setGroup x c.lslot g r
  | _, _ => s

/-- TARGET of a channel (12 R284). -/
def Core.targetOf (c : Core) (ch : Nat) : BitVec 16 := c.target[ch % 16]'(Nat.mod_lt _ (by omega))

/-- Sets TARGET of a channel. -/
def Core.setTarget (c : Core) (ch : Nat) (v : BitVec 16) : Core :=
  { c with target := c.target.set (ch % 16) v (Nat.mod_lt _ (by omega)) }

/-- The signed comparison of phases: whether phase `p` has reached `v` (12 R284, R292). -/
def reached (p v : BitVec 16) : Bool := decide (0 ≤ (p - v).toInt)

/-- The phase of a core's channel. -/
def phaseOf (s : State) (c : Core) : BitVec 16 :=
  match s.groupOf c with
  | none => 0
  | some g => g.phase

/-- Whether a core has an outstanding arrival on a channel (12 R284). -/
def outstanding (s : State) (c : Core) (ch : Nat) : Bool := !reached (phaseOf s c) (c.targetOf ch)

/-! ### Arrivals (12 R286 to R288; 13 R302) -/

/-- Whether a member counts as arrived: its arrival stands, or it holds no continuation and nothing of it is still to enter the tree
(12 R286, R288). -/
def hasArrived (s : State) (x : Nat) (g : Group) (n : Nat) : Bool :=
  (g.arrived.any fun a => a.1 == n) || match memberCore s x n with
    | none => true
    | some c => (s.core c).status == .idle && (s.core c).arrivals.isEmpty

/-- The release latency of a root, in cycles (12 R285). DESIGN CHOICE, unsafe: R285 gives the most that it may be; the model takes
that very number of cycles, for every member of the group (log 104). -/
def releaseLatency (kind : Nat) : Nat :=
  match kind with
  | 0 => 4
  | 1 => 16
  | 2 => 48
  | _ => 160

/-- A pre-emption of the context is pending and not deferred (19 R414; 20 R440). -/
def Context.stopping (r : Context) : Bool := r.pending && !r.deferred

/-- The group once its last arrival may have entered the tree: RELEASING, or HELD where a pre-emption is pending and an
arrival of the phase was by XSYNC (13 R302). -/
def settleGroup (s : State) (x : Nat) (g : Group) : Group :=
  if g.st = .compute && g.members.all (hasArrived s x g) && !g.arrived.isEmpty then
    if (s.ctx x).stopping && g.arrived.any fun a => a.2.2 then { g with st := .held }
    else { g with st := .releasing, releaseAt := s.now + releaseLatency g.root.1 }
  else g

/-- An arrival of member `n` enters the tree (12 R287): during a release it counts for the next phase. -/
def enterTree (s : State) (x : Nat) (g : Group) (n : Nat) (vote : Option Bool) (xs : Bool) : Group :=
  if g.st = .releasing || g.st = .held then { g with nextArr := g.nextArr ++ [(n, vote, xs)] }
  else settleGroup s x { g with arrived := g.arrived ++ [(n, vote, xs)] }

/-- Whether all that stood before an arrival has been made (12 R288): local accesses, copies out, scatters, atomics. -/
def Core.mayEnter (c : Core) (a : Arrive) : Bool :=
  !(c.vq.any fun e => isVMem e.instr && decide (e.stamp ≤ a.serial)) &&
  !(c.replay.any fun r => decide (r.stamp ≤ a.serial)) &&
  (c.channels.all fun p => !(p.2.dir && p.2.active && decide (p.2.stamp ≤ a.serial)) || (c.predFault p.2).isSome) &&
  (c.tickets.all fun p => !(p.2.scat && !p.2.todo.isEmpty && decide (p.2.stamp ≤ a.serial))) &&
  (c.atoms.all fun m => m.applied || decide (a.aseq < m.seq))

/-- ARRIVAL_ENTERS_TREE of core `c` on channel `ch` (12 R287, R288): as a release, it waits for late copies (16 R365). -/
def execArrivalEntersTree (c ch : Nat) (s : State) : Host.Outcome State Fault Refusal :=
  let k := s.core c
  match k.arrivals.find? fun a => a.channel == ch with
  | none => .next s
  | some a =>
    if !k.mayEnter a || !s.late.isEmpty then .next s
    else
      let s1 := s.setCore c { k with arrivals := k.arrivals.filter fun b => b.channel != ch }
      .next (match s1.groupOf k with
        | none => s1
        | some g => s1.setGroupOf k (enterTree s1 (k.ctx.getD 0) g k.lcore a.vote a.xsync))

/-- The arrival that an idle member makes in the phase under way: the one it has sent, or its standing one; none where it has arrived
or the group releases. DESIGN CHOICE, unsafe: R287 has no row for a member that goes idle while its group is RELEASING or HELD; it
makes no arrival for the next phase, so a group of idle members stays OPEN and does not release again (log 103). -/
def standing (c : Core) (g : Group) : Option Arrive :=
  match c.arrivals.find? fun a => a.channel == g.channel with
  | some a => some a
  | none =>
    if g.st = .releasing || g.st = .held || g.arrived.any fun a => a.1 == c.lcore then none
    else some { channel := g.channel, vote := none, xsync := false, serial := c.serial, aseq := c.aseq }

/-- A member has gone idle: its standing arrival, or one it has sent, enters the tree as soon as no write is late (12 R286 to R288;
16 R365). -/
def State.standIdle (s : State) (id : Nat) : State :=
  let c := s.core id
  match s.groupOf c with
  | none => s
  | some g =>
    let own := (standing c g).toList
    if !s.late.isEmpty then s.setCore id { c with arrivals := own }
    else
      let s1 := s.setCore id { c with arrivals := [] }
      if g.st = .releasing || g.st = .held then s1
      else s1.setGroupOf c (settleGroup s1 (c.ctx.getD 0)
        { g with arrived := g.arrived ++ own.map fun a => (c.lcore, a.vote, a.xsync) })

/-- Whether a member may pick up a continuation: not while its group releases (12 R286). -/
def pickUpOpen (s : State) (c : Core) : Bool :=
  match s.groupOf c with
  | none => true
  | some g => g.st != .releasing && g.st != .held

/-- The member's standing arrival becomes an ordinary one as it picks up a continuation; it passes every slot of an
exchange under way (12 R286; 13 R298). -/
def State.standRunning (s : State) (id : Nat) : State :=
  let c := s.core id
  match s.groupOf c with
  | none => s
  | some g =>
    let sent := c.arrivals.any fun a => a.channel == g.channel
    let gathering := sent || !g.arrived.isEmpty
    let add := if gathering && !sent && !(g.arrived.any fun a => a.1 == c.lcore) then [(c.lcore, none, false)] else []
    let s1 := s.setGroupOf c { g with arrived := g.arrived ++ add, inX := g.inX.filter (· != c.lcore) }
    s1.modCore id fun k => k.setTarget g.channel (if gathering then g.phase + 1 else g.phase)

/-! ### Releases (12 R285, R287, R294; 13 R299, R302) -/

/-- The lowest slot from `k` on that holds an entry (13 R299). -/
def nextSlotFrom (es : List SlotEntry) (k : Nat) : Option Nat :=
  es.foldl (fun m e => if e.slot < k then m else match m with
    | none => some e.slot
    | some n => some (min n e.slot)) none

/-- Opens slot `k` for the transfers that wait for it: the first 32 bytes land 4 cycles later, and 12 for each die crossing
(13 R299). -/
def State.openSlot (s : State) (x k : Nat) (members : List Nat) : State :=
  members.foldl (fun q n =>
    match memberCore q x n with
    | none => q
    | some c => q.modCore c fun r => { r with transfers := r.transfers.map fun t =>
        if t.slot = k && t.nextAt.isNone then
          { t with nextAt := some (s.now + 4 + 12 * crossings (dieOf c) (dieOf ((memberCore s x t.receiver).getD c))) }
        else t }) s

/-- BARRIER_RELEASE of group `g` of launch `l` of context `x` (12 R285, R287; 13 R299, R302): the new phase reaches the
members; arrivals by XSYNC begin an exchange phase. -/
def execBarrierRelease (x l g : Nat) (s : State) : Host.Outcome State Fault Refusal :=
  match s.group x l g with
  | none => .next s
  | some r =>
    if r.st ≠ .releasing || s.now < r.releaseAt then .next s
    else
      let votes := r.arrived.filterMap fun a => a.2.1
      let xs := (r.arrived.filter fun a => a.2.2).map Prod.fst
      let slot := if xs.isEmpty then none else nextSlotFrom r.entries 0
      let r1 : Group :=
        { r with phase := r.phase + 1, orVote := votes.any id,
                 andVote := r.arrived.all (fun a => a.2.1 != some false), arrived := r.nextArr, nextArr := [],
                 st := if slot.isSome then .exchange else .compute, clock := slot,
                 closedAt := none, inX := xs }
      let s1 := r.members.foldl (fun q n =>
        match memberCore q x n with
        | none => q
        | some c => q.modCore c fun k =>
          { k with latch := true, rcvd := if xs.isEmpty then k.rcvd else [] }) s
      let s2 := s1.setGroup x l g (settleGroup s1 x r1)
      .next (match slot with
        | some k => s2.openSlot x k r.members
        | none => s2)

/-! ### The instructions -/

/-- The checks of R290. -/
def barTrap (c : Core) (ch : Nat) : Option Trap :=
  if c.resBars.toNat ≤ ch then some (overrun 2 ch c.resBars.toNat)
  else if !c.barmember.getLsbD ch then some (mkTrap trPROTECTION ch 11 0 0)
  else none

/-- The core with an arrival sent on a channel (12 R291). -/
def Core.arrive (c : Core) (ch : Nat) (phase : BitVec 16) (vote : Option Bool) (xs : Bool) : Core :=
  let a : Arrive := { channel := ch, vote := vote, xsync := xs, serial := c.serial, aseq := c.aseq }
  { c.setTarget ch (phase + 1) with arrivals := c.arrivals ++ [a] }

/-- BARR (12 R291). -/
def barrOp (d : BitVec 5) (ch : Nat) (id : Nat) (s : State) : Res :=
  let c := s.core id
  orTrap s (barTrap c ch) fun _ =>
    if outstanding s c ch then .wait s .stall
    else landRes d (fun k => (k.targetOf ch).zeroExtend 32) id (s.setCore id (c.arrive ch (phaseOf s c) none false))

/-- BARR. -/
def execBarr (d : BitVec 5) (c : BitVec 4) (s : State) : Host.Outcome State Fault Refusal :=
  issue (.barr d c) (barrOp d c.toNat) s

/-- BMSK (12 R291). -/
def bmskOp (d a : BitVec 5) (id : Nat) (s : State) : Res :=
  let c := s.core id
  let m := (c.readG a).toNat % 65536
  let chs := (List.range 16).filter fun i => m / 2 ^ i % 2 == 1
  orTrap s (chs.findSome? (barTrap c)) fun _ =>
    if chs.any (outstanding s c) then .wait s .stall
    else landRes d (fun _ => BitVec.ofNat 32 m) id
      (s.setCore id (chs.foldl (fun k ch => k.arrive ch (phaseOf s c) none false) c))

/-- BMSK. -/
def execBmsk (d a : BitVec 5) (s : State) : Host.Outcome State Fault Refusal := issue (.bmsk d a) (bmskOp d a) s

/-- BWAIT (12 R292), an acquire (16 R360). -/
def bwaitOp (a : BitVec 5) (ch : Nat) (id : Nat) (s : State) : Res :=
  let c := s.core id
  orTrap s (barTrap c ch) fun _ =>
    if reached (phaseOf s c) ((c.readG a).setWidth 16) then .done (s.setCore id c.acquired) .next else .wait s .stall

/-- BWAIT. -/
def execBwait (a : BitVec 5) (c : BitVec 4) (s : State) : Host.Outcome State Fault Refusal :=
  issue (.bwait a c) (bwaitOp a c.toNat) s

/-- BTEST (12 R292). -/
def execBtest (d a : BitVec 5) (c : BitVec 4) (s : State) : Host.Outcome State Fault Refusal :=
  issue (.btest d a c) (fun id s =>
    orTrap s (barTrap (s.core id) c.toNat) fun _ =>
      landRes d (fun k => if reached (phaseOf s k) ((k.readG a).setWidth 16) then 1 else 0) id s) s

/-- BPH (12 R293). -/
def execBph (d : BitVec 5) (c : BitVec 4) (s : State) : Host.Outcome State Fault Refusal :=
  issue (.bph d c) (fun id s =>
    orTrap s (barTrap (s.core id) c.toNat) fun _ =>
      landRes d (fun k => k.targetOf c.toNat ++ phaseOf s k) id s) s

/-- VOTE (12 R294), an acquire (16 R360). -/
def voteOp (d a : BitVec 5) (ch : Nat) (id : Nat) (s : State) : Res :=
  let c := s.core id
  if c.wait = .arrived then
    match s.groupOf c with
    | some g =>
      if reached g.phase (c.targetOf ch) then
        landRes d (fun _ => (if g.orVote then 1 else 0) + (if g.andVote then 2 else 0)) id (s.setCore id c.acquired)
      else .wait s .arrived
    | none => .done s .next
  else orTrap s (barTrap c ch) fun _ =>
    if outstanding s c ch then .wait s .stall
    else .wait (s.setCore id (c.arrive ch (phaseOf s c) (some ((c.readG a).getLsbD 0)) false)) .arrived

/-- VOTE. -/
def execVote (d a : BitVec 5) (c : BitVec 4) (s : State) : Host.Outcome State Fault Refusal :=
  issue (.vote d a c) (voteOp d a c.toNat) s

end Sys2Proof.Machine
end

