-- ==== Sys2Proof/Machine/Gang.lean ====
section
/-!
DEFINITION. Forming, dissolving and naming a gang (06 R167 to R172).
-/

namespace Sys2Proof.Machine

/-- The cores of the aligned set of `n` that core `id` belongs to (06 R168). -/
def gangSet (id n : Nat) : List Nat := (List.range n).map (id - id % n + ·)

/-- GANG_MISMATCH: reason, index of the core that caused it, requested size (06 R169). -/
def gangTrap (reason cause n : Nat) : Trap := mkTrap trGANG reason (indexOf cause) n 0

/-- The size a core waiting in GANG asked for. -/
def gangAsked (c : Core) : Option Nat :=
  match c.wait with
  | .gang n => if c.status == .running then some n else none
  | _ => none

/-- The first core of a rendezvous that makes it fail, with the reason (06 R169). DESIGN CHOICE, unsafe: of two cores that
arrived with different sizes the spec does not say which caused the disagreement; it is the lowest other core that disagrees
as the core that detects it sees them, and every core that traps reports that one (log 80). -/
def gangCause (s : State) (id n : Nat) : Option (Nat × Nat) :=
  let own := (s.core id).ctx
  (gangSet id n).findSome? fun k =>
    let c := s.core k
    if k = id then none
    else if c.status = .idle then some (k, 2)
    else if c.ctx ≠ own then some (k, 3)
    else if c.inGang then some (k, 4)
    else match gangAsked c with
      | some m => if m = n then none else some (k, 1)
      | none => none

/-- Every core but `but` that waits in GANG and whose set holds `cause` takes GANG_MISMATCH (06 R169). -/
def State.gangFail (s : State) (cause reason : Nat) (but : Option Nat) : State :=
  (clusterCores (clusterOf cause)).foldl (fun k w =>
    match gangAsked (s.core w) with
    | some n =>
      if but ≠ some w && (gangSet w n).contains cause then k.takeTrap w (gangTrap reason cause n) (s.core w).pc else k
    | none => k) s

/-- GANG in one core (06 R168, R171). -/
def gangOp (n : Nat) (id : Nat) (s : State) : Res :=
  let c := s.core id
  if c.inGang then (if c.leads then .trap s (gangTrap 5 id n) else .done s .next)
  else match gangCause s id n with
    | some (k, r) => .trap (s.gangFail k r (some id)) (gangTrap r k n)
    | none => .wait s (.gang n)

/-- GANG (06 R168). -/
def execGang (c : BitVec 5) (s : State) : Host.Outcome State Fault Refusal :=
  issue (.gang c) (gangOp (2 ^ c.toNat)) s

/-- UNGANG in one core: every pending write has landed, then GANGSTAT is 0 (06 R168, R172). -/
def ungangOp (id : Nat) (s : State) : Res :=
  let c := s.core id
  if !c.inGang then .done s .next
  else if !c.pend.isEmpty then .wait s .stall
  else .done (s.setCore id { c with gangstat := 0 }) .next

/-- UNGANG (06 R172): retiring it gives every member the leader's loop stack and pc. -/
def execUngang (s : State) : Host.Outcome State Fault Refusal := issue .ungang ungangOp s

/-- GANGID (06 R168). -/
def execGangid (d : BitVec 5) (s : State) : Host.Outcome State Fault Refusal :=
  issue (.gangid d) (landRes d fun c => if c.inGang then BitVec.ofNat 32 c.gangMember else 0) s

/-- GANGSTAT of member `m` of a gang of `n` (06 R167). -/
def gangstatOf (n m : Nat) : Word := BitVec.ofNat 32 (128 + 16 * n.log2 + m)

/-- Whether the rendezvous of `n` cores led by `id` is complete: every core has arrived with size n and every pending
write of every member has landed (06 R168). -/
def gangReady (s : State) (id n : Nat) : Bool :=
  id % n == 0 && (gangSet id n).all fun k =>
    gangAsked (s.core k) == some n && (s.core k).pend.isEmpty && !(s.core k).inGang && (s.core k).ctx == (s.core id).ctx

/-- The gang forms: every member leaves the rendezvous in this cycle (06 R168). -/
def State.formGang (s : State) (id n : Nat) (i : Instr) : State :=
  (gangSet id n).foldl (fun k m =>
    (k.retire m i .next).modCore m fun c => { c with gangstat := gangstatOf n (m - id), leader := id }) s

/-- GANG_RENDEZVOUS_COMPLETE in cluster `k`, the leader being its core `j` (06 R168). -/
def execGangRendezvousComplete (k j : Nat) (s : State) : Host.Outcome State Fault Refusal :=
  let id := 8 * k + j % 8
  match gangAsked (s.core id) with
  | some n => .next (if gangReady s id n then s.formGang id n (.gang (BitVec.ofNat 5 n.log2)) else s)
  | none => .next s

end Sys2Proof.Machine
end

