-- ==== Sys2Proof/Machine/Exchange.lean ====
section
/-!
DEFINITION. Supersteps: the exchange clock, transfers and the exchange instructions (13 R296 to R313).
-/

namespace Sys2Proof.Machine

/-! ### Slots -/

/-- The member number of logical core `n` in its group (13 R295). -/
def Group.memberOf (g : Group) (n : Nat) : Nat := g.members.findIdx fun m => m == n

/-- The entry of slot `k` with member `m` as its sender. -/
def Group.sends (g : Group) (k m : Nat) : Option SlotEntry := g.entries.find? fun e => e.slot == k && e.sender == m

/-- The entry of slot `k` with member `m` as its receiver. -/
def Group.receives (g : Group) (k m : Nat) : Option SlotEntry := g.entries.find? fun e => e.slot == k && e.receiver == m

/-- Whether slot `k` is open (13 R299). -/
def Group.isOpen (g : Group) (k : Nat) : Bool := g.st == .exchange && g.clock == some k && g.closedAt.isNone

/-- Whether the member with logical number `n` has passed slot `k` (13 R298): a member whose XSYNC has not yet completed
still holds its former NEXT. -/
def passed (s : State) (x : Nat) (g : Group) (k n : Nat) : Bool :=
  !g.inX.contains n || match memberCore s x n with
    | none => true
    | some c => (s.core c).status == .idle || ((s.core c).xphase && decide (k < (s.core c).nextSlot))

/-- Whether slot `k` may close: its senders have passed it and its transfers have landed (13 R299). -/
def mayClose (s : State) (x : Nat) (g : Group) (k : Nat) : Bool :=
  (g.entries.all fun e => e.slot != k || passed s x g k (g.members.getD e.sender 0)) &&
  g.members.all fun n => match memberCore s x n with
    | none => true
    | some c => (s.core c).transfers.all fun t => t.slot != k

/-- Whether the exchange clock of a group of a context stands still: it was frozen, or the context's cores are being halted at
instruction boundaries or after a fault (13 R302, R311; 19 R413, R415, R418). -/
def clockStands (r : Context) (g : Group) : Bool :=
  g.frozen || r.forced || r.st == .faulted || (r.haltKind != .none && !r.deferred)

/-- Opens the slots that hold entries in increasing order (13 R299): the slot's transfers start. -/
def State.clockOpens (s : State) (x l n k : Nat) (g : Group) : State :=
  (s.setGroup x l n { g with clock := some k, closedAt := none }).openSlot x k g.members

/-- EXCHANGE_SLOT_CLOSE of group `g` of launch `l` of context `x` (13 R299, R302, R311): the open slot closes; in the cycle
after, the next one opens; with the last one the exchange ends. A clock that stands still neither closes nor opens. -/
def execExchangeSlotClose (x l g : Nat) (s : State) : Host.Outcome State Fault Refusal :=
  match s.group x l g with
  | none => .next s
  | some r =>
    match r.clock, r.closedAt with
    | some k, none =>
      if clockStands (s.ctx x) r || !mayClose s x r k then .next s
      else if (nextSlotFrom r.entries (k + 1)).isSome then .next (s.setGroup x l g { r with closedAt := some s.now })
      else .next (s.setGroup x l g (settleGroup s x { r with st := .compute, clock := none, closedAt := none, inX := [] }))
    | some k, some t =>
      if clockStands (s.ctx x) r || decide (s.now ≤ t) then .next s
      else match nextSlotFrom r.entries (k + 1) with
        | some j => .next (s.clockOpens x l g j r)
        | none => .next s
    | none, _ => .next s

/-! ### Transfers (13 R300, R313) -/

/-- The core with `n` bytes of slot `k` counted in RCVD. -/
def Core.received (c : Core) (k n : Nat) : Core := { c with rcvd := put k (look 0 k c.rcvd + n) c.rcvd }

/-- The transfer after it read its next beat of the sender's bytes: reads are never held, whatever holds the landing, and a byte
of an uncorrectable word is marked (13 R300). -/
def Transfer.fetch (t : Transfer) (c : Core) : Transfer :=
  let read := t.moved + t.buf.length
  { t with buf := t.buf ++ (List.range (min 32 (t.bytes - read))).map fun i =>
      let a := t.srcAt + read + i
      (readByte c.mem a, (c.badWord a 1).isSome) }

/-- The sender's transfers with transfer `t` as it now stands, gone once all its bytes have moved. -/
def setTransfer (ts : List Transfer) (t : Transfer) : List Transfer :=
  ts.filterMap fun u => if u.slot ≠ t.slot then some u else if t.bytes ≤ t.moved then none else some t

/-- The core after bytes landed at local address `a` (13 R300): words marked uncorrectable stay marked where they land. -/
def Core.landMarked (c : Core) (a : Nat) (bs : List (Byte × Bool)) : Core :=
  let d := c.store a (bs.map Prod.fst)
  { d with memBad := (bs.zipIdx.filter fun p => p.1.2).foldl (fun l p => insertNat ((a + p.2) / 4) l) d.memBad }

/-- Moves transfer `t0` of core `c` on by a cycle (13 R300, R313): it reads a beat, and lands one where the receiver's locks, waits
and banks do not hold it; a beat of another tag is discarded at ejection. -/
def State.landBeat (s : State) (c : Nat) (t0 : Transfer) : State :=
  let k := s.core c
  let t := t0.fetch k
  let n := min 32 t.buf.length
  let keep (u : Transfer) : State := s.setCore c { k with transfers := setTransfer k.transfers u }
  let ahead : Transfer := { t with buf := t.buf.drop n, moved := t.moved + n, nextAt := some (s.now + 1) }
  match memberCore s (k.ctx.getD 0) t.receiver with
  | none => keep ahead
  | some r =>
    if tagOf s r ≠ t.tag then (keep ahead).tagMismatch (k.ctx.getD 0) t.tag r
    else
      let d := (keep ahead).delivery r (t.dstAt + t.moved) n
      if d.1 then d.2.modCore r fun q => (q.landMarked (t.dstAt + t.moved) (t.buf.take n)).received t.slot n
      else (keep t).delivery r (t.dstAt + t.moved) n |>.2

/-- The transfer of a core that is due: at most one of its slots is open. -/
def dueTransfer (c : Core) (now : Nat) : Option Transfer :=
  c.transfers.find? fun t => match t.nextAt with
    | some n => decide (n ≤ now)
    | none => false

/-- EXCHANGE_BEAT_LANDS of the transfer that core `c` sends (13 R300). -/
def execExchangeBeatLands (c : Nat) (s : State) : Host.Outcome State Fault Refusal :=
  match dueTransfer (s.core c) s.now with
  | none => .next s
  | some t => .next (s.landBeat c t)

/-! ### The instructions -/

/-- SLOT_VIOLATION (13 R306). -/
def slotTrap (reason t1 t2 t3 : Nat) : Trap := mkTrap trSLOT reason t1 t2 t3

/-- XSYNC (13 R307), an acquire (16 R360). -/
def xsyncOp (d : BitVec 5) (id : Nat) (s : State) : Res :=
  let c := s.core id
  match s.groupOf c with
  | none => .trap s (slotTrap 7 0 0 0)
  | some g =>
    if c.wait = .arrived then
      if reached g.phase (c.targetOf g.channel) then
        landRes d (fun k => k.step.zeroExtend 32) id
          (s.setCore id { c.acquired with step := c.step + 1, xphase := true, nextSlot := 0 })
      else .wait s .arrived
    else if c.xphase then .trap s (slotTrap 5 0 0 c.nextSlot)
    else if outstanding s c g.channel then .wait s .stall
    else .wait (s.setCore id (c.arrive g.channel g.phase none true)) .arrived

/-- XSYNC. -/
def execXsync (d : BitVec 5) (s : State) : Host.Outcome State Fault Refusal := issue (.xsync d) (xsyncOp d) s

/-- The transfer that XSEND issues for entry `e` with `n` bytes; in an open slot it starts at once (13 R299, R300). -/
def transferOf (s : State) (id : Nat) (g : Group) (e : SlotEntry) (n : Nat) : Transfer :=
  let c := s.core id
  let r := g.members.getD e.receiver 0
  let far := 12 * crossings (dieOf id) (dieOf ((memberCore s (c.ctx.getD 0) r).getD id))
  { slot := e.slot, receiver := r, srcAt := e.srcAt, dstAt := e.dstAt, bytes := n, moved := 0, buf := [], tag := c.tag,
    func := (s.ctx (c.ctx.getD 0)).func, nextAt := if g.isOpen e.slot then some (s.now + 4 + far) else none }

/-- Whether slot `k` of a group has opened in the exchange phase that a member's XSEND belongs to (13 R299, R308). -/
def Group.hasOpened (g : Group) (k : Nat) : Bool :=
  g.st != .exchange || match g.clock with
    | some n => decide (k < n) || (n == k && g.closedAt.isNone)
    | none => true

/-- Whether the slot that each member of a core's gang names in register `a` is open: XSEND then waits in none (06 R170; 13
R308). -/
def slotsOpen (s : State) (id : Nat) (a : BitVec 5) : Bool :=
  (gangCores s id).all fun m => match s.groupOf (s.core m) with
    | none => true
    | some g => g.isOpen ((s.core m).readG a).toNat

/-- XSEND (13 R308): NEXT rises and the transfer is issued at once; the instruction waits until its slot is open. -/
def xsendOp (a b : BitVec 5) (id : Nat) (s : State) : Res :=
  let c := s.core id
  match c.wait with
  | .xsend k =>
    match s.groupOf c with
    | none => .done s .next
    | some g => if g.hasOpened k then .done s .next else .wait s (.xsend k)
  | _ =>
    match s.groupOf c with
    | none => .trap s (slotTrap 7 0 0 0)
    | some g =>
      let k := (c.readG a).toNat
      let n := (c.readG b).toNat
      if !c.localDone then .wait s .stall
      else if n % 4 ≠ 0 then .trap s (mkTrap trMISALIGNED n 4 0 0)
      else if !c.xphase then .trap s (slotTrap 3 k n c.nextSlot)
      else match g.sends k (g.memberOf c.lcore) with
        | none => .trap s (slotTrap 1 k n c.nextSlot)
        | some e =>
          let m := if n = 0 then e.bytes else n
          if k < c.nextSlot then .trap s (slotTrap 2 k n c.nextSlot)
          else if e.bytes < m then .trap s (slotTrap 4 k n e.bytes)
          else
            let sent := if m = 0 then c.transfers else c.transfers ++ [transferOf s id g e m]
            let s1 := s.setCore id { c with nextSlot := k + 1, transfers := sent }
            if slotsOpen s id a then .done s1 .next else .wait s1 (.xsend k)

/-- XSEND. -/
def execXsend (a b : BitVec 5) (s : State) : Host.Outcome State Fault Refusal := issue (.xsend a b) (xsendOp a b) s

/-- XDONE (13 R309). -/
def xdoneOp (id : Nat) (s : State) : Res :=
  let c := s.core id
  match s.groupOf c with
  | none => .trap s (slotTrap 7 0 0 0)
  | some g =>
    if !c.xphase then .trap s (slotTrap 6 0 0 c.nextSlot)
    else if g.st = .exchange then .wait (s.setCore id { c with nextSlot := 512 }) .stall
    else .done (s.setCore id { c with nextSlot := 512, xphase := false }) .next

/-- XDONE. -/
def execXdone (s : State) : Host.Outcome State Fault Refusal := issue .xdone xdoneOp s

/-- What XSLOT writes (13 R310). -/
def xslotWord (s : State) (c : Core) (k sel : Nat) : Word :=
  match s.groupOf c with
  | none => 0
  | some g =>
    let m := g.memberOf c.lcore
    let valid (v : Nat) : Word := BitVec.ofNat 32 (2 ^ 31 + v)
    if sel ≤ 1 then
      match g.sends k m with
      | none => 0
      | some e => valid (if sel = 0 then e.receiver else e.bytes)
    else match g.receives k m with
      | none => 0
      | some e => valid (if sel = 2 then e.sender else look 0 k c.rcvd)

/-- XSLOT (13 R310). -/
def execXslot (d a : BitVec 5) (sel : BitVec 2) (s : State) : Host.Outcome State Fault Refusal :=
  issue (.xslot d a sel) (fun id s => landRes d (fun c => xslotWord s c (c.readG a).toNat sel.toNat) id s) s

end Sys2Proof.Machine
end

