-- ==== Sys2Proof/Machine/MsgQueue.lean ====
section
/-!
DEFINITION. Cluster message queues (13 R314 to R320).
-/

namespace Sys2Proof.Machine

/-- The local address of entry `i` of a ring (13 R314). -/
def Ring.entryAt (r : Ring) (i : Nat) : Nat := r.base + 32 * (i % max 1 r.size)

/-- The free count of a ring (13 R314). -/
def Ring.free (r : Ring) : Nat := r.size - (r.tail - r.head)

/-- The QGETs of a core whose load has not made its access. -/
def Core.takesPending (c : Core) : Nat := (c.vq.filter VEntry.take).length

/-- QUEUE_ENTRY_LANDS in the ring of core `c` (13 R313, R314): the first message in flight lands, unless it is held or its
tag differs. LANDED counts entries in the order of their assignment. -/
def execQueueEntryLands (c : Nat) (s : State) : Host.Outcome State Fault Refusal :=
  let k := s.core c
  match k.ring.inflight with
  | [] => .next s
  | m :: rest =>
    let s1 := s.setCore c { k with ring := { k.ring with inflight := rest } }
    let a := k.ring.entryAt m.entry
    if tagOf s c ≠ m.tag then .next (s1.tagMismatch (k.ctx.getD 0) m.tag c)
    else
      let d := s.delivery c a 32
      .next (if d.1 then
        d.2.modCore c fun q =>
          let q1 := (q.store a (leBytes m.data.toNat 32)).wake
          let n := if m.entry = q1.ring.head + q1.ring.landed then q1.ring.landed + 1 else q1.ring.landed
          { q1 with ring := { q1.ring with inflight := rest, landed := n } }
      else d.2)

/-- QAPP (13 R316). -/
def qappOp (d a b : BitVec 5) (nw : Bool) (id : Nat) (s : State) : Res :=
  let c := s.core id
  let j := (c.readG b).toNat % 8
  let t := 8 * clusterOf id + j
  let r := (s.core t).ring
  orTrap s (vregTrap c [a]) fun _ =>
    if tagOf s t ≠ tagOf s id then .trap s (mkTrap trPROTECTION j 12 0 0)
    else if c.pendingV a then .wait s .stall
    else if !r.isOpen || r.free = 0 then
      (if nw then landRes d (fun _ => 0xFFFFFFFF#32) id s else .wait s .stall)
    else
      let m : Append := { entry := r.tail, data := c.readV a, sender := id, tag := c.tag,
                          func := (s.ctx (c.ctx.getD 0)).func }
      let r1 : Ring := { r with tail := r.tail + 1, inflight := r.inflight ++ [m] }
      landRes d (fun _ => BitVec.ofNat 32 r1.free) id (s.modCore t fun k => { k with ring := r1 })

/-- QAPP. -/
def execQapp (d a b : BitVec 5) (n : BitVec 1) (s : State) : Host.Outcome State Fault Refusal :=
  issue (.qapp d a b n) (qappOp d a b (n == 1)) s

/-- The lanes of a vector load of the 32 bytes at `a` (06 R164). -/
def lanesAt (a : Nat) : List (Nat × Nat) := (List.range 8).map fun i => (i, a + 4 * i)

/-- QGET (13 R317): it enters the vector queue as the load of the next entry not yet asked for. -/
def qgetOp (d : BitVec 5) (id : Nat) (s : State) : Res :=
  let c := s.core id
  orTrap s (vregTrap c [d]) fun _ =>
    if !c.ring.isOpen then .trap s (mkTrap trPROTECTION 0 13 0 0)
    else if c.vectorStall || c.ring.landed ≤ c.takesPending then .wait s .stall
    else
      let a := c.ring.entryAt (c.ring.head + c.takesPending)
      .done (s.enqueue id { c.entry (.vld d 0 0) with lanes := lanesAt a, take := true }) .next

/-- QGET. -/
def execQget (d : BitVec 5) (s : State) : Host.Outcome State Fault Refusal := issue (.qget d) (qgetOp d) s

/-- QFREE (13 R318). -/
def qfreeOp (d a : BitVec 5) (id : Nat) (s : State) : Res :=
  let c := s.core id
  let r := min (c.readG a).toNat c.ring.landed
  landRes d (fun _ => BitVec.ofNat 32 r) id
    (s.setCore id { c with ring := { c.ring with head := c.ring.head + r, landed := c.ring.landed - r } })

/-- QFREE. -/
def execQfree (d a : BitVec 5) (s : State) : Host.Outcome State Fault Refusal := issue (.qfree d a) (qfreeOp d a) s

/-- The checks of QFREE.OPEN in the order of R318. -/
def openTrap (c : Core) (b n : Nat) : Option Trap :=
  if n ≠ 0 && (256 < n || 2 ^ n.log2 ≠ n) then some (mkTrap trPROTECTION b 13 0 0)
  else if n ≠ 0 && 0x8000 < b + 32 * n then some (mkTrap trPROTECTION (max b 0x8000) 13 0 0)
  else if n ≠ 0 && c.resLocal.toNat < b + 32 * n then some (overrun 3 (max b c.resLocal.toNat) c.resLocal.toNat)
  else if b % 32 ≠ 0 then some (mkTrap trMISALIGNED b 32 0 0)
  else none

/-- QFREE.OPEN (13 R318). -/
def qopenOp (d a b : BitVec 5) (id : Nat) (s : State) : Res :=
  let c := s.core id
  let base := (c.readG a).toNat
  let n := (c.readG b).toNat
  orTrap s (openTrap c base n) fun _ =>
    if !c.ring.inflight.isEmpty then .wait s .stall
    else
      let r : Ring := { isOpen := n != 0, base := base, size := n, head := 0, tail := 0, landed := 0, inflight := [] }
      landRes d (fun _ => 0) id (s.setCore id { c with ring := r })

/-- QFREE.OPEN. -/
def execQfreeOpen (d a b : BitVec 5) (s : State) : Host.Outcome State Fault Refusal :=
  issue (.qfreeOpen d a b) (qopenOp d a b) s

/-- The word of QCNT (13 R319). -/
def qcntWord (c : Core) : Word :=
  if c.ring.isOpen then BitVec.ofNat 32 (2 ^ 31 + c.ring.entryAt c.ring.head * 2 ^ 16 + c.ring.landed) else 0

/-- QCNT. -/
def execQcnt (d : BitVec 5) (s : State) : Host.Outcome State Fault Refusal := issue (.qcnt d) (landRes d qcntWord) s

end Sys2Proof.Machine
end

