-- ==== Sys2Proof/Machine/Waggle.lean ====
section
/-!
DEFINITION. The waggle plane: entries, frames, withdrawals, result holders and the waggle instructions (14 R321 to R337).
-/

namespace Sys2Proof.Machine

/-! ### Slots, words and holders -/

/-- The first slot boundary after cycle `t` (14 R321, R329). -/
def boundaryAfter (t : Nat) : Nat := (t / 4 + 1) * 4

/-- The boundary at which an entry issued in cycle `t` registers (14 R326). -/
def registersAt (t : Nat) : Nat := (t + 7) / 4 * 4

/-- The word of a contender: its key above its CORE_ID value (14 R323). -/
def contestWord (key : Word) (id : Nat) : BitVec 53 := key ++ BitVec.ofNat 21 id

/-- A core's holder of a lane (14 R330). -/
def Core.holder (c : Core) (n : Nat) : Holder := look Holder.reset n c.holders

/-- Sets a core's holder of a lane. -/
def Core.setHolder (c : Core) (n : Nat) (h : Holder) : Core := { c with holders := put n h c.holders }

/-- The core with the PENDING holder of a lane changed. -/
def Core.modPending (c : Core) (n : Nat) (f : Holder → Holder) : Core :=
  if (c.holder n).st = .pending then c.setHolder n (f (c.holder n)) else c

/-- The status word of a holder (14 R330). -/
def holderWord (h : Holder) : Word :=
  BitVec.ofBool (h.st == .resolved) ++ BitVec.ofBool (h.st == .pending) ++ BitVec.ofBool h.late ++ BitVec.ofBool h.won ++
    BitVec.ofBool (h.st == .cancelled) ++ BitVec.ofBool h.lsn ++ BitVec.ofBool h.req ++ BitVec.ofBool h.empty ++ 0#8 ++ h.frame

/-! ### Frames (14 R324 to R328) -/

/-- The holders of the entrants of a frame that starts, with its number (14 R330). -/
def numberHolders (n : Nat) (f : BitVec 16) (es : List Entrant) (s : State) : State :=
  es.foldl (fun q e => q.modCore e.core fun c => c.modPending n fun h => { h with frame := f }) s

/-- A frame starts at `start` with its entrants: it takes FN as its number (14 R327, R328). -/
def State.beginFrame (s : State) (n : Nat) (l : Lane) (es : List Entrant) (start : Nat) : State :=
  let fixed := es.map fun e => { e with leading := e.word.isSome }
  numberHolders n l.fn fixed (s.setLane n
    { l with st := .running, start := start, frame := l.fn, fn := l.fn + 1, slot := 0, entrants := fixed, queue := [],
             bits := 0, void := false })

/-- An entry `e` registers at boundary `s.now` (14 R326): one that registers at S itself joins the frame that starts at S. -/
def State.register (s : State) (n : Nat) (l : Lane) (e : Entrant) : State :=
  match l.st with
  | .idle => s.setLane n { l with st := .gathering, start := s.now + 224, entrants := [e] }
  | .gathering => s.setLane n { l with entrants := l.entrants ++ [e] }
  | .running =>
    if s.now ≤ l.start then
      numberHolders n l.frame [e]
        (s.setLane n { l with entrants := l.entrants ++ [{ e with leading := e.word.isSome }] })
    else (s.setLane n { l with queue := l.queue ++ [e] }).modCore e.core fun c => c.modPending n fun h => { h with late := true }

/-- WAGGLE_ENTRY_REGISTER of the entry of core `c` on lane `n` (14 R326). -/
def execWaggleEntryRegister (c n : Nat) (s : State) : Host.Outcome State Fault Refusal :=
  let l := s.lane n
  match l.sent.find? fun p => p.1.core == c with
  | none => .next s
  | some (e, b) =>
    if s.now < b then .next s
    else .next (s.register n { l with sent := l.sent.filter fun p => p.1.core != c } e)

/-- FRAME_START of lane `n` (14 R328). -/
def execFrameStart (n : Nat) (s : State) : Host.Outcome State Fault Refusal :=
  let l := s.lane n
  .next (if l.st = .gathering && l.start ≤ s.now then s.beginFrame n l l.entrants l.start else s)

/-- Whether an entrant drives 1 in the slot of word bit `b`. -/
def drives (b : Nat) (e : Entrant) : Bool :=
  e.leading && match e.word with
    | none => false
    | some w => w.getLsbD b

/-- RESOLUTION_SLOT of lane `n` (14 R324, R325): the next slot that has begun. -/
def execResolutionSlot (n : Nat) (s : State) : Host.Outcome State Fault Refusal :=
  let l := s.lane n
  let i := l.slot + 1
  if l.st ≠ .running || 53 < i || s.now < l.start + 4 * i then .next s
  else
    let b := 53 - i
    let line := l.entrants.any (drives b)
    let lead (e : Entrant) : Entrant := { e with leading := e.leading && (drives b e || !line) }
    .next (s.setLane n { l with slot := i, entrants := l.entrants.map lead,
                                bits := if line then l.bits ||| BitVec.ofNat 53 (2 ^ b) else l.bits })

/-- The holder after its frame ended with the entrant `w` leading, or empty (14 R330). -/
def resolved (s : State) (l : Lane) (e : Entrant) (w : Option Entrant) (h : Holder) : Holder :=
  let win := match w with
    | none => 0
    | some k => k.core
  { h with st := .resolved, won := w == some e, empty := w.isNone, frame := l.frame,
           winKey := if w.isNone then 0 else l.bits.extractLsb' 21 32, winner := BitVec.ofNat 32 win,
           winL := if w.isNone then 0 else BitVec.ofNat 32 (s.core win).lcore }

/-- The result of a frame reaches the holders of its entrants (14 R330, R336). -/
def deliver (n : Nat) (l : Lane) (s : State) : State :=
  let w := l.entrants.find? fun e => e.leading
  l.entrants.foldl (fun q e =>
    if e.gone || e.mute then q
    else q.modCore e.core fun c =>
      if (c.holder n).st = .pending then (c.setHolder n (resolved s l e w (c.holder n))).wake else c) s

/-- What becomes of the holders of a void frame (14 R329, R335, R337): survivors are carried with REQ; one cancelled in the
settle slots is CANCELLED; one halted there re-enters at resume. A holder written sets its core's latch (14 R336). -/
def carry (n : Nat) (l : Lane) (s : State) : State :=
  l.entrants.foldl (fun q e =>
    if e.gone || e.mute then q
    else match e.settled with
      | .no => q.modCore e.core fun c => (c.modPending n fun h => { h with req := true }).wake
      | .cancelled => q.modCore e.core fun c => (c.modPending n fun h => { h with st := .cancelled }).wake
      | .halted => q) s

/-- FRAME_END of lane `n` (14 R328). -/
def execFrameEnd (n : Nat) (s : State) : Host.Outcome State Fault Refusal :=
  let l := s.lane n
  if l.st ≠ .running || s.now < l.start + 224 then .next s
  else
    let s1 := if l.void then carry n l s else deliver n l s
    let carried := if l.void then l.entrants.filter fun e => !e.gone && !e.mute && e.settled == .no else []
    let es := carried ++ l.queue
    .next (if es.isEmpty then s1.setLane n { l with st := .idle, entrants := [], queue := [], void := false }
      else s1.beginFrame n l es (l.start + 224))

/-! ### Withdrawals (14 R329) -/

/-- Whether a withdrawal of core `c` now falls in the settle slots of the frame its entry is in. -/
def inSettle (s : State) (l : Lane) (c : Nat) : Bool :=
  l.st == .running && decide (l.start + 216 ≤ boundaryAfter s.now) && l.entrants.any fun e => e.core == c && !e.gone && !e.mute

/-- The lane with the entry of core `c` withdrawn: one not yet registered is gone at once; one in the settle slots is
marked, unless a withdrawal before has marked it (14 R335); any other leaves at the next slot boundary. -/
def Lane.withdrawn (l : Lane) (now c : Nat) (settle : Bool) (how : Settled) : Lane :=
  if settle then
    { l with entrants := l.entrants.map fun e => if e.core = c && !e.gone && !e.mute && e.settled = .no then { e with settled := how } else e }
  else if l.sent.any fun p => p.1.core == c then { l with sent := l.sent.filter fun p => p.1.core != c }
  else { l with withdraw := l.withdraw ++ [(c, boundaryAfter now)] }

/-- WGCAN of a PENDING holder (14 R335). -/
def State.cancelEntry (s : State) (c n : Nat) : State :=
  if ((s.core c).holder n).st = .pending then
    let settle := inSettle s (s.lane n) c
    let s1 := s.setLane n ((s.lane n).withdrawn s.now c settle .cancelled)
    if settle then s1 else s1.modCore c fun k => k.modPending n fun h => { h with st := .cancelled }
  else s

/-- WGCAN on every lane a core holds pending: YIELD and CEND (14 R337). -/
def State.cancelEntries (s : State) (c : Nat) : State :=
  (List.range 32).foldl (fun q n => q.cancelEntry c n) s

/-- A halt withdraws every PENDING entry of a core (14 R337). -/
def State.haltEntries (s : State) (c : Nat) : State :=
  (List.range 32).foldl (fun q n =>
    if ((q.core c).holder n).st = .pending then
      q.setLane n ((q.lane n).withdrawn q.now c (inSettle q (q.lane n) c) .halted)
    else q) s

/-- WAGGLE_WITHDRAWAL of core `c` on lane `n` (14 R329): a frame whose sole leader leaves is void. -/
def execWaggleWithdrawal (c n : Nat) (s : State) : Host.Outcome State Fault Refusal :=
  let l := s.lane n
  if !(l.withdraw.any fun p => p.1 == c && decide (p.2 ≤ s.now)) then .next s
  else
    let l1 := { l with withdraw := l.withdraw.filter fun p => p.1 != c }
    let out (es : List Entrant) : List Entrant := es.filter fun e => e.core != c
    .next (s.setLane n (
      if l.st ≠ .running then { l1 with entrants := out l.entrants }
      else if l.queue.any fun e => e.core == c then { l1 with queue := out l.queue }
      else
        let led := l.entrants.any fun e => e.core == c && e.leading && !e.gone
        let es := l.entrants.map fun e => if e.core = c then { e with gone := true, leading := false } else e
        { l1 with entrants := es, void := l.void || (led && !(es.any Entrant.leading)) }))

/-- An entry of core `c`, sent in cycle `t`: it registers at the first boundary at or after t + 4 (14 R326). -/
def State.sendEntry (s : State) (c n : Nat) (word : Option (BitVec 53)) (t : Nat) : State :=
  let l := s.lane n
  s.setLane n { l with sent := l.sent ++
    [({ core := c, word := word, leading := false, gone := false, mute := false, settled := .no }, registersAt t)] }

/-- A core issues nothing before cycle `t`, and so does its gang. -/
def State.holdIssue (s : State) (c t : Nat) : State :=
  let late (k : Core) : Core := { k with readyAt := max k.readyAt t }
  let s1 := s.modCore c late
  if (s1.core c).inGang then s1.modCore (s1.core c).leader late else s1

/-- The re-entries of a core whose state has been restored (14 R337): it issues nothing before they register. -/
def State.reenter (s : State) (c : Nat) : State :=
  let k := s.core c
  let ns := (List.range 32).filter fun n => (k.holder n).st == .pending
  let s1 := ns.foldl (fun q n =>
    let h := k.holder n
    (q.modCore c fun r => r.setHolder n { h with req := true, late := false, frame := 0 }).sendEntry c n
      (if h.lsn then none else some (contestWord h.key c)) q.now) s
  if ns.isEmpty then s1 else s1.holdIssue c (registersAt s.now)

/-- The pick-up of a continuation: every holder is NONE, and no entry of the continuation before it delivers to one (14
R330). -/
def State.clearHolders (s : State) (c : Nat) : State :=
  let mark (e : Entrant) : Entrant := if e.core = c then { e with mute := true } else e
  let one (p : Nat × Lane) : Nat × Lane := (p.1, { p.2 with entrants := p.2.entrants.map mark })
  let s1 : State := { s with lanes := s.lanes.map one }
  s1.modCore c fun k => { k with holders := [] }

/-! ### The instructions (14 R331 to R335) -/

/-- The lane mask of a core's context (14 R322). -/
def maskOf (s : State) (c : Core) : BitVec 32 :=
  match c.ctx with
  | none => 0
  | some x => (s.ctx x).laneMask

/-- LANE_NOT_OWNED (14 R332). -/
def waggleTrap (s : State) (c : Core) (n minor : Nat) : Option Trap :=
  if (maskOf s c).getLsbD n then none else some (mkTrap trLANE n (maskOf s c).toNat minor 0)

/-- WGENT (14 R333); `key` is none for a listener. -/
def wgentOp (key : Option (BitVec 5)) (n id : Nat) (s : State) : Res :=
  let c := s.core id
  orTrap s (waggleTrap s c n 0) fun _ =>
    if (c.holder n).st = .pending then .wait s .stall
    else
      let k := match key with
        | none => 0
        | some a => c.readG a
      let h : Holder := { Holder.reset with st := .pending, lsn := key.isNone, key := k }
      .done ((s.setCore id (c.setHolder n h)).sendEntry id n (key.map fun _ => contestWord k id) s.now) .next

/-- WGENT. -/
def execWgent (a l : BitVec 5) (s : State) : Host.Outcome State Fault Refusal := issue (.wgent a l) (wgentOp (some a) l.toNat) s

/-- WGENT.L (14 R333). -/
def execWgentL (l : BitVec 5) (s : State) : Host.Outcome State Fault Refusal := issue (.wgentL l) (wgentOp none l.toNat) s

/-- The field of a holder that WGRES reads (14 R330, R334). -/
def holderField (h : Holder) (sel : Nat) : Word :=
  if sel = 0 then holderWord h
  else if h.st ≠ .resolved then 0
  else if sel = 1 then h.winKey
  else if sel = 2 then h.winL
  else h.winner

/-- WGRES (14 R334). -/
def execWgres (d : BitVec 5) (sel : BitVec 2) (l : BitVec 5) (s : State) : Host.Outcome State Fault Refusal :=
  issue (.wgres d sel l) (fun id s =>
    orTrap s (waggleTrap s (s.core id) l.toNat 1) fun _ =>
      landRes d (fun c => holderField (c.holder l.toNat) sel.toNat) id s) s

/-- WGWAIT (14 R334). -/
def execWgwait (d l : BitVec 5) (s : State) : Host.Outcome State Fault Refusal :=
  issue (.wgwait d l) (fun id s =>
    let c := s.core id
    orTrap s (waggleTrap s c l.toNat 2) fun _ =>
      if (c.holder l.toNat).st = .pending then .wait s .stall
      else landRes d (fun c => holderWord (c.holder l.toNat)) id s) s

/-- WGCAN (14 R335). -/
def execWgcan (l : BitVec 5) (s : State) : Host.Outcome State Fault Refusal :=
  issue (.wgcan l) (fun id s =>
    orTrap s (waggleTrap s (s.core id) l.toNat 3) fun _ => .done (s.cancelEntry id l.toNat) .next) s

end Sys2Proof.Machine
end

