-- ==== Sys2Proof/Machine/Continuation.lean ====
section
/-!
DEFINITION. Continuation records, the forage pool, retiring and picking up (01 R22, R23; 17 R380 to R388).
-/

namespace Sys2Proof.Machine

/-! ### CRC-32C (17 R382) -/

/-- One bit of the reflected CRC. -/
def crcBit (c : Word) : Word := if c.getLsbD 0 then (c >>> 1) ^^^ 0x82F63B78#32 else c >>> 1

/-- One byte of the reflected CRC. -/
def crcByte (c : Word) (b : Byte) : Word := (List.range 8).foldl (fun k _ => crcBit k) (c ^^^ b.zeroExtend 32)

/-- CRC-32C of bytes. -/
def crc32c (bs : List Byte) : Word := ~~~(bs.foldl crcByte 0xFFFFFFFF#32)

/-! ### Records (01 R22; 17 R380, R382) -/

/-- Word `i` of a byte string. -/
def wordAt (bs : List Byte) (i : Nat) : Word := BitVec.ofNat 32 (leNat ((bs.drop (4 * i)).take 4))

/-- The 64 bytes of a record: ENTRY, FLAGS, twelve arguments, LINK, CHECK. -/
def contBytes (entry flags : Word) (args : List Word) (link : Word) : List Byte :=
  let body := (entry :: flags :: args ++ [link]).flatMap fun w => leBytes w.toNat 4
  body ++ leBytes (crc32c body).toNat 4

/-- Whether a record passes its check. -/
def contOk (bs : List Byte) : Bool := crc32c (bs.take 60) == wordAt bs 15

/-- The FLAGS of a record of a context's launch slot and group (17 R380). -/
def contFlags (x lslot : Nat) (group : Option Nat) (init : Bool) : Word :=
  BitVec.ofNat 32 ((if init then 2 ^ 21 else 0) + lslot % 16 * 2 ^ 17 + x % 4096 + match group with
    | none => 0
    | some g => 2 ^ 16 + g % 16 * 2 ^ 12)

/-- The record a core makes of an image in its local memory (17 R387, R389). -/
def imageRecord (c : Core) (a : Nat) : List Byte :=
  let bs := readBytes c.mem a 64
  contBytes (wordAt bs 0) (contFlags (c.ctx.getD 0) c.lslot c.group false)
    ((List.range 12).map fun i => wordAt bs (i + 2)) (wordAt bs 14)

/-! ### The pool (17 R384) -/

/-- Whether a record is eligible for a core: of its launch slot and its group. -/
def eligible' (c : Core) (r : PoolRec) : Bool :=
  let f := (wordAt r.bytes 1).toNat
  !r.reserved && bitsOf f 17 4 == c.lslot &&
    (if bitsOf f 16 1 = 1 then c.group == some (bitsOf f 12 4) else c.group.isNone)

/-- The first record eligible for a core. -/
def eligibleRec (s : State) (c : Core) : Option PoolRec :=
  match c.ctx with
  | none => none
  | some x => (s.ctx x).pool.find? (eligible' c)

/-- Changes the pool of a context. -/
def State.modPool (s : State) (x : Nat) (f : List PoolRec → List PoolRec) : State :=
  s.setCtx x { s.ctx x with pool := f (s.ctx x).pool }

/-- Removes a record from a core's pool. -/
def State.takeRec (s : State) (c : Core) (n : Nat) : State := s.modPool (c.ctx.getD 0) fun p => p.filter fun r => r.id != n

/-- Reserves a record, or gives it back. -/
def State.markRec (s : State) (c : Core) (n : Nat) (b : Bool) : State :=
  s.modPool (c.ctx.getD 0) fun p => p.map fun r => if r.id = n then { r with reserved := b } else r

/-- Sets the event latch of every core of a context. -/
def State.wakeAll (s : State) (x : Nat) : State :=
  { s with cores := s.cores.map fun p => if p.2.ctx == some x then (p.1, p.2.wake) else p }

/-- Whether a context's pool is full (17 R384). -/
def poolFull (s : State) (x : Nat) : Bool := decide ((s.ctx x).poolCap ≤ (s.ctx x).pool.length)

/-- Posts a record from die `d`: the event latches of the context's cores are set (05 R134; 17 R384). -/
def State.post (s : State) (x d : Nat) (bs : List Byte) : State :=
  let r := s.ctx x
  let rec' : PoolRec := { id := r.poolSeq, bytes := bs, reserved := false, die := d, since := s.now }
  (s.setCtx x { r with pool := r.pool ++ [rec'], poolSeq := r.poolSeq + 1 }).wakeAll x

/-! ### Pick-up (17 R383) -/

/-- The core after picking up a record whose first instruction issues in cycle `start`. -/
def Core.pickedUp (c : Core) (bs : List Byte) (start pass : Nat) : Core :=
  let arg (i : Nat) : Word := if i = 0 then 0 else if i ≤ 12 then wordAt bs (i + 1) else if i = 13 then wordAt bs 14 else 0
  { Core.reset with
    ctx := c.ctx, lslot := c.lslot, group := c.group, member := c.member, lcore := c.lcore, tag := c.tag,
    status := .running, haltReq := c.haltReq, signal := c.signal, abort := c.abort, readyAt := start, latch := c.latch,
    flagsWord := wordAt bs 1, link := wordAt bs 14, pc := wordAt bs 0, g := Vector.ofFn fun i => arg i.val,
    pass := pass, barmember := c.barmember, resVregs := c.resVregs, resBars := c.resBars, resLocal := c.resLocal,
    resMacros := c.resMacros, pickup := start, cycle0 := start, step := c.step, chan := c.chan, divFree := c.divFree, mem := c.mem,
    memBad := c.memBad, retention := c.retention, serial := c.serial, aseq := c.aseq, target := c.target,
    arrivals := c.arrivals, ring := c.ring, rcvd := c.rcvd, zeroUntil := c.zeroUntil }

/-- The pass value at a pick-up (06 R149). -/
def pickUpPass (s : State) (id : Nat) : Nat := max (s.core id).pass ((minPass s id).getD 0)

/-- The core passes every slot of an exchange under way (13 R298). -/
def State.passSlots (s : State) (id : Nat) : State :=
  let c := s.core id
  match s.groupOf c with
  | none => s
  | some g => s.setGroupOf c { g with inX := g.inX.filter (· != c.lcore) }

/-- A core picks up a record; its first instruction issues in cycle `start`. -/
def State.pickUp (s : State) (id : Nat) (bs : List Byte) (start : Nat) : State :=
  let s1 := (s.clearHolders id).passSlots id
  s1.setCore id ((s1.core id).pickedUp bs start (pickUpPass s id))

/-! ### Retiring (17 R388) -/

/-- Whether a core still holds work of its continuation: writes that have not landed (05 R108), and what its engines do. -/
def Core.busy (c : Core) : Bool :=
  !c.pend.isEmpty || c.feeds || !c.vq.isEmpty || !c.vfly.isEmpty || !c.replay.isEmpty || c.slice.st == .rotating || c.slice.st == .draining ||
  c.sparse.isSome || !c.transfers.isEmpty || (c.tickets.any fun p => !p.2.todo.isEmpty) ||
  (c.atoms.any fun a => !a.applied) || c.channels.any fun p => p.2.st == .moving || p.2.st == .stalled

/-- Whether a message a core has sent has not landed (13 R320). -/
def appending (s : State) (id : Nat) : Bool :=
  (clusterCores (clusterOf id)).any fun k => (s.core k).ring.inflight.any fun m => m.sender == id

/-- The core with its WAITING copies that have a FAULTED predecessor cancelled (09 R230). -/
def Core.cancelWaiting (c : Core) : Core :=
  { c with channels := c.channels.map fun p => if (c.predFault p.2).isSome then (p.1, { p.2 with st := .cancelled }) else p }

/-- The outcome of retiring: not yet, a trap, or the continuation retired. -/
inductive Retiring where
  | wait (s : State)
  | trap (s : State) (t : Trap)
  | done (s : State)
  deriving DecidableEq, Repr

/-- The core as its continuation leaves it (07 R178; 15 R348). -/
def Core.retired (c : Core) : Core :=
  { c.landAll with slice := Slice.reset, binding := Binding.reset, atoms := [], wait := .none, held := none, ops := [],
                   frame := none, loops := [], md := none }

/-- Retires the continuation of a core: the waits of R388, then the errors not yet raised. -/
def retire (s : State) (id : Nat) : Retiring :=
  let c := s.core id
  if c.busy || appending s id then .wait s
  else if c.channels.any fun p => p.2.st == .waiting then .wait (s.setCore id c.cancelWaiting)
  else match c.dataErr with
    | some (a, at') => .trap (s.setCore id { c with dataErr := none }) (mkTrap trDATA a at'.toNat 0 0)
    | none =>
      match c.aerr with
      | some e => .trap (s.setCore id { c with aerr := none })
          (mkTrap trDATA (e.fpath.toNat % 2 ^ 32) (e.fpath.toNat / 2 ^ 32) e.kind.toNat e.lane.toNat)
      | none => .done ((s.cancelEntries id).modCore id Core.retired)

/-- The core goes idle; what only a continuation can take is dropped (12 R286; 19 R417). -/
def State.goIdle (s : State) (id : Nat) : State :=
  (s.modCore id fun c => { c with status := .idle, signal := none, abort := none, quiet := false }).standIdle id

/-- The rendezvous that a YIELD or CEND of a core makes fail (06 R169; 07 R179, R188). -/
def State.leaveRendezvous (s : State) (id : Nat) : State :=
  (s.gangFail id 2 none).jointFail (clusterOf id) fun m => (jointCause s (clusterOf id) (s.core m).ctx (some id)).map fun j =>
    tileTrap 5 (indexOf j) 0

end Sys2Proof.Machine
end

