-- ==== Sys2Proof/Machine/Forage.lean ====
section
/-!
DEFINITION. The forage instructions, quiescence and PATCHI (17 R384 to R394).
-/

namespace Sys2Proof.Machine

/-- The checks of a local image of `size` bytes at `a` (17 R387). -/
def imageTrap (c : Core) (a size : Nat) : Option Trap := localTrap c a size size 14

/-- The checks of a continuation image: its place, a word it cannot read, and its ENTRY (17 R387; 21 R444). -/
def contTrap (c : Core) (a : Nat) : Option Trap :=
  let entry := (readWord c.mem a).toNat
  (imageTrap c a 64).or
    ((c.badWord a 64).map fun w => mkTrap trDATA (max a (4 * w)) 6 0 0) |>.or
    (if entry % 4 ≠ 0 then some (mkTrap trMISALIGNED entry 4 0 0) else none)

/-- Raises an image's trap; the mark of a word it could not read is spent (21 R444). -/
def imageFail (s : State) (id a size : Nat) (t : Trap) : Res :=
  if t.cause = trDATA then
    .trap (s.modCore id fun c => { c with memBad := c.memBad.filter fun w => some w != c.badWord a size }) t
  else .trap s t

/-- An instruction that a gang may not execute: GANG_MISMATCH in the leader (06 R171). -/
def outsideGang (id : Nat) (s : State) (k : Unit → Res) : Res :=
  let c := s.core id
  if c.inGang then (if c.leads then .trap s (gangTrap 5 id 0) else .done s .next) else k ()

/-- FPOST (17 R389). -/
def fpostOp (d a : BitVec 5) (id : Nat) (s : State) : Res :=
  let c := s.core id
  let at' := (c.readG a).toNat
  let x := c.ctx.getD 0
  if !c.localDone then .wait s .stall
  else match contTrap c at' with
    | some t => imageFail s id at' 64 t
    | none =>
      if poolFull s x then landRes d (fun _ => 0) id s else landRes d (fun _ => 1) id (s.post x (dieOf id) (imageRecord c at'))

/-- FPOST. -/
def execFpost (d a : BitVec 5) (s : State) : Host.Outcome State Fault Refusal := issue (.fpost d a) (fpostOp d a) s

/-- The core retires and picks up the record it has reserved (17 R389, R390); a trap gives the record back. -/
def takeReserved (n id : Nat) (s : State) : Res :=
  let c := s.core id
  match ((s.ctx (c.ctx.getD 0)).pool.find? fun r => r.id == n) with
  | none => .wait s .stall
  | some r =>
    match retire s id with
    | .wait k => .wait k (.reserved n)
    | .trap k t => .trap (k.markRec c n false) t
    | .done k => .done ((k.takeRec c n).pickUp id r.bytes (s.now + 1)) .leave

/-- Takes an eligible record: one that fails its check is discarded, and the instruction traps (17 R382); else it is
reserved. -/
def reserveRec (r : PoolRec) (id : Nat) (s : State) : Res :=
  let c := s.core id
  if !contOk r.bytes then .trap (s.takeRec c r.id) (mkTrap trDATA 0 5 0 0)
  else takeReserved r.id id (s.markRec c r.id true)

/-- FORAGE (17 R389). -/
def forageOp (d : BitVec 5) (id : Nat) (s : State) : Res :=
  outsideGang id s fun _ =>
    let c := s.core id
    match c.wait with
    | .reserved n => takeReserved n id s
    | _ =>
      match eligibleRec s c with
      | none => landRes d (fun _ => 0) id s
      | some r => reserveRec r id s

/-- FORAGE. -/
def execForage (d : BitVec 5) (s : State) : Host.Outcome State Fault Refusal := issue (.forage d) (forageOp d) s

/-- The core retires and gives up record `r`, which it has made of its image: it picks it up itself where the pool is full (17
R389). -/
def giveUp (r : List Byte) (id : Nat) (s : State) : Res :=
  let c := s.core id
  let x := c.ctx.getD 0
  match retire (s.leaveRendezvous id) id with
  | .wait k => .wait k (.yielding r)
  | .trap k t => .trap k t
  | .done k => if poolFull k x then .done (k.pickUp id r (s.now + 1)) .leave else .done ((k.post x (dieOf id) r).goIdle id) .leave

/-- YIELD: the record is made once, before the continuation retires (17 R389). -/
def yieldOp (a : BitVec 5) (id : Nat) (s : State) : Res :=
  outsideGang id s fun _ =>
    let c := s.core id
    let at' := (c.readG a).toNat
    match c.wait with
    | .yielding r => giveUp r id s
    | _ =>
      if !c.localDone then .wait s .stall
      else match contTrap c at' with
        | some t => imageFail s id at' 64 t
        | none => giveUp (imageRecord c at') id s

/-- YIELD. -/
def execYield (a : BitVec 5) (s : State) : Host.Outcome State Fault Refusal := issue (.yield a) (yieldOp a) s

/-- CEND (17 R389). -/
def cendOp (id : Nat) (s : State) : Res :=
  outsideGang id s fun _ =>
    match retire (s.leaveRendezvous id) id with
    | .wait k => .wait k .stall
    | .trap k t => .trap k t
    | .done k => .done (k.goIdle id) .leave

/-- CEND. -/
def execCend (s : State) : Host.Outcome State Fault Refusal := issue .cend cendOp s

/-- FQUIET: quiet, then a record or quiescence; in a gang a record for any member ends the wait with 0 in every member
(17 R390). -/
def fquietOp (d : BitVec 5) (id : Nat) (s : State) : Res :=
  let c := s.core id
  if c.group.isNone then .trap s (slotTrap 7 0 0 0)
  else match c.wait with
    | .reserved n => takeReserved n id s
    | w =>
      let still := s.setCore id { c with quiet := false }
      if w = .quiet && !c.quiet then landRes d (fun _ => 1) id s
      else if c.inGang then
        (if (gangCores s id).any fun m => (eligibleRec s (s.core m)).isSome then landRes d (fun _ => 0) id still
         else .wait (s.setCore id { c with quiet := true }) .quiet)
      else match eligibleRec s c with
        | some r => reserveRec r id still
        | none => .wait (s.setCore id { c with quiet := true }) .quiet

/-- FQUIET. -/
def execFquiet (d : BitVec 5) (s : State) : Host.Outcome State Fault Refusal := issue (.fquiet d) (fquietOp d) s

/-- Whether a group is quiescent: each member is idle or waits quiet, and the pool holds no record of the group (17 R390). -/
def quiescent (s : State) (x l g : Nat) (r : Group) : Bool :=
  (r.members.all fun n => match memberCore s x n with
    | none => true
    | some c => (s.core c).status == .idle || ((s.core c).quiet && (s.core c).status == .running)) &&
  !((s.ctx x).pool.any fun p =>
    let f := (wordAt p.bytes 1).toNat
    bitsOf f 17 4 == l && bitsOf f 16 1 == 1 && bitsOf f 12 4 == g)

/-- GROUP_QUIESCENT (17 R390): every member that waits quiet completes. -/
def execGroupQuiescent (x l g : Nat) (s : State) : Host.Outcome State Fault Refusal :=
  match s.group x l g with
  | none => .next s
  | some r =>
    if quiescent s x l g r then
      .next (r.members.foldl (fun q n => match memberCore s x n with
        | none => q
        | some c => q.modCore c fun k => { k with quiet := false }) s)
    else .next s

/-- POOL_TAKE_IDLE: idle core `c` takes record `n` (17 R382, R384; 08 R215; 12 R286). A pick-up waits for retention, for
zeroing and for a release under way. -/
def execPoolTakeIdle (c n : Nat) (s : State) : Host.Outcome State Fault Refusal :=
  let k := s.core c
  let x := k.ctx.getD 0
  match (s.ctx x).pool.find? fun r => r.id == n && eligible' k r with
  | none => .next s
  | some r =>
    let running := match s.launchOf k with
      | none => false
      | some l => l.st == .running && (s.ctx x).st == .running
    let stopping := k.haltReq ≠ .none && !(k.haltReq = .boundary && k.group.isSome)
    if k.status ≠ .idle || !running || stopping || !pickUpOpen s k || decide (s.now < k.zeroUntil) then .next s
    else if k.retention ≠ .awake then .next (s.setCore c (k.rouse s.now))
    else if !contOk r.bytes then
      .next ((s.takeRec k n).notify (s.ctx x).func 10 x (BitVec.ofNat 32 k.lcore) 0x0000000B 0 0 5 0)
    else .next (((s.takeRec k n).pickUp c r.bytes s.now).standRunning c)

/-- PATCHI (17 R393): an index at or beyond PATCHLEN is illegal when the word would issue. -/
def patchiOp (d : BitVec 5) (i : BitVec 8) (id : Nat) (s : State) : Res :=
  let c := s.core id
  let table := match s.launchOf c with
    | none => []
    | some l => l.patch
  if table.length ≤ i.toNat then
    (if c.leads then .trap s (illegalTrap ((encode (.patchi d i)).getD 0) 0 7) else .done s .next)
  else landRes d (fun _ => table.getD i.toNat 0) id s

/-- PATCHI. -/
def execPatchi (d : BitVec 5) (i : BitVec 8) (s : State) : Host.Outcome State Fault Refusal :=
  issue (.patchi d i) (patchiOp d i) s

end Sys2Proof.Machine
end

