-- ==== Sys2Proof/Machine/System.lean ====
section
/-!
DEFINITION. The system instructions and the system registers (02 R30, R31; 05 R131 to R140; 16 R368).
-/

namespace Sys2Proof.Machine

/-! ### Traps -/

/-- TRAP (05 R132). -/
def execTrap (code : BitVec 10) (s : State) : Host.Outcome State Fault Refusal :=
  issue (.trap code) (fun _ s => .enter s (mkTrap trSOFT code.toNat 0 0 0)) s

/-- BKPT (05 R132; 19 R419). -/
def execBkpt (code : BitVec 10) (s : State) : Host.Outcome State Fault Refusal :=
  issue (.bkpt code) (fun _ s => .enter s (mkTrap trBREAK code.toNat 0 0 0)) s

/-- RFT (05 R131). DESIGN CHOICE, unsafe: the table of R129 says only 'address' for PROTECTION reason 3; here it is that of the
RFT (log 91). -/
def rftOp (id : Nat) (s : State) : Res :=
  outsideGang id s fun _ =>
    let c := s.core id
    if !c.handler then .trap s (mkTrap trPROTECTION c.pc.toNat 3 0 0)
    else .done (s.setCore id (c.returnFromTrap s.now)) .leave

/-- RFT. -/
def execRft (s : State) : Host.Outcome State Fault Refusal := issue .rft rftOp s

/-! ### System registers (04 R92; 05 R136 to R140) -/

/-- EXSLOT (13 R296). -/
def exslotWord (c : Core) : Word :=
  c.step ++ BitVec.ofBool c.group.isSome ++ BitVec.ofBool c.xphase ++ BitVec.ofNat 4 c.chan ++ BitVec.ofNat 10 c.nextSlot

/-- The value of a system register. -/
def sysRead (now id : Nat) (c : Core) (n : Nat) : Word :=
  match n with
  | 0x000 => BitVec.ofNat 32 id
  | 0x001 => BitVec.ofNat 32 c.lcore
  | 0x002 => c.tcause
  | 0x003 => c.tpc
  | 0x004 => c.tinfo[0]
  | 0x005 => c.tinfo[1]
  | 0x006 => c.tinfo[2]
  | 0x007 => c.tinfo[3]
  | 0x008 => c.fpflags
  | 0x009 => c.rmode
  | 0x00A => c.bankhash
  | 0x00B => c.vshare
  | 0x011 => c.winbind[1]
  | 0x012 => c.winbind[2]
  | 0x013 => c.winbind[3]
  | 0x014 => c.winbind[4]
  | 0x015 => c.winbind[5]
  | 0x016 => c.winbind[6]
  | 0x017 => c.winbind[7]
  | 0x020 => c.barmember
  | 0x021 => c.gangstat
  | 0x028 => c.resVregs
  | 0x029 => c.resBars
  | 0x02A => c.resLocal
  | 0x02B => c.resMacros
  | 0x030 => BitVec.ofNat 32 (now - c.cycle0 + c.cycleAdd)
  | 0x031 => exslotWord c
  | 0x032 => c.combstat
  | 0x033 => c.conflicts
  | _ => 0

/-- WINBIND with the reserved bits read as 0 (08 R211). -/
def winWord (w : Word) : Word := w &&& 0xFFFFFF00#32

/-- A core after a write of a system register, under its access code (00 R8); a register that may not be written is left
as it is. -/
def sysWrite (now : Nat) (c : Core) (n : Nat) (w : Word) : Core :=
  match n with
  | 0x003 => { c with tpc := w &&& 0xFFFFFFFC#32 }
  | 0x008 => { c with fpflags := c.fpflags &&& ~~~(w &&& 0xFF#32) }
  | 0x009 => { c with rmode := w &&& 3#32 }
  | 0x00A => { c with bankhash := w, rehashAt := some (now + 1024) }
  | 0x00B => if w &&& 15#32 = 0 then c else { c with vshare := w &&& 15#32 }
  | 0x011 => { c with winbind := c.winbind.set 1 (winWord w) }
  | 0x012 => { c with winbind := c.winbind.set 2 (winWord w) }
  | 0x013 => { c with winbind := c.winbind.set 3 (winWord w) }
  | 0x014 => { c with winbind := c.winbind.set 4 (winWord w) }
  | 0x015 => { c with winbind := c.winbind.set 5 (winWord w) }
  | 0x016 => { c with winbind := c.winbind.set 6 (winWord w) }
  | 0x017 => { c with winbind := c.winbind.set 7 (winWord w) }
  | 0x033 => { c with conflicts := w }
  | _ => c

/-- Whether earlier vector instructions may still set flags (05 R133). -/
def Core.flagsPending (c : Core) : Bool := !c.vq.isEmpty || !c.vfly.isEmpty || c.feeds

/-- GSR (05 R133). -/
def gsrOp (d : BitVec 5) (n id : Nat) (s : State) : Res :=
  let c := s.core id
  if n = 8 && c.flagsPending then .wait s .stall else landRes d (fun k => sysRead s.now id k n) id s

/-- GSR. -/
def execGsr (d : BitVec 5) (n : BitVec 10) (s : State) : Host.Outcome State Fault Refusal := issue (.gsr d n) (gsrOp d n.toNat) s

/-- SSR (05 R133; 08 R206). -/
def ssrOp (a : BitVec 5) (n id : Nat) (s : State) : Res :=
  let c := s.core id
  if (n = 8 && c.flagsPending) || (n = 10 && !c.accessesDone) then .wait s .stall
  else .done (s.setCore id (sysWrite s.now c n (c.readG a))) .next

/-- SSR. -/
def execSsr (a : BitVec 5) (n : BitVec 10) (s : State) : Host.Outcome State Fault Refusal := issue (.ssr a n) (ssrOp a n.toNat) s

/-- BANKHASH_REHASH_COMPLETE of core `c` (08 R206): the core issues again and deliveries land again. -/
def execBankhashRehashComplete (c : Nat) (s : State) : Host.Outcome State Fault Refusal :=
  .next (s.modCore c fun k => match k.rehashAt with
    | some t => if t ≤ s.now then { k with rehashAt := none } else k
    | none => k)

/-! ### Waiting, ordering, identity -/

/-- Whether every earlier access of a core has been made: what FENCE waits for (16 R368). -/
def Core.fenced (c : Core) : Bool :=
  c.accessesDone && (c.channels.all fun p => !p.2.active || (c.predFault p.2).isSome) &&
    (c.tickets.all fun p => p.2.todo.isEmpty) && (c.atoms.all fun a => a.applied && (a.posted || a.returned)) &&
    !(c.vq.any fun e => isVAtomic e.instr) && !(c.vfly.any fun f => isVAtomic f.instr)

/-- FENCE (16 R368): it raises no fault that a copy, gather or atomic holds. As a release it waits for late copies (R365). -/
def fenceOp (id : Nat) (s : State) : Res :=
  if (s.core id).fenced && s.late.isEmpty then .done (s.modCore id Core.acquired) .next else .wait s .stall

/-- FENCE. -/
def execFence (sc : BitVec 3) (s : State) : Host.Outcome State Fault Refusal := issue (.fence sc) fenceOp s

/-- WFE (05 R134). -/
def wfeOp (id : Nat) (s : State) : Res :=
  let c := s.core id
  if c.latch then .done (s.setCore id { c with latch := false }) .next else .wait s .stall

/-- WFE. -/
def execWfe (s : State) : Host.Outcome State Fault Refusal := issue .wfe wfeOp s

/-- IDENT (05 R135). -/
def execIdent (d : BitVec 5) (s : State) : Host.Outcome State Fault Refusal :=
  issue (.ident d) (landRes d fun _ => Config.identWord) s

/-- RESULT_LANDS in core `c` (05 R105): every scalar result due by this cycle lands, in program order. -/
def execResultLands (c : Nat) (s : State) : Host.Outcome State Fault Refusal :=
  .next (s.modCore c fun k => k.landDue s.now)

end Sys2Proof.Machine
end

