-- ==== Sys2Proof/Machine/Rings.lean ====
section
/-!
DEFINITION. Launch records, and the rings of host queues with the event counters their heads wait on (17 R377; 18 R398 to
R403, R406).
-/

namespace Sys2Proof.Machine

/-! ### Launch records (17 R377, R378) -/

/-- Bytes `lo` to `lo + n - 1` of a string as a little-endian number. -/
def fieldAt (bs : List Byte) (lo n : Nat) : Nat := leNat ((bs.drop lo).take n)

/-- A decoded launch record; `ok` is the check of reason 1. -/
def decodeRecord (bs : List Byte) : LaunchRec :=
  let w (i : Nat) : Nat := fieldAt bs i 4
  let levels := (List.range 8).map fun i => wordAt bs (8 + i)
  let ok := w 0 == 1 && bitsOf (w 12) 16 16 == 0 && bitsOf (w 20) 20 12 == 0 && bitsOf (w 24) 21 11 == 0 &&
    bitsOf (w 28) 2 30 == 0 && (levels.all fun l => bitsOf l.toNat 3 1 == 0 && bitsOf l.toNat 8 24 == 0) && w 108 == 0 &&
    fieldAt bs 152 104 == 0
  { ok := ok, image := fieldAt bs 4 8, kernel := bitsOf (w 12) 0 8, lindex := bitsOf (w 12) 8 8, entry := w 16,
    row0 := bitsOf (w 20) 0 9, col0 := bitsOf (w 20) 9 11, rows := bitsOf (w 24) 0 10, cols := bitsOf (w 24) 10 11,
    povr := bitsOf (w 28) 0 1 == 1, debug := bitsOf (w 28) 1 1 == 1, levels := levels,
    args := (List.range 11).map fun i => wordAt bs (16 + i), patchPtr := fieldAt bs 112 8, waitAddr := fieldAt bs 120 8,
    waitVal := fieldAt bs 128 8, sigAddr := fieldAt bs 136 8, sigAmt := fieldAt bs 144 8 }

/-- The page that keeps a range of a context's space from being read now, if one is on demand. -/
def stalledPage (s : State) (x tag va : Nat) : Nat → Option (Nat × PageState)
  | 0 => none
  | n + 1 =>
    match translate s x tag va .read with
    | .stall page st => some (page, st)
    | _ => stalledPage s x tag (va + 1) n

/-- A range of a context's space read whole: its bytes, a page to wait for, or none where it cannot be read. -/
inductive Whole where
  | bytes (bs : List Byte)
  | stall (page : Nat) (st : PageState)
  | none
  deriving DecidableEq, Repr

/-- Reads a range of a context's space whole. -/
def readWhole (s : State) (x va n : Nat) : Whole :=
  match stalledPage s x (s.ctx x).tag va n with
  | some (page, st) => .stall page st
  | none => match readVirt s x (s.ctx x).tag va n with
    | some bs => .bytes bs
    | none => .none

/-- Posts the table error that a read of a range as a whole met, if any (10 R243). -/
def State.wholeErrors (s : State) (x va n : Nat) : State := s.walkErrors x ((List.range n).map (va + ·))

/-- The words of a byte string. -/
def wordsIn (bs : List Byte) : List Word := (List.range (bs.length / 4)).map (wordAt bs)

/-! ### Counters and heads (18 R399, R402, R403, R406) -/

/-- Whether a page permits reads and writes of the counter at an address, resident or on demand (18 R403). -/
def counterOk (s : State) (x va : Nat) : Bool :=
  va % 8 == 0 && match walk s x va with
    | .leaf e _ => bitsOf e 2 2 == 3
    | .invalid _ _ => false

/-- The queues of a context: number and record, by number. -/
def queuesOf (s : State) (x : Nat) : List (Nat × HQueue) :=
  (s.queues.filter fun p => p.2.ctx == x && p.2.st != .absent).map fun p => (p.1 % 1024, p.2)

/-- Whether a context has a READY queue. -/
def hasReady (s : State) (x : Nat) : Bool := (queuesOf s x).any fun p => p.2.st == .ready

/-- The address of the record at the head of a queue (18 R399). -/
def HQueue.headAt (q : HQueue) : Nat := q.ringBase + 256 * (q.head.toNat % 2 ^ q.log2n)

/-- The record at the head of a queue (18 R399). -/
def headBytes (s : State) (f : Nat) (q : HQueue) : Whole :=
  let a := q.headAt
  if q.hostMem then (if hostReach s f then .bytes (readBytes s.hostMem a 256) else .none)
  else readWhole s q.ctx a 256

/-- Whether a ring in host memory cannot be read now, as the link of its function's port retrains (20 R433). -/
def ringHeld (s : State) (f : Nat) (q : HQueue) : Bool := q.hostMem && hostHeld s f

/-- Whether a queue's head waits, once its record is read (18 R403): a counter that is not mapped as R403 asks holds nothing
back, as admission will reject the record; one whose word is not good cannot be read (21 R444). -/
inductive Head where
  | ready
  | waiting
  | stall (page : Nat) (st : PageState)
  | spoilt
  deriving DecidableEq, Repr

/-- Evaluates the counter of a head record (18 R403). -/
def headOf (s : State) (x : Nat) (r : LaunchRec) : Head :=
  if r.waitAddr = 0 || !counterOk s x r.waitAddr then .ready
  else match readWhole s x r.waitAddr 8 with
    | .bytes bs => if r.waitVal ≤ leNat bs then .ready else .waiting
    | .stall page st => .stall page st
    | .none => if counterOk s x r.waitAddr then .spoilt else .ready

/-- The pass of a context whose first queue becomes READY: at least the smallest of its function's contexts that have one
(18 R406). -/
def State.joinRotation (s : State) (x : Nat) : State :=
  if hasReady s x then s
  else
    let c := s.ctx x
    let rivals := (s.contexts.filter fun p => p.2.func == c.func && p.2.st != .free && hasReady s p.1).map fun p => p.2.pass
    let least := rivals.foldl (fun (m : Option Nat) p => match m with
      | none => some p
      | some n => some (min n p)) none
    s.setCtx x { c with pass := max c.pass (least.getD 0) }

/-- The partitions that count as active for the clock (01 R24; 19 R422). DESIGN CHOICE, unsafe: the spec does not say what makes a
partition active; here it is one that holds a RUNNING context (log 97). -/
def activeTags (s : State) : List Nat :=
  (s.contexts.filter fun p => p.2.st == .running).foldl (fun l p => insertNat p.2.tag l) []

/-- What precedes a context of a partition becoming active: where another partition is, the clock returns to 1.25 GHz (01 R24,
R25; 19 R422). -/
def State.beforeActive (s : State) (tag : Nat) : State :=
  if (activeTags s).any (· != tag) then { s with mhz := 1250 } else s

/-- A number of microseconds in units of time (19 R422). -/
def timeOf (us : Nat) : Nat := 15000 * us

/-- The units of time in a cycle: 0.8 ns at 1.25 GHz, two thirds of a nanosecond at 1.5 GHz (01 R24). -/
def cycleTime (mhz : Nat) : Nat := 15000 / mhz

/-- A queue whose head cannot be read goes to ERROR; a malformed entry that its walk met is posted, and words that raised an
uncorrectable error are spent (10 R243; 18 R402; 21 R444). -/
def State.headFails (s : State) (f q : Nat) : State :=
  let r := s.queue f q
  let s1 := s.setQueue f q { r with st := .error, err := 2 }
  if r.hostMem then s1 else (s1.wholeErrors r.ctx r.headAt 256).clearVirt r.ctx (s.ctx r.ctx).tag r.headAt 256

/-- A queue whose head waits on a counter with an uncorrectable word, which cannot be read: the queue goes to ERROR with ERR 2.
DESIGN CHOICE, unsafe: the spec gives the counter's read no error of its own (log 98). -/
def State.counterFails (s : State) (f q : Nat) (a : Nat) : State :=
  let r := s.queue f q
  (s.setQueue f q { r with st := .error, err := 2 }).clearVirt r.ctx (s.ctx r.ctx).tag a 8

/-- Evaluates the head of a queue that takes records: EMPTY, WAITING, READY or ERROR (18 R402, R403, R406). `was` says
whether the queue stood in READY. A ring that the link holds is looked at again as soon as it does not (20 R433). -/
def State.evalHead (s : State) (f q : Nat) (was : Bool) : State :=
  let r := s.queue f q
  let wait (k : State) : State := k.setQueue f q { r with st := .waiting, pollAt := s.time + timeOf 10 }
  if r.tail = r.head then s.setQueue f q { r with st := .empty }
  else if ringHeld s f r then s.setQueue f q { r with st := .waiting, pollAt := s.time }
  else match headBytes s f r with
    | .none => s.headFails f q
    | .stall page st => wait (s.requestPage r.ctx page st)
    | .bytes bs =>
      match headOf s r.ctx (decodeRecord bs) with
      | .ready =>
        let s1 := if was then s else (s.setQueue f q { r with st := .waiting }).joinRotation r.ctx
        s1.setQueue f q { r with st := .ready }
      | .waiting => wait s
      | .stall page st => wait (s.requestPage r.ctx page st)
      | .spoilt => s.counterFails f q (decodeRecord bs).waitAddr

/-- A counter of a context was raised by a SIGEV: the queues whose head waits on it are evaluated again in this cycle (18
R403). -/
def State.counterRaised (s : State) (x a : Nat) : State :=
  (queuesOf s x).foldl (fun k p =>
    let f := (s.ctx x).func
    let waits := ringHeld s f p.2 || match headBytes s f p.2 with
      | .bytes bs => (decodeRecord bs).waitAddr == a
      | _ => false
    if p.2.st = .waiting && waits then k.setQueue f p.1 { k.queue f p.1 with pollAt := s.time } else k) s

end Sys2Proof.Machine
end

