-- ==== Sys2Proof/Machine/Launch.lean ====
section
/-!
DEFINITION. Admission, LAUNCH, and the life of a launch (12 R282; 15 R343, R344; 17 R375 to R381, R391,
R394; 18 R397, R403, R404, R408).
-/

namespace Sys2Proof.Machine

/-! ### Areas and groups (17 R377, R378) -/

/-- The logical core at a row and a column, taken modulo the torus (01 R15; 17 R378). -/
def lcoreAt (row col : Nat) : Nat := row % 512 * 2048 + col % 1280

/-- The logical cores of a rectangle in row-major order. -/
def rectangle (row0 col0 rows cols : Nat) : List Nat :=
  (List.range rows).flatMap fun r => (List.range cols).map fun c => lcoreAt (row0 + r) (col0 + c)

/-- The logical cores of a launch's area. -/
def areaOf (r : LaunchRec) : List Nat := rectangle r.row0 r.col0 r.rows r.cols

/-- The members of a declared group in the launch's area, in member order (13 R295). -/
def membersOf (r : LaunchRec) (g : GroupDecl) : List Nat := rectangle (r.row0 + g.row0) (r.col0 + g.col0) g.rows g.cols

/-- The groups a kernel declares for a launch. -/
def declsOf (k : Kernel) (r : LaunchRec) : List GroupDecl := k.groups.filter fun g => g.launch == r.lindex

/-- The widest scope a domain realises (17 R378). -/
def widest (domain : Nat) : Nat :=
  match domain with
  | 0 => 0
  | 1 => 1
  | 2 => 1
  | 3 => 2
  | 4 => 2
  | 5 => 3
  | _ => 4

/-- Whether a context holds scale-up peers: a window of its own joins it to another module (20 R435, R436). -/
def hasPeers (s : State) (x : Nat) : Bool :=
  (s.func (s.ctx x).func).windows.any fun p =>
    p.2.en && p.2.lctx == x && (p.2.home != s.modNum || (List.range 64).any fun m => m != s.modNum && p.2.members.getLsbD m)

/-- Whether the levels obey R378. -/
def levelsOk (s : State) (x : Nat) (ls : List Word) : Bool :=
  let used (l : Word) : Bool := l.getLsbD 7
  let us := ls.takeWhile used
  let dom (l : Word) : Nat := bitsOf l.toNat 0 3
  !us.isEmpty && ((ls.drop us.length).all fun l => !used l) &&
  (us.all fun l => decide (bitsOf l.toNat 4 3 ≤ widest (dom l)) && (decide (dom l < 6) || hasPeers s x)) &&
  (us.zip (us.drop 1)).all fun p => decide (dom p.1 < dom p.2)

/-- The region of a core (01 R18). -/
def regionOf (s : State) (c : Nat) : Nat := dieOf c * 160 + rankOf s (dieOf c) (rowOf c) / 16 * 10 + colOf c / 16

/-- The unit of the logical torus that a level's domain names around a logical core: its cluster, region or die (01 R15 to R18). -/
def logicalUnit (dom n : Nat) : Nat × Nat :=
  match dom with
  | 2 => (n / 2048, n % 2048 / 8)
  | 3 => (n / 2048 / 16, n % 2048 / 16)
  | _ => (n / 2048 / 256, n % 2048 / 160)

/-- The hardware unit of a level's domain around a physical core. -/
def hardUnit (s : State) (dom c : Nat) : Nat :=
  match dom with
  | 2 => clusterOf c
  | 3 => regionOf s c
  | _ => dieOf c

/-- Whether two logical cores, each with its physical core, keep to one hardware unit where a launch's used levels ask it (17
R378). -/
def unitsAgree (s : State) (r : LaunchRec) (p q : Nat × Nat) : Bool :=
  r.levels.all fun l =>
    let dom := bitsOf l.toNat 0 3
    !l.getLsbD 7 || !(decide (2 ≤ dom) && decide (dom ≤ 4)) || logicalUnit dom p.1 != logicalUnit dom q.1 ||
      hardUnit s dom p.2 == hardUnit s dom q.2

/-- Whether the granted cores of an area keep each cluster, region and die of the used levels inside one hardware unit, where the
core table is not the default mapping (17 R378). DEDUCED (log 84): a level that the granted cores do not realise is rejected (03
R71: realisation is decided at launch). -/
def unitsKept (s : State) (x : Nat) (r : LaunchRec) : Bool :=
  let cs := (areaOf r).filterMap fun n => (grantedCore s x n).map fun c => (n, c)
  (s.ctx x).table.isNone || cs.all fun p => cs.all (unitsAgree s r p)

/-- The root of a group: the smallest node that contains every member, by kind and number (12 R282). -/
def rootOf (s : State) (cs : List Nat) : Nat × Nat :=
  let c0 := cs.headD 0
  if cs.all fun c => clusterOf c == clusterOf c0 then (0, clusterOf c0)
  else if cs.all fun c => regionOf s c == regionOf s c0 then (1, regionOf s c0)
  else if cs.all fun c => dieOf c == dieOf c0 then (2, dieOf c0)
  else (3, 0)

/-- The die of a node. -/
def nodeDie (n : Nat × Nat) : Nat :=
  match n.1 with
  | 0 => n.2 * 8 / 131072
  | 1 => n.2 / 160
  | _ => n.2

/-- Whether one root contains another, or is it (12 R282). -/
def contains (s : State) (a b : Nat × Nat) : Bool :=
  if a.1 = 3 then true
  else if b.1 = 3 then false
  else if a.1 = 2 then nodeDie b == a.2
  else if b.1 = 2 then false
  else if a.1 = 1 then (if b.1 = 1 then b.2 == a.2 else regionOf s (8 * b.2) == a.2)
  else b.1 == 0 && b.2 == a.2

/-- The groups of a launch as admission forms them (12 R282; 13 R295, R302). -/
def formGroups (s : State) (x : Nat) (k : Kernel) (r : LaunchRec) : List Group :=
  (declsOf k r).map fun g =>
    let ms := membersOf r g
    { channel := g.channel, root := rootOf s (ms.filterMap (grantedCore s x)), members := ms, entries := g.entries, phase := 0,
      st := .compute, arrived := [], nextArr := [], releaseAt := 0, orVote := false, andVote := false, clock := none,
      closedAt := none, inX := [], frozen := false }

/-- Whether the roots of two groups of a context on one channel cannot both be cut (12 R282). -/
def rootsClash (s : State) (a b : Group) : Bool :=
  a.channel == b.channel && (contains s a.root b.root || contains s b.root a.root)

/-- Whether the roots of groups of a context can all be cut (12 R282). -/
def rootsApart (s : State) : List Group → Bool
  | [] => true
  | g :: gs => !(gs.any (rootsClash s g)) && rootsApart s gs

/-- Whether every new root can be cut beside those of the context's launches and of each other (12 R282). -/
def rootsOk (s : State) (x : Nat) (gs : List Group) : Bool :=
  let old := (s.ctx x).launches.flatMap fun p => p.2.groups
  (gs.all fun g => !(old.any (rootsClash s g))) && rootsApart s gs

/-- Whether a slot table keeps the limits of R297 under a declared local size. -/
def tableOk (g : Group) (localLen : Nat) : Bool :=
  (g.entries.all fun e => decide (e.slot < 512) && decide (e.sender < g.members.length) &&
    decide (e.receiver < g.members.length) && decide (e.srcAt + e.bytes ≤ localLen) && decide (e.dstAt + e.bytes ≤ localLen) &&
    decide ((g.entries.filter fun f => f.sender == e.sender).length ≤ 128) &&
    decide ((g.entries.filter fun f => f.receiver == e.receiver).length ≤ 128))

/-- The slots a macro set takes (15 R343). -/
def setSize (ms : Table (List (Word × Word))) : Nat := ms.foldl (fun n p => n + p.2.length) 0

/-- The outcome of admission: a wait for a page, a rejection, or the launch's patch table and groups. -/
inductive Admission where
  | stall (s : State)
  | reject (reason : Nat)
  | ok (patch : List Word) (groups : List Group)
  deriving DecidableEq, Repr

/-- The lowest free launch slot of a context (17 R378). -/
def freeSlot (s : State) (x : Nat) : Option Nat := (List.range 16).find? fun l => !has l (s.ctx x).launches

/-- The checks of reasons 9 to 11, once the patch table is known (17 R378; 18 R403; 15 R344). -/
def lastChecks (s : State) (x : Nat) (k : Kernel) (r : LaunchRec) (patch : List Word) (gs : List Group) : Admission :=
  if (freeSlot s x).isNone then .reject 9
  else if (r.waitAddr ≠ 0 && !counterOk s x r.waitAddr) || (r.sigAddr ≠ 0 && !counterOk s x r.sigAddr) then .reject 10
  else if ((areaOf r).filterMap (grantedCore s x)).any fun c =>
      sharedCluster s (clusterOf c) && decide (slotShare s (clusterOf c) (s.ctx x).tag < setSize k.macros) then .reject 11
  else .ok patch gs

/-- The checks of admission in order (17 R378); an image's handle is its context's number (log 21). -/
def admission (s : State) (x : Nat) (r : LaunchRec) : Admission :=
  if !r.ok then .reject 1
  else match if r.image = x then ((s.ctx x).image.kernels.find? fun p => p.1 == r.kernel).map Prod.snd else none with
    | none => .reject 2
    | some k =>
      let gs := formGroups s x k r
      if !k.header.ok || k.nLaunch ≤ r.lindex || r.entry % 4 ≠ 0 || k.header.codeLen ≤ r.entry then .reject 2
      else if r.rows = 0 || 512 < r.rows || r.cols = 0 || 1280 < r.cols || 1280 ≤ r.col0 ||
          (declsOf k r).any fun g => decide (r.rows < g.row0 + g.rows) || decide (r.cols < g.col0 + g.cols) then .reject 3
      else if !levelsOk s x r.levels || !unitsKept s x r then .reject 4
      else if (areaOf r).any fun n => (grantedCore s x n).isNone then .reject 5
      else if !rootsOk s x gs then .reject 6
      else if gs.any fun g => !tableOk g k.header.localLen then .reject 7
      else if r.povr && 0 < k.header.patchLen then
        match readWhole s x r.patchPtr (4 * k.header.patchLen) with
        | .stall page st => .stall (s.requestPage x page st)
        | .none => .reject 8
        | .bytes bs => lastChecks s x k r (wordsIn bs) gs
      else lastChecks s x k r k.patch gs

/-- Posts the table error that made a patch table unreadable, if one did (10 R243; reason 8). -/
def State.patchErrors (s : State) (x : Nat) (r : LaunchRec) (reason : Nat) : State :=
  if reason = 8 then
    match ((s.ctx x).image.kernels.find? fun p => p.1 == r.kernel).map Prod.snd with
    | some k => s.wholeErrors x r.patchPtr (4 * k.header.patchLen)
    | none => s
  else s

/-- A launch enters PLACING in slot `l`; its number is its place in the order of admission (17 R379; 18 R397; 19 R412). -/
def State.place (s : State) (x l : Nat) (r : LaunchRec) (patch : List Word) (gs : List Group)
    (origin : Option (Nat × Nat × Nat)) (report : Option (Nat × Nat)) : State :=
  let k := s.ctx x
  let q : Launch := { st := .placing, record := r, patch := patch, groups := gs, origin := origin, report := report,
                      order := s.launchSeq }
  let s1 : State := { s.beforeActive k.tag with launchSeq := s.launchSeq + 1 }
  s1.setCtx x { k with launches := put l q k.launches, st := .running }

/-! ### LAUNCH (17 R391; 16 R369; 18 R408) -/

/-- The queue that is told of a launch's children (18 R408). -/
def childQueue (l : Launch) : Option (Nat × Nat) :=
  match l.origin with
  | some (f, q, _) => some (f, q)
  | none => l.report

/-- Raises CHILDREJ of a queue, stopping at 0xFF (18 R400). -/
def State.childRejected (s : State) (q : Option (Nat × Nat)) : State :=
  match q with
  | none => s
  | some (f, n) => s.setQueue f n { s.queue f n with childRej := min 255 ((s.queue f n).childRej + 1) }

/-- LAUNCH: it waits as a release does, for late copies of earlier writes too (16 R365, R369). -/
def launchOp (d a : BitVec 5) (id : Nat) (s : State) : Res :=
  outsideGang id s fun _ =>
    let c := s.core id
    let at' := (c.readG a).toNat
    let x := c.ctx.getD 0
    if !c.released || !c.localDone || c.acquiring || !s.late.isEmpty then .wait s .stall
    else match (imageTrap c at' 256).or ((c.badWord at' 256).map fun w => mkTrap trDATA (max at' (4 * w)) 6 0 0) with
      | some t => imageFail s id at' 256 t
      | none =>
        match s.launchOf c with
        | none => .done s .next
        | some parent =>
          let r := { decodeRecord (readBytes c.mem at' 256) with image := parent.record.image }
          match freeSlot s x with
          | none => landRes d (fun _ => 0) id (s.childRejected (childQueue parent))
          | some l =>
            let ticket := BitVec.ofNat 32 (2 ^ 31 + l)
            match admission s x r with
            | .stall q => .wait q .stall
            | .reject n => landRes d (fun _ => ticket) id ((s.patchErrors x r n).childRejected (childQueue parent))
            | .ok patch gs => landRes d (fun _ => ticket) id (s.place x l r patch gs none (childQueue parent))

/-- LAUNCH. -/
def execLaunch (d a : BitVec 5) (s : State) : Host.Outcome State Fault Refusal := issue (.launch d a) (launchOp d a) s

/-! ### Loading (17 R375, R379; 15 R343, R344; 21 R448) -/

/-- Whether a core holds a launch. -/
def holdsLaunch (s : State) (c : Nat) : Bool := (s.launchOf (s.core c)).isSome

/-- Whether a delivery into core `c` is still under way: a message, a transfer or a deal (18 R397). -/
def delivering (s : State) (c : Nat) : Bool :=
  !(s.core c).ring.inflight.isEmpty ||
    s.cores.any fun p => p.2.channels.any fun ch => ch.2.active && ch.2.deal && (dealCores s p.1 ch.2.pattern).contains (some c)

/-- Whether a core may take a launch of context `x` (17 R379; 18 R397). -/
def coreFree (s : State) (x c : Nat) : Bool :=
  let k := s.core c
  k.status == .idle && !holdsLaunch s c && (k.ctx == some x || !delivering s c)

/-- Cluster `k` with the macro set of a kernel installed, unpinned combs evicted as needed; none where it does not fit (15
R343, R344). -/
def installSet (s : State) (k x kernel tag : Nat) (ms : Table (List (Word × Word))) : Option Cluster :=
  let cl := s.cluster k
  if cl.macros.any fun m => m.ctx == x && m.kernel == kernel then some cl
  else if ms.isEmpty then some cl
  else (evictFor s k tag (setSize ms) cl.combs.length cl).map fun c =>
    { c with macros := c.macros ++ [{ ctx := x, kernel := kernel, ops := ms }],
             queue := c.queue.filter fun n => has n c.combs }

/-- The clusters of a launch's cores, each once. -/
def clustersOf (cs : List Nat) : List Nat := cs.foldl (fun l c => insertNat (clusterOf c) l) []

/-- Installs a kernel's set in clusters; none where one has no room. -/
def installAll (x kernel tag : Nat) (ms : Table (List (Word × Word))) : List Nat → State → Option State
  | [], s => some s
  | k :: ks, s =>
    match installSet s k x kernel tag ms with
    | none => none
    | some cl => installAll x kernel tag ms ks (s.setCluster k cl)

/-- Evicts from clusters the combs that are not pinned, as far as a set of `need` slots wants their room (15 R343, R344). -/
def State.evictSets (s : State) (tag need : Nat) (ks : List Nat) : State :=
  ks.foldl (fun q k => q.setCluster k (evictDown q k tag need (q.cluster k).combs.length (q.cluster k))) s

/-- The granted cores of a launch's area. -/
def areaCores (s : State) (x : Nat) (l : Launch) : List Nat := (areaOf l.record).filterMap (grantedCore s x)

/-- The kernel of a launch in its context's image. -/
def kernelFor (s : State) (x : Nat) (l : Launch) : Option Kernel :=
  ((s.ctx x).image.kernels.find? fun p => p.1 == l.record.kernel).map Prod.snd

/-- Whether a launch's macro set does not fit in its clusters (15 R344). -/
def wantsSpace (s : State) (x : Nat) (l : Launch) : Bool :=
  match kernelFor s x l with
  | none => false
  | some k => (installAll x l.record.kernel (s.ctx x).tag k.macros (clustersOf (areaCores s x l)) s).isNone

/-- Whether a launch's kernel has a macro set still to be installed in cluster `k` (15 R344). -/
def setMissing (s : State) (x : Nat) (l : Launch) (k : Nat) : Bool :=
  (match kernelFor s x l with
   | none => false
   | some kn => !kn.macros.isEmpty) && !((s.cluster k).macros.any fun m => m.ctx == x && m.kernel == l.record.kernel)

/-- Whether an earlier launch goes before a later one in the control store of a cluster that both need space in: it waits for that
space, or nothing but its turn keeps it from taking it (15 R344). -/
def spaceFirst (s : State) (x : Nat) (l : Launch) (y : Nat) (later : Launch) : Bool :=
  let cs := areaCores s x l
  ((clustersOf cs).any fun k => (clustersOf (areaCores s y later)).contains k && setMissing s x l k && setMissing s y later k) &&
    (wantsSpace s x l || cs.all (coreFree s x))

/-- Whether a launch of any RUNNING context that was admitted earlier waits for a core of this one's area, or goes first for
control-store space in a cluster of it (15 R344; 18 R397). DEDUCED (log 84): a launch of a context that does not run keeps no core
waiting. -/
def earlierWaits (s : State) (x : Nat) (l : Launch) : Bool :=
  let mine := areaCores s x l
  s.contexts.any fun c => c.2.st == .running && c.2.launches.any fun p =>
    p.2.st == .placing && decide (p.2.order < l.order) &&
      ((areaCores s c.1 p.2).any (fun n => mine.contains n) || spaceFirst s c.1 p.2 x l)

/-- Removes from a cluster the combs that satisfy a test, with the requests for them (15 R343; 21 R448). -/
def State.dropCombs (s : State) (k : Nat) (gone : Comb → Bool) : State :=
  let cl := s.cluster k
  s.setCluster k { cl with combs := cl.combs.filter (fun q => !gone q.2),
                           queue := cl.queue.filter fun n => cl.combs.any fun q => q.1 == n && !gone q.2 }

/-- Cluster `k` has passed to context `x`, one of whose cores stands there: the combs of former contexts go, those of its partition
and those of partitions without a core there (15 R343; 19 R423). -/
def State.combsPass (s : State) (x k : Nat) : State :=
  s.dropCombs k fun q => q.ctx != x && !((clusterCores k).any fun c => (s.core c).ctx == some q.ctx) &&
    ((s.ctx q.ctx).tag == (s.ctx x).tag || !((clusterCores k).any fun c => tagOf s c == (s.ctx q.ctx).tag))

/-- Local memory below `n` as the loader writes it for logical core `lc` (03 R76). -/
def loadLocal (m : List Host.Cell) (n lc : Nat) (runs : List LocalRun) : List Host.Cell :=
  runs.foldl (fun q r =>
    if r.first = 0xFFFFFFFF || (r.first ≤ lc && lc ≤ r.last) then writeBytes q r.addr r.bytes else q) (clearRange m 0 n)

/-- The group of a logical core in a launch: its index, and the core's member number. -/
def groupFor (gs : List Group) (n : Nat) : Option (Nat × Nat × Group) :=
  ((List.range gs.length).zip gs).findSome? fun p =>
    if p.2.members.contains n then some (p.1, p.2.memberOf n, p.2) else none

/-- A core as a launch takes it (17 R375, R379; 13 R296, R314): zeroed when it comes from another owner (21 R448), with the
limits of the kernel, its place in the launch and its local image. -/
def Core.loaded (c : Core) (now x l lc tag : Nat) (k : Kernel) (gs : List Group) : Core :=
  let g := groupFor gs lc
  let same := c.ctx == some x
  let n := k.header.localLen
  let base := if same then c else { Core.reset with retention := c.retention, divFree := c.divFree, pass := c.pass,
                                                    serial := c.serial, aseq := c.aseq, zeroUntil := now + 512 }
  { base with
    ctx := some x, lslot := l, lcore := lc, tag := tag, group := g.map fun p => p.1, member := (g.map fun p => p.2.1).getD 0,
    chan := (g.map fun p => p.2.2.channel).getD 0,
    barmember := (g.map fun p => BitVec.ofNat 32 (2 ^ p.2.2.channel)).getD 0, step := 0, xphase := false, nextSlot := 0,
    resVregs := BitVec.ofNat 32 k.header.vregs, resBars := BitVec.ofNat 32 k.header.bars,
    resLocal := BitVec.ofNat 32 n, resMacros := BitVec.ofNat 32 k.header.macros,
    target := Vector.replicate 16 0, arrivals := [], ring := Ring.reset, rcvd := [], transfers := [],
    mem := loadLocal base.mem n lc k.runs, memBad := base.memBad.filter fun w => decide (n ≤ 4 * w) }

/-- LAUNCH_LOAD of launch `l` of context `x` (17 R379): its cores are free and its macros fit; a core in retention leaves it
first (08 R215). -/
def execLaunchLoad (x l : Nat) (s : State) : Host.Outcome State Fault Refusal :=
  let ctx := s.ctx x
  match s.launch x l with
  | none => .next s
  | some q =>
    let lcs := areaOf q.record
    let cs := lcs.filterMap fun n => (grantedCore s x n).map fun c => (n, c)
    let ids := cs.map Prod.snd
    match (ctx.image.kernels.find? fun p => p.1 == q.record.kernel).map Prod.snd with
    | none => .next s
    | some k =>
      if q.st ≠ .placing || ctx.st ≠ .running || cs.length ≠ lcs.length || earlierWaits s x q ||
          !(ids.all (coreFree s x)) then .next s
      else if ids.any fun c => (s.core c).retention != .awake then
        .next (ids.foldl (fun r c => r.modCore c fun k => k.rouse s.now) s)
      else match installAll x q.record.kernel ctx.tag k.macros (clustersOf ids) s with
        | none => .next (s.evictSets ctx.tag (setSize k.macros) (clustersOf ids))
        | some s1 =>
          let s2 := cs.foldl (fun r p => r.modCore p.2 fun c => c.loaded s.now x l p.1 ctx.tag k q.groups) s1
          let s3 := (clustersOf ids).foldl (fun r n => r.combsPass x n) s2
          .next (s3.setLaunch x l { q with st := .loading })

/-- The physical cores of a launch. -/
def coresIn (s : State) (x l : Nat) : List Nat := (s.cores.filter fun p => p.2.ctx == some x && p.2.lslot == l).map Prod.fst

/-- The initial continuation of a core (17 R381). -/
def initialRecord (x l : Nat) (c : Core) (r : LaunchRec) : List Byte :=
  contBytes (BitVec.ofNat 32 r.entry) (contFlags x l c.group true) (BitVec.ofNat 32 c.lcore :: r.args) 0

/-- LAUNCH_START of launch `l` of context `x` (17 R379, R381): every core picks up its initial continuation; a memory in retention
leaves it first (08 R215). -/
def execLaunchStart (x l : Nat) (s : State) : Host.Outcome State Fault Refusal :=
  match s.launch x l with
  | none => .next s
  | some q =>
    let ids := coresIn s x l
    let ctx := s.ctx x
    if q.st ≠ .loading || ctx.st ≠ .running || ctx.pending || ctx.haltKind ≠ .none ||
        (ids.any fun c => decide (s.now < (s.core c).zeroUntil)) then .next s
    else if ids.any fun c => (s.core c).retention != .awake then
      .next (ids.foldl (fun r c => r.modCore c fun k => k.rouse s.now) s)
    else
      let s1 := s.setLaunch x l { q with st := .running }
      .next (ids.foldl (fun r c => (r.pickUp c (initialRecord x l (r.core c) q.record) s.now).standRunning c) s1)

/-! ### The end of a launch (17 R379; 18 R401, R404) -/

/-- Whether nothing of a launch is left to run. -/
def launchDone (s : State) (x l : Nat) : Bool :=
  ((coresIn s x l).all fun c => (s.core c).status == .idle) &&
    !((s.ctx x).pool.any fun r => bitsOf (wordAt r.bytes 1).toNat 17 4 == l)

/-- Unbinds a launch from its cores and removes its macro sets where no other launch of the kernel holds them (15 R344). -/
def State.unbind (s : State) (x l : Nat) : State :=
  let kernel := match s.launch x l with
    | none => 0
    | some q => q.record.kernel
  let ids := coresIn s x l
  let r := s.ctx x
  let s1 := s.setCtx x { r with launches := drop l r.launches }
  let s2 := ids.foldl (fun q c => q.modCore c fun k =>
    { k with lslot := 16, group := none, barmember := 0, chan := 0, ring := Ring.reset }) s1
  (clustersOf ids).foldl (fun q n =>
    let cl := q.cluster n
    let held := (clusterCores n).any fun c => match q.launchOf (q.core c) with
      | none => false
      | some m => (q.core c).ctx == some x && m.record.kernel == kernel
    if held then q
    else q.setCluster n { cl with macros := cl.macros.filter fun m => !(m.ctx == x && m.kernel == kernel) }) s2

/-- What became of an addition to an event counter (18 R403, R404): made, waiting for its page, or not possible. -/
inductive Counted where
  | added (s : State)
  | stall (page : Nat) (st : PageState)
  | failed (s : State)
  deriving DecidableEq, Repr

/-- Adds to the event counter at an address of a context, by an agent with a partition tag: one atomic at the counter's home, in every
copy of it, whose parcel is verified before (11 R265, R267, R270; 18 R404). -/
def countUp (s : State) (x tag a amt : Nat) : Counted :=
  match translate s x tag a .atomic with
  | .stall page st => .stall page st
  | .unmapped _ _ bad => .failed (s.tableError bad)
  | .denied _ _ => .failed s
  | .spoilt p => .failed (s.clearMarks p 8)
  | .ok pa e =>
    let repl := leafState e == some .replicated
    let s1 := if repl then s.landOver pa 8 else s
    if !copiesGood s1 pa e 8 then .failed (s1.clearCopies pa e 8)
    else
      let bs := leBytes (leNat (readBytes s1.hbm pa 8) + amt) 8
      .added (if repl then s1.writeCopies pa bs else s1.writePhys pa bs)

/-- Adds a launch's SIGEV to its counter, or marks the queue that held the record (18 R404). DEDUCED (log 98): a counter whose parcel
fails its check sets SIGERR too, as the signal could not be performed (R400). -/
def State.signalEnd (s : State) (x : Nat) (q : Launch) : Counted :=
  if q.record.sigAddr = 0 then .added s
  else match countUp s x (s.ctx x).tag q.record.sigAddr q.record.sigAmt with
    | .failed s1 =>
      .added (match q.origin.map (fun o => (o.1, o.2.1)) |>.or q.report with
        | none => s1
        | some (f, n) => s1.setQueue f n { s1.queue f n with sigErr := true })
    | r => r

/-- What the end of a launch leaves of its context: READY after its last launch, where a stop that was asked for, of the context and of
its cores, meets nothing any more (19 R412; log 85). -/
def State.afterLaunch (s : State) (x : Nat) : State :=
  let c := s.ctx x
  if !c.launches.isEmpty then s
  else
    ({ s with cores := s.cores.map fun p => if p.2.ctx == some x then (p.1, { p.2 with haltReq := .none }) else p } : State).setCtx x
      { c with st := .ready, pending := false, deferred := false, forced := false, repend := false, haltKind := .none }

/-- LAUNCH_END of launch `l` of context `x` (17 R379): reported, signalled, unbound, once its writes have reached every copy (16
R365; 18 R404); a report whose page is on demand is waited for (18 R401). -/
def execLaunchEnd (x l : Nat) (s : State) : Host.Outcome State Fault Refusal :=
  match s.launch x l with
  | none => .next s
  | some q =>
    if q.st ≠ .running || (s.ctx x).st ≠ .running || !launchDone s x l || !s.late.isEmpty then .next s
    else match reportWaits s q.origin with
    | some k => .next k
    | none => match (s.report q.origin 2 0 l).signalEnd x q with
      | .stall page st => .next (s.requestPage x page st)
      | .failed _ => .next s
      | .added s1 => .next (((s1.unbind x l).counterRaised x q.record.sigAddr).afterLaunch x)

end Sys2Proof.Machine
end

