-- ==== Sys2Proof/Machine/Turn.lean ====
section
/-!
DEFINITION. Whose turn it is: the core that issues next in the cycle, and the instruction it issues (05 R103, R122,
R125).
-/

namespace Sys2Proof.Machine

/-- What a step runs: an instruction in a state, a fetch that brings no word, or nothing more than a state reached. -/
inductive Turn where
  | run (i : Instr) (s : State)
  | fetch (c : Nat) (s : State)
  | settled (s : State)
  deriving DecidableEq, Repr

/-- Whether a core asked to stop stops where it stands (19 R413, R414): at an instruction boundary or inside a wait,
and, for a stop at a superstep boundary, only outside a group. -/
def Core.stopsHere (c : Core) : Bool :=
  match c.haltReq with
  | .none => false
  | .boundary => c.group.isNone && c.whole
  | _ => c.whole

/-- Whether a core issues now. -/
def Core.issuable (c : Core) (now : Nat) : Bool := c.mayIssue now && !c.stopsHere

/-- The first core that issues in this cycle and has not yet done so. -/
def nextCore (s : State) : Option Nat := (s.cores.find? fun p => p.2.issuable s.now).map Prod.fst

/-- The instruction a scalar frame replays next, with its modifier (05 R122). -/
def replayed (f : Frame) : Option (Option Modifier × Instr) :=
  f.captured[f.pos]?.map fun k =>
    (k.md, shiftRegs (BitVec.ofNat 5 (f.pass * f.sd)) (BitVec.ofNat 5 (f.pass * f.sa)) (BitVec.ofNat 5 (f.pass * f.sb))
      k.instr)

/-- The instruction a core issues: one it waits in, an operation of a macro, a replay of a frame, or the word at its
pc, fetched and decoded. -/
def turnOf (s0 : State) (id : Nat) : Turn :=
  let s := { s0 with cur := id }
  let c := s.core id
  match c.held with
  | some i => .run i s
  | none =>
    match c.ops with
    | (md, i) :: _ => .run i (s.setCore id { c with md := md, mdAt := c.pc })
    | [] =>
      match (if c.replaying then c.frame.bind replayed else none) with
      | some (md, i) => .run i (s.setCore id { c with md := md, mdAt := c.pc })
      | none =>
        match fetchAt s id c.pc with
        | .word w =>
          match decodeWord w with
          | .ok i => .run i s
          | .error e =>
            .settled (if (fmajor w).toNat = 0x3E then s.badModifier id w e.code
              else s.leaderTrap id (illegalTrap w c.mdWord (if c.capturing && !arithWord w then min e.code 6 else e.code))
                (c.pc + 4))
        | _ => .fetch id s

end Sys2Proof.Machine
end

