-- ==== Sys2Proof/Machine/Boundary.lean ====
section
/-!
DEFINITION. What reaches a core from outside its instructions: traps taken at an instruction boundary, fetches that bring no
word, tree records, retention of the local memory (05 R103, R130; 06 R146; 08 R196, R214 to R216; 10 R260; 19 R417; 20
R441).
-/

namespace Sys2Proof.Machine

/-! ### Traps at a boundary -/

/-- The trap a core takes at its next instruction boundary: an uncorrectable error that a vector load met (06 R146); outside
its handler, an aborted collective (20 R441) or a SIGNAL (19 R417). DESIGN CHOICE, unsafe: the spec gives no order for several
that are due at once; the data error goes first, then the abort, then the signal (log 77). -/
def Core.pendingTrap (c : Core) : Option Trap :=
  match c.dataErr with
  | some (a, at') => some (mkTrap trDATA a at'.toNat 0 0)
  | none =>
    if c.handler then none
    else match c.abort with
      | some (w, e, r) => some (mkTrap trABORT w e r 0)
      | none => c.signal.map fun k => mkTrap trHALTED k.toNat (c.ctx.getD 0) 0 0

/-- The core with the record of its pending trap spent. -/
def Core.spent (c : Core) : Core :=
  if c.dataErr.isSome then { c with dataErr := none }
  else if c.abort.isSome then { c with abort := none }
  else { c with signal := none }

/-- The trap that core `id` can take now with the address TPC gets: its own boundary, which in a gang is its leader's (05
R103; 06 R172). -/
def boundaryNow (s : State) (id : Nat) : Option (Trap × Word) :=
  let c := s.core id
  let l := s.core ((gangCores s id).headD id)
  if c.status == .running && l.atBoundary && c.wait == .none && c.fatal.isNone then c.pendingTrap.map fun t => (t, l.pc) else none

/-- TRAP_ENTRY in core `c` (05 R130): a trap that stops the core stops it once it has waited; else the pending trap with this
record is taken at the boundary. -/
def execTrapEntry (c : Nat) (cause : BitVec 8) (tpc t0 t1 t2 t3 : Word) (s : State) : Host.Outcome State Fault Refusal :=
  let t : Trap := { cause := cause, t0 := t0, t1 := t1, t2 := t2, t3 := t3 }
  let k := s.core c
  if k.fatal = some (t, tpc) then .next (if k.status == .running && k.mayEnd then s.endTrap c t tpc else s)
  else if boundaryNow s c = some (t, tpc) then .next ((s.modCore c Core.spent).boundaryTrap c t)
  else .next s

/-! ### Fetches and tree records -/

/-- INSTRUCTION_FETCH of core `c` (10 R249, R260): a fetch that brings no word. One that brings a word is part of the
instruction's issue. -/
def execInstructionFetch (c : Nat) (s : State) : Host.Outcome State Fault Refusal :=
  if (s.core c).issuable s.now then
    match turnOf s c with
    | .fetch id q => .next (q.fetchFails id (q.core id).pc)
    | _ => .next s
  else .next s

/-- TREE_RECORD_FILL: the record of tree `h` of context `x` reaches the cache of cluster `k` (08 R196). -/
def execTreeRecordFill (k x h : Nat) (s : State) : Host.Outcome State Fault Refusal :=
  let cl := s.cluster k
  .next (if cl.fills.contains (x, h) then
      s.setCluster k { cl with fills := cl.fills.filter (· != (x, h)), cached := cl.cached ++ [(x, h)] }
    else s)

/-! ### Retention (08 R214 to R216) -/

/-- Whether an exchange transfer is under way into core `c`. -/
def transferring (s : State) (c : Nat) : Bool :=
  s.cores.any fun p => p.2.transfers.any fun t => memberCore s (p.2.ctx.getD 0) t.receiver == some c

/-- Whether a core may enter retention: it holds no continuation, its engines are at rest, and no delivery into it is
pending (08 R214). -/
def mayRetain (s : State) (c : Nat) : Bool :=
  let k := s.core c
  k.status == .idle && k.retention == .awake && !k.busy && k.rehashAt.isNone && decide (k.zeroUntil ≤ s.now) &&
    !(k.channels.any fun p => p.2.active) && !delivering s c && !transferring s c

/-- RETENTION_ENTRY of core `c` (08 R214): the entry takes 2,048 cycles. -/
def execRetentionEntry (c : Nat) (s : State) : Host.Outcome State Fault Refusal :=
  .next (if mayRetain s c then s.modCore c fun k => { k with retention := .entering (s.now + 2048) } else s)

/-- RETENTION_ENTRY_COMPLETE of core `c` (08 R214). -/
def execRetentionEntryComplete (c : Nat) (s : State) : Host.Outcome State Fault Refusal :=
  .next (s.modCore c fun k => match k.retention with
    | .entering t => if t ≤ s.now then { k with retention := .retained } else k
    | _ => k)

/-- RETENTION_EXIT of core `c` (08 R215): the exit takes 2,048 cycles. -/
def execRetentionExit (c : Nat) (s : State) : Host.Outcome State Fault Refusal := .next (s.modCore c fun k => k.rouse s.now)

/-- RETENTION_EXIT_COMPLETE of core `c` (08 R216). -/
def execRetentionExitComplete (c : Nat) (s : State) : Host.Outcome State Fault Refusal :=
  .next (s.modCore c fun k => match k.retention with
    | .exiting t => if t ≤ s.now then { k with retention := .awake } else k
    | _ => k)

end Sys2Proof.Machine
end

