-- ==== Sys2Proof/Machine/Mailbox.lean ====
section
/-!
DEFINITION. The command mailbox of a function: who may give which command, its results and errors (19 R409 to R411).
-/

namespace Sys2Proof.Machine

/-- What a command does: it completes in a state with results, each with the number of its argument word; it takes an error
and changes nothing, or posts what it met; or it goes on, and completes later. -/
inductive Reply where
  | ok (s : State) (results : List (Nat × Word))
  | err (n : Nat)
  | refused (s : State) (n : Nat)
  | begun (s : State)
  deriving DecidableEq, Repr

/-- An argument word written; words beyond MBARG31 do not exist. -/
def setArg (a : Vector Word 32) (i : Nat) (w : Word) : Vector Word 32 := if h : i < 32 then a.set i w else a

/-- The command of function `f` completes with an error code and results, and MSI-X vector 0 signals DONE (19 R410; 20 R430). -/
def State.finish (s : State) (f err : Nat) (results : List (Nat × Word)) : State :=
  let r := s.func f
  s.setFunc f { r with busy := false, done := true, err := err, vec0 := r.vec0 + 1,
                       args := results.foldl (fun a p => setArg a p.1 p.2) r.args }

/-- Whether the host ports are closed to a function: after a boot that refused its image, to all but the admin function (21 R450). -/
def closedTo (s : State) (f : Nat) : Bool := s.refused && f != adminFunc

/-- A command of function `f`: ignored while another executes, while the function is being reset and while the ports are closed to it
(19 R410; 20 R442; 21 R450). -/
def State.command (s : State) (f : Nat) (k : Unit → Reply) : State :=
  let r := s.func f
  if 512 < f || r.busy || r.resetting || closedTo s f then s
  else match k () with
    | .ok q results => q.finish f 0 results
    | .err n => s.finish f n []
    | .refused q n => q.finish f n []
    | .begun q => q.setFunc f { q.func f with busy := true, done := false, err := 0 }

/-- A command on context `x`, allowed in some states (19 R411): ERR 2 for a number that names no context, 4 for another
function's, 3 in any other state. -/
def State.ctxCommand (s : State) (f x : Nat) (allowed : CtxState → Bool) (k : Context → Reply) : State :=
  s.command f fun _ =>
    let r := s.ctx x
    if 4096 ≤ x then .err 2
    else if r.st = .free then .err 3
    else if r.func ≠ f then .err 4
    else if !allowed r.st then .err 3
    else k r

/-- READY, RUNNING and PREEMPTED. -/
def mappingStates (c : CtxState) : Bool := c == .ready || c == .running || c == .preempted

/-- A 64-bit result in two words. -/
def twoWords (i n : Nat) : List (Nat × Word) := [(i, BitVec.ofNat 32 n), (i + 1, BitVec.ofNat 32 (n / 2 ^ 32))]

/-- Whether a code names a command (19 R411). -/
def commandCode (c : BitVec 8) : Bool := (1 ≤ c.toNat && c.toNat ≤ 0x12) || (0x20 ≤ c.toNat && c.toNat ≤ 0x22)

/-- MBCMD_UNKNOWN_CODE of function `f` (19 R410). -/
def execMbcmdUnknownCode (f : Nat) (code : BitVec 8) (s : State) : Host.Outcome State Fault Refusal :=
  .next (if commandCode code then s else s.command f fun _ => .err 1)

end Sys2Proof.Machine
end

