-- ==== Sys2Proof/Machine/Queues.lean ====
section
/-!
DEFINITION. Host queues, doorbells, arbitration and time slices (18 R398 to R408; 19 R411, R415).
-/

namespace Sys2Proof.Machine

/-! ### Stopping requests (18 R405; 19 R412, R414, R416; 20 R440) -/

/-- Whether a core still has to halt for its context: it holds a continuation, or one has left it waiting. -/
def Core.active (c : Core) : Bool := c.status == .running

/-- Asks the running cores of a context to halt; each event latch is set, so that a core in WFE reaches its boundary (05
R134). -/
def State.askHalt (s : State) (x : Nat) (h : HaltReq) : State :=
  { s with cores := s.cores.map fun p => if p.2.ctx == some x then (p.1, { p.2 with haltReq := h, latch := true }) else p }

/-- Whether a collective of a context is open (20 R440). -/
def collectiveOpen (s : State) (x : Nat) : Bool :=
  (s.func (s.ctx x).func).windows.any fun p => p.2.en && p.2.kind && p.2.isOpen && p.2.lctx == x

/-- Starts the watchdog of window `w` of function `f`, where its collective is open and it has not started (20 R440). -/
def State.watch (s : State) (f w : Nat) (d : Window) : State :=
  let e := look Epoch.reset (windowKey f w) s.epochs
  if d.en && d.kind && d.isOpen && e.watchAt.isNone then
    { s with epochs := put (windowKey f w) { e with watchAt := some s.time } s.epochs }
  else s

/-- Starts the watchdogs of a context's open collectives that have not started (20 R440). -/
def State.startWatch (s : State) (x : Nat) : State :=
  let f := (s.ctx x).func
  (s.func f).windows.foldl (fun k p => if p.2.lctx == x then k.watch f p.1 p.2 else k) s

/-- A pre-emption of a RUNNING context (19 R411, R414): dropped while a halt is in progress, deferred while a collective of
the context is open (20 R440). -/
def State.preemptCtx (s : State) (x : Nat) (why : Paused) : State :=
  let c := s.ctx x
  if c.st ≠ .running || c.haltKind ≠ .none || c.pending then s
  else if collectiveOpen s x then
    (s.setCtx x { c with pending := true, deferred := true, paused := why }).startWatch x
  else (s.setCtx x { c with pending := true, deferred := false, pendingAt := s.time, paused := why }).askHalt x .boundary

/-! ### The rotation of functions (18 R405) -/

/-- The rotation of a partition. -/
def rotationOf (s : State) (tag : Nat) : List Nat := look [] tag s.rotations

/-- Whether a function is active in its partition. -/
def activeFunc (s : State) (f : Nat) : Bool := (rotationOf s (s.func f).tag).head? == some f

/-- The contexts of a function that are not FREE. -/
def ctxsOf (s : State) (f : Nat) : List Nat := (s.contexts.filter fun p => p.2.func == f && p.2.st != .free).map Prod.fst

/-- The function at the front begins its slice: what the last pre-emption took beyond its end is deducted, but never below
0.25 ms; contexts that the end of a slice stopped come back (18 R405). -/
def State.beginSlice (s : State) (tag : Nat) : State :=
  match (rotationOf s tag).head? with
  | none => { s with sliceEnd := drop tag s.sliceEnd }
  | some f =>
    let r := s.func f
    let slice := max (timeOf 250) (timeOf r.sliceUs - r.owed)
    let back (k : State) (x : Nat) : State :=
      let c := k.ctx x
      if c.st = .preempted && c.paused = .slice && !c.suspended then k.setCtx x { c with resuming := true } else k
    (ctxsOf s f).foldl back
      { s.setFunc f { r with owed := 0 } with sliceEnd := put tag (s.time + slice) s.sliceEnd }

/-- A function that holds its first context joins the rotation of its partition (18 R405); where it ends a function's being
alone, that function's slice starts afresh. -/
def State.joinFunctions (s : State) (f : Nat) : State :=
  let tag := (s.func f).tag
  let r := rotationOf s tag
  if r.contains f then s
  else
    let s1 : State := { s with rotations := put tag (r ++ [f]) s.rotations }
    if r.length ≤ 1 then s1.beginSlice tag else s1

/-- A function that holds no context any more leaves the rotation. -/
def State.leaveFunctions (s : State) (f : Nat) : State :=
  let tag := (s.func f).tag
  let r := rotationOf s tag
  if !(ctxsOf s f).isEmpty || !r.contains f then s
  else
    let s1 : State := { s with rotations := put tag (r.filter (· != f)) s.rotations }
    if r.head? = some f then s1.beginSlice tag else s1

/-- Whether the contexts of a function hold no running launch and no READY queue (18 R405). -/
def idleFunc (s : State) (f : Nat) : Bool :=
  (ctxsOf s f).all fun x =>
    !hasReady s x && (s.ctx x).launches.all fun p => p.2.st != .running && p.2.st != .loading

/-- Whether the slice of the front function has ended: expired, or given up at once as it has no work (18 R405). A function alone in
its rotation keeps it. -/
def sliceOver (s : State) (tag : Nat) : Bool :=
  match rotationOf s tag with
  | f :: _ :: _ => decide (look 0 tag s.sliceEnd ≤ s.time) || idleFunc s f
  | _ => false

/-- SLICE_EXPIRY in a partition (18 R405): the running contexts of the active function are pre-empted; once none runs, the
next function's slice begins. -/
def execSliceExpiry (tag : Nat) (s : State) : Host.Outcome State Fault Refusal :=
  if !sliceOver s tag then .next s
  else match rotationOf s tag with
    | [] => .next s
    | f :: rest =>
      let running := (ctxsOf s f).filter fun x => (s.ctx x).st == .running
      if !running.isEmpty then .next (running.foldl (fun k x => k.preemptCtx x .slice) s)
      else
        let s1 := s.setFunc f { s.func f with owed := s.time - look 0 tag s.sliceEnd }
        .next (({ s1 with rotations := put tag (rest ++ [f]) s1.rotations } : State).beginSlice tag)

/-! ### Doorbells and counters (18 R400, R402, R403) -/

/-- Whether a queue takes doorbells: it exists and is enabled. -/
def HQueue.enabled (q : HQueue) : Bool := q.st != .absent && q.st != .disabled

/-- DOORBELL of queue `q` of function `f` (18 R400, R402, R403). -/
def execDoorbell (f q : Nat) (tail : Word) (s : State) : Host.Outcome State Fault Refusal :=
  let r := s.queue f q
  if (s.func f).resetting || closedTo s f || 1024 ≤ q || !r.enabled then .next s
  else if 2 ^ r.log2n < (tail - r.head).toNat then .next (s.setQueue f q { r with st := .error, err := 1 })
  else
    let s1 := s.setQueue f q { r with tail := tail }
    .next (match r.st with
      | .error => s1
      | .ready => if tail = r.head then s1.evalHead f q true else s1
      | _ => s1.evalHead f q false)

/-- EVENT_COUNTER_POLL of queue `q` of function `f` (18 R403). -/
def execEventCounterPoll (f q : Nat) (s : State) : Host.Outcome State Fault Refusal :=
  let r := s.queue f q
  .next (if r.st = .waiting && r.pollAt ≤ s.time then s.evalHead f q false else s)

/-! ### Taking a record (18 R399, R406, R407) -/

/-- Whether a context may have a record taken: it admits launches, has a READY queue and a free launch slot (18 R407; 19
R412). -/
def mayTake (s : State) (x : Nat) : Bool :=
  ((s.ctx x).st == .ready || (s.ctx x).st == .running) && hasReady s x && (freeSlot s x).isSome

/-- The context of the smallest pass, the lower number first (18 R407). -/
def leastCtx (s : State) (xs : List Nat) : Option Nat :=
  xs.foldl (fun m x => match m with
    | none => some x
    | some y => if (s.ctx x).pass < (s.ctx y).pass then some x else some y) none

/-- The first number after `last` in cyclic order. -/
def nextCyclic (last : Nat) (ns : List Nat) : Option Nat := (ns.find? fun n => decide (last < n)).or ns.head?

/-- The queue of a context that is chosen: the highest PRIO, then cyclic order (18 R407). -/
def chosenQueue (s : State) (x : Nat) : Option (Nat × HQueue) :=
  let ready := (queuesOf s x).filter fun p => p.2.st == .ready
  let top := ready.foldl (fun n p => max n p.2.prio) 0
  let same := ready.filter fun p => p.2.prio == top
  (nextCyclic (look 1023 top (s.ctx x).lastQ) (same.map Prod.fst)).bind fun n => same.find? fun p => p.1 == n

/-- The head of a queue taken: HEAD, the pass, the queue last chosen, and the next head read (18 R399, R402, R407). -/
def State.takeHead (s : State) (f x q : Nat) : State :=
  let r := s.queue f q
  let c := s.ctx x
  ((s.setCtx x { c with pass := (c.pass + 1048576 / max 1 c.weight) % 2 ^ 64, lastQ := put r.prio q c.lastQ }).setQueue f q
    { r with head := r.head + 1 }).evalHead f q true

/-- Admits a record taken from a queue, or reports its rejection (17 R378; 18 R401). -/
def State.enqueueLaunch (s : State) (f x q n : Nat) (r : LaunchRec) : State :=
  match admission s x r, freeSlot s x with
  | .ok patch gs, some l => s.place x l r patch gs (some (f, q, n)) none
  | .reject reason, _ => (s.patchErrors x r reason).report (some (f, q, n)) 3 reason 0xFFFF
  | _, _ => s.report (some (f, q, n)) 3 9 0xFFFF

/-- Takes the head of queue `q`; a record whose page, or whose patch table's page, is on demand is taken when it has come, one in host
memory when its link does not retrain. -/
def State.takeFrom (s : State) (f x q : Nat) : State :=
  let r := s.queue f q
  if ringHeld s f r then s
  else match headBytes s f r with
  | .none => s.headFails f q
  | .stall page st => s.requestPage x page st
  | .bytes bs =>
    let rec' := decodeRecord bs
    match admission s x rec' with
    | .stall k => k
    | _ => (s.takeHead f x q).enqueueLaunch f x q r.head.toNat rec'

/-- Whether launches are admitted: in service mode, and not above 105 °C (16 R365; 21 R452). -/
def admits (s : State) : Bool := s.mode == .service && !s.overTemp

/-- QUEUE_TAKE in a partition (18 R407): from the active function, while its slice lasts. -/
def execQueueTake (tag : Nat) (s : State) : Host.Outcome State Fault Refusal :=
  match (rotationOf s tag).head? with
  | none => .next s
  | some f =>
    if !admits s || sliceOver s tag || (s.func f).resetting then .next s
    else match leastCtx s ((ctxsOf s f).filter (mayTake s)) with
      | none => .next s
      | some x =>
        match chosenQueue s x with
        | none => .next s
        | some (q, _) => .next (s.takeFrom f x q)

/-! ### Queue commands (18 R398, R402; 19 R411) -/

/-- QUEUE (18 R398, R402; 19 R411). -/
def execQueue (f x ringBase repBase : Nat) (hostMem : Bool) (prio log2n : Nat) (s : State) :
    Host.Outcome State Fault Refusal :=
  .next (s.ctxCommand f x mappingStates fun _ =>
    if 7 < prio || log2n < 4 || 16 < log2n || ringBase % 4096 ≠ 0 || repBase % 4096 ≠ 0 || 2 ^ 64 ≤ ringBase || 2 ^ 64 ≤ repBase
    then .err 2
    else match (List.range 1024).find? fun q => (s.queue f q).st == .absent with
      | none => .err 5
      | some q =>
        .ok (s.setQueue f q { HQueue.reset with ctx := x, repBase := repBase, ringBase := ringBase, hostMem := hostMem,
                                                prio := prio, log2n := log2n, st := .empty })
          [(1, BitVec.ofNat 32 q)])

/-- A QCTL command on a queue of a context (19 R411). -/
def State.qctl (s : State) (f x q : Nat) (k : HQueue → HQueue) : State :=
  s.ctxCommand f x (fun st => st != .terminated) fun _ =>
    let r := s.queue f q
    if 1024 ≤ q || r.st = .absent || r.ctx ≠ x then .err 2 else .ok (s.setQueue f q (k r)) []

/-- QCTL op 0 (18 R402): records not yet taken are dropped. -/
def execQctlDisable (f x q : Nat) (s : State) : Host.Outcome State Fault Refusal :=
  .next (s.qctl f x q fun r => { r with st := .disabled })

/-- QCTL op 1 (18 R402). -/
def execQctlEnable (f x q : Nat) (s : State) : Host.Outcome State Fault Refusal :=
  .next (s.qctl f x q fun r =>
    if r.st = .disabled then { r with st := .empty, head := 0, tail := 0, sigErr := false, err := 0, childRej := 0 } else r)

/-- QCTL op 2 (18 R402). -/
def execQctlReset (f x q : Nat) (s : State) : Host.Outcome State Fault Refusal :=
  .next (s.qctl f x q fun r => if r.st = .error then { r with st := .empty, head := r.tail, err := 0 } else r)

/-- QSTAT (18 R400). -/
def qstatWord (q : HQueue) : Word :=
  let st : BitVec 3 := match q.st with
    | .absent => 0
    | .disabled => 0
    | .empty => 1
    | .waiting => 2
    | .ready => 3
    | .error => 4
  st ++ BitVec.ofBool q.sigErr ++ BitVec.ofNat 4 q.err ++ BitVec.ofNat 8 q.childRej ++ q.head.extractLsb' 0 16

end Sys2Proof.Machine
end

