-- ==== Sys2Proof/Machine/Halting.lean ====
section
/-!
DEFINITION. How a context stops and comes back: halting cores, pre-emption, HALT, the save area, RESUME, and the abort of a
collective (13 R302, R311; 14 R337; 19 R411 to R419; 20 R440, R441).
-/

namespace Sys2Proof.Machine

/-! ### Where a core halts (07 R178, R183; 12 R287; 13 R311; 19 R413, R414, R416, R419) -/

/-- Whether a member of a group waits in XSYNC for a release that is withheld (13 R302, R311). -/
def waitsHeld (s : State) (c : Core) : Bool :=
  c.wait == .arrived && (match c.held with
    | some (.xsync _) => true
    | _ => false) && match s.groupOf c with
    | none => false
    | some g => g.st == .held

/-- Whether the place where a core stands is one where the stop asked of it takes hold. -/
def stopPlace (s : State) (id : Nat) : Bool :=
  let c := s.core id
  match c.haltReq with
  | .none => false
  | .boundary => if c.group.isNone then c.whole else waitsHeld s c
  | _ => c.whole

/-- Whether a core stops now, with its gang. -/
def stopping (s : State) (id : Nat) : Bool := (gangCores s id).all (stopPlace s)

/-- Whether everything that a halt waits for has settled (19 R413): the vector queue, a feeding frame, the joint and sparse
operations, atomics, tickets, transfers of the open slot, messages sent, results that have not landed, a bank move. -/
def drained (s : State) (id : Nat) : Bool :=
  let c := s.core id
  c.vq.isEmpty && c.vfly.isEmpty && c.replay.isEmpty && !c.feeds && c.slice.st != .rotating && c.slice.st != .draining &&
    c.sparse.isNone && (c.atoms.all fun a => a.applied && a.returned) && (c.tickets.all fun p => p.2.todo.isEmpty) &&
    (c.transfers.all fun t => t.nextAt.isNone) && !appending s id && c.pend.isEmpty && c.rehashAt.isNone && c.fatal.isNone

/-- The lanes on which an entry of a core stands in its settle slots (14 R329, R337). -/
def settlingLanes (s : State) (id : Nat) : List Nat := (List.range 32).filter fun n => inSettle s (s.lane n) id

/-- The entries of a core in their settle slots marked as halted there. -/
def State.markSettling (s : State) (id : Nat) : State :=
  (settlingLanes s id).foldl (fun k n => k.setLane n ((k.lane n).withdrawn k.now id true .halted)) s

/-- The core as it halts; one that a debug stop or a fault has stopped stays so (19 R418, R419). GISSUE withdraws its arrival and
stands before it; FQUIET is no longer quiet; YIELD makes its record anew; every other wait stands, and is entered again (07 R178; 17
R390; 19 R413). CYCLE stands still. -/
def Core.halt (c : Core) (now : Nat) : Core :=
  let st := match c.status with
    | .debugStopped => CoreStatus.debugHalted
    | .stopped => .stopped
    | _ => .halted
  let d := { c with status := st, haltReq := if c.status = .stopped then .none else c.haltReq, cycleAdd := c.cycleAdd + (now - c.cycle0), cycle0 := now, fetchVa := none }
  match c.wait with
  | .joint _ => { d.unjoin with wait := .none, held := none }
  | .quiet => { d with quiet := false, wait := .stall }
  | .yielding _ => { d with wait := .stall }
  | _ => d

/-- A core in the rendezvous of the joint array leaves it: the rendezvous is no longer complete (07 R178). -/
def State.leaveJoint (s : State) (id : Nat) : State :=
  match (s.core id).wait with
  | .joint _ => s.setCluster (clusterOf id) { s.cluster (clusterOf id) with jointAt := none }
  | _ => s

/-- Whether a stop asked of a core takes hold where it stands: a core that has stopped by itself stands still already, and for a
pre-emption at boundaries a debug-stopped one does not count as halted (19 R415, R418, R419). -/
def askedNow (s : State) (id : Nat) : Bool :=
  let c := s.core id
  match c.status with
  | .running => c.haltReq != .none && stopping s id
  | .debugStopped => c.haltReq != .none && c.haltReq != .boundary
  | .stopped => c.haltReq != .none
  | _ => false

/-- Halts a core that stops here and has settled, or lets it settle further (14 R337; 19 R413). -/
def State.tryHalt (s : State) (id : Nat) : State :=
  if !askedNow s id || !drained s id then s
  else if !(settlingLanes s id).isEmpty then s.markSettling id
  else ((s.haltEntries id).leaveJoint id).modCore id fun k => k.halt s.now

/-- Every core that is asked to stop, tried in turn. -/
def State.haltCores (s : State) : State :=
  (s.cores.map Prod.fst).foldl (fun k id => k.tryHalt id) s

/-- Whether a core counts as halted: all that its halt waits for has settled (19 R413, R415, R418, R419). -/
def Core.rests (c : Core) : Bool :=
  match c.status with
  | .running | .debugStopped => false
  | .stopped => c.haltReq == .none
  | _ => true

/-- Whether every core of a context has halted, no group of it is RELEASING, and no transfer moves (12 R287; 13 R311). -/
def allRest (s : State) (x : Nat) : Bool :=
  ((coresOf s x).all fun c => (s.core c).rests) &&
    (s.ctx x).launches.all fun p => p.2.groups.all fun g => g.st != .releasing

/-- Whether no local memory of a context is in retention: the executive reads them for its save area and for images (08 R215). -/
def memoriesAwake (s : State) (x : Nat) : Bool := (coresOf s x).all fun c => (s.core c).retention == .awake

/-- The executive's read of the local memories of a context: those in retention leave it (08 R215). -/
def State.rouseCores (s : State) (x : Nat) : State := (coresOf s x).foldl (fun q c => q.modCore c fun k => k.rouse s.now) s

/-! ### The save area (19 R412) -/

/-- A core that its context has given up: what time keeps stays, the rest is zeroed before its next owner reads it (21 R448,
see Core.loaded). -/
def Core.vacant (c : Core) : Core :=
  { Core.reset with retention := c.retention, divFree := c.divFree, pass := c.pass, serial := c.serial, aseq := c.aseq,
                    zeroUntil := c.zeroUntil, fetchVa := none }

/-- A cluster whose cores a context gives up, without its macro sets and its joint operation; its combs stay until the cluster passes
to another context (15 R343, R344). -/
def State.clearCluster (s : State) (x k : Nat) : State :=
  let cl := s.cluster k
  s.setCluster k { cl with macros := cl.macros.filter fun m => m.ctx != x,
                            jointAt := none,
                            joint := if (clusterCores k).any fun c => (s.core c).ctx == some x then none else cl.joint }

/-- Releases every core of a context. -/
def State.vacate (s : State) (x : Nat) : State :=
  let ids := coresOf s x
  let s1 := ids.foldl (fun k c => k.modCore c Core.vacant) s
  (clustersOf ids).foldl (fun k n => k.clearCluster x n) s1

/-- The records of a context's cores by logical number, asked for nothing any more. -/
def savedCores (s : State) (x : Nat) : Table Core :=
  (coresOf s x).foldl (fun t c => put (s.core c).lcore { s.core c with haltReq := .none } t) []

/-- Page requests withdrawn at a halt: their pages are on demand again (10 R249; 19 R413). -/
def State.withdrawRequests (s : State) (x : Nat) : State :=
  let mine := s.requests.filter fun r => r.ctx == x
  mine.foldl (fun k r => k.editLeaf x r.va fun e => setBit e 8 0)
    { s with requests := s.requests.filter (fun r => r.ctx != x), waiting := s.waiting.filter (fun r => r.ctx != x) }

/-- The launches of a context with the clocks of their exchanges frozen (13 R302, R311). -/
def frozenLaunches (ls : Table Launch) : Table Launch :=
  ls.map fun p => (p.1, { p.2 with groups := p.2.groups.map fun g => if g.st = .exchange then { g with frozen := true } else g })

/-- The state of a context moved to the executive's save area, its cores released (19 R412). -/
def State.stow (s : State) (x : Nat) (st : CtxState) : State :=
  let saved := savedCores s x
  let s1 := (s.withdrawRequests x).vacate x
  let c := s1.ctx x
  s1.setCtx x { c with st := st, saveArea := saved, launches := frozenLaunches c.launches, pending := false,
                       deferred := false, resuming := false }

/-! ### Pre-emption (19 R414, R415; 20 R440) -/

/-- PREEMPT (19 R411, R414). -/
def execPreempt (f x : Nat) (s : State) : Host.Outcome State Fault Refusal :=
  .next (s.ctxCommand f x (fun st => st == .running) fun c =>
    if c.haltKind ≠ .none then .err 3
    else if c.pending then .ok (s.setCtx x { c with paused := .host }) []
    else .ok (s.preemptCtx x .host) [])

/-- What was deferred while a collective was open proceeds (20 R440, R441). -/
def State.proceed (s : State) (x : Nat) : State :=
  let c := s.ctx x
  if !c.deferred || collectiveOpen s x || c.st ≠ .running then s
  else if c.haltKind = .save then (s.setCtx x { c with deferred := false }).askHalt x .halt
  else (s.setCtx x { c with deferred := false, pendingAt := s.time }).askHalt x .boundary

/-- The boundary wait of a context in units of time (19 R415, R422). -/
def boundaryWait (s : State) (x : Nat) : Nat := timeOf (1000 * (s.func (s.ctx x).func).waitMs)

/-- BOUNDARY_WAIT_EXPIRY of context `x` (19 R415): every core that has not halted is halted at an instruction boundary, and an idle one
picks up nothing more. -/
def execBoundaryWaitExpiry (x : Nat) (s : State) : Host.Outcome State Fault Refusal :=
  let c := s.ctx x
  if c.st ≠ .running || !c.stopping || c.forced || s.time < c.pendingAt + boundaryWait s x || allRest s x then .next s
  else
    let ask (p : Nat × Core) : Nat × Core :=
      if p.2.ctx != some x then p
      else if p.2.status == .running || p.2.status == .debugStopped then (p.1, { p.2 with haltReq := .forced, latch := true })
      else if p.2.status == .idle then (p.1, { p.2 with haltReq := .halt })
      else p
    .next { s.setCtx x { c with forced := true } with cores := s.cores.map ask }

/-- The cores that were forced, by logical number. -/
def forcedCores (s : State) (x : Nat) : Table Core :=
  ((coresOf s x).filter fun c => (s.core c).haltReq == .forced).foldl (fun t c => put (s.core c).lcore (s.core c) t) []

/-- The notification of a forced pre-emption (19 R415). -/
def State.noteForced (s : State) (x waitMs : Nat) (fc : Table Core) : State :=
  match fc with
  | [] => s
  | (n, c) :: _ =>
    s.notify (s.ctx x).func 3 x (BitVec.ofNat 32 n) 0 c.pc (BitVec.ofNat 32 fc.length) (BitVec.ofNat 32 waitMs) 0

/-- Whether a core table of a context names a physical core (19 R421): the default mapping names every core of the
partition. -/
def tableNames (s : State) (x c : Nat) : Bool :=
  tagOf s c == (s.ctx x).tag && match (s.ctx x).table with
    | none => true
    | some t => t.any fun p => grantedCore s x p.1 == some c

/-- Whether a change of partitions that waits takes a core from a context (19 R421). -/
def losesCore (s : State) (x : Nat) : Bool :=
  s.pendTags.any fun p => p.2 != (s.ctx x).tag && p.1.any (tableNames s x)

/-- A context that loses a core is SUSPENDED, and the host told (19 R421). -/
def State.suspend (s : State) (x : Nat) : State :=
  let c := s.ctx x
  (s.setCtx x { c with suspended := true }).notify c.func 6 x 0xFFFFFFFF 0 0 0 0 0

/-- PREEMPTION_COMPLETE of context `x` (19 R412, R415, R421). -/
def execPreemptionComplete (x : Nat) (s : State) : Host.Outcome State Fault Refusal :=
  let c := s.ctx x
  if c.st ≠ .running || !c.stopping || c.haltKind ≠ .none || !allRest s x then .next s
  else if !memoriesAwake s x then .next (s.rouseCores x)
  else
    let fc := forcedCores s x
    let loses := losesCore s x
    let s1 := s.stow x .preempted
    let s2 := s1.noteForced x (s.func c.func).waitMs fc
    .next (if loses then s2.suspend x else s2)

/-! ### HALT (19 R416) -/

/-- HALT (19 R411, R416): a pending pre-emption is replaced; a PREEMPTED context is QUIESCED. -/
def execHalt (f x : Nat) (s : State) : Host.Outcome State Fault Refusal :=
  .next (s.ctxCommand f x (fun st => st == .running || st == .preempted) fun c =>
    if c.st = .preempted then .ok (s.setCtx x { c with st := .quiesced, resuming := false, paused := .host }) []
    else .ok ((s.setCtx x { c with haltKind := .halt, pending := false, deferred := false, forced := false }).askHalt x .halt) [])

/-- Whether a context's cores are being halted for HALT or SAVE and have all halted (19 R412, R416). -/
def haltDone (s : State) (x : Nat) : Bool :=
  let c := s.ctx x
  c.st == .running && c.haltKind != .none && !c.deferred && allRest s x

/-- HALT_COMPLETE of context `x` (19 R412, R416): after HALT its state moves to the save area; the cores of a SAVE stand until its
image is written. -/
def execHaltComplete (x : Nat) (s : State) : Host.Outcome State Fault Refusal :=
  if !haltDone s x || (s.ctx x).haltKind ≠ .halt then .next s
  else if !memoriesAwake s x then .next (s.rouseCores x)
  else
    let s1 := (s.stow x .quiesced).startWatch x
    .next (s1.setCtx x { s1.ctx x with halted := true, paused := .host, haltKind := .none })

/-! ### RESUME (12 R287; 13 R302; 14 R337; 19 R412, R413, R416) -/

/-- The physical core that each saved core of a context goes to; none where one is not granted. -/
def placesOf (s : State) (x : Nat) : Table Core → Option (List (Nat × Core))
  | [] => some []
  | (n, c) :: t =>
    match grantedCore s x n, placesOf s x t with
    | some p, some r => some ((p, c) :: r)
    | _, _ => none

/-- The status of a core that a halt lets go: a debug-stopped one stays so (19 R419). -/
def awoken : CoreStatus → CoreStatus
  | .halted => .running
  | .debugHalted => .debugStopped
  | st => st

/-- A core as it resumes: its waits are entered again, CYCLE goes on (19 R413, R429). -/
def Core.resumed (c : Core) (now id tag : Nat) (old : Core) : Core :=
  { c with status := awoken c.status,
           haltReq := .none, transfers := c.transfers.map fun t => { t with tag := tag }, tag := tag, cycle0 := now,
           readyAt := now, leader := id - c.gangMember, retention := old.retention, serial := max c.serial old.serial,
           aseq := max c.aseq old.aseq, divFree := now }

/-- A group as it resumes: a withheld release proceeds, a frozen clock runs on, and its root is cut anew (12 R282, R287; 13
R302). -/
def resumedGroup (s : State) (x : Nat) (g : Group) : Group :=
  let root := rootOf s (g.members.filterMap (grantedCore s x))
  let g1 := { g with root := root, frozen := false }
  if g.st = .held then { g1 with st := .releasing, releaseAt := s.now + releaseLatency root.1 } else g1

/-- Installs the macro sets of a context's launches on the clusters of its saved cores (15 R344); none where one has no
room. -/
def installLaunches (x tag : Nat) (ps : List (Nat × Core)) : List (Nat × Launch) → State → Option State
  | [], s => some s
  | (l, q) :: rest, s =>
    let ids := (ps.filter fun p => p.2.lslot == l).map Prod.fst
    match ((s.ctx x).image.kernels.find? fun p => p.1 == q.record.kernel).map Prod.snd with
    | none => installLaunches x tag ps rest s
    | some k =>
      match installAll x q.record.kernel tag k.macros (clustersOf ids) s with
      | none => none
      | some s1 => installLaunches x tag ps rest s1

/-- Evicts the combs that are not pinned where the macro sets of a context that comes back want their room (15 R343). -/
def State.evictLaunches (s : State) (x tag : Nat) (ps : List (Nat × Core)) : State :=
  (s.ctx x).launches.foldl (fun k q => match kernelFor s x q.2 with
    | none => k
    | some n => k.evictSets tag (setSize n.macros) (clustersOf ((ps.filter fun p => p.2.lslot == q.1).map Prod.fst))) s

/-- Whether the cores a context comes back to are free for it: idle, held by no launch, awake, with no delivery of a former
context on its way (18 R397; 19 R412). -/
def placesFree (s : State) (x : Nat) (ps : List (Nat × Core)) : Bool :=
  ps.all fun p => coreFree s x p.1 && (s.core p.1).retention == .awake

/-- Whether the cores a context comes back to have passed to it and are zeroed (21 R448). -/
def placesClean (s : State) (x : Nat) (ps : List (Nat × Core)) : Bool :=
  ps.all fun p => (s.core p.1).ctx == some x && decide ((s.core p.1).zeroUntil ≤ s.now)

/-- A core passes to a context that comes back to it: it is zeroed, which takes 512 cycles (21 R448; log 67). -/
def Core.passes (c : Core) (now x tag lcore : Nat) : Core :=
  if c.ctx == some x then c
  else { c.vacant with ctx := some x, lslot := 16, lcore := lcore, tag := tag, zeroUntil := max c.zeroUntil (now + 512) }

/-- The cores that a context comes back to pass to it, and with them their clusters (15 R343; 21 R448). -/
def State.passCores (s : State) (x : Nat) (ps : List (Nat × Core)) : State :=
  let s1 := ps.foldl (fun k p => k.modCore p.1 fun c => c.passes k.now x (s.ctx x).tag p.2.lcore) s
  (clustersOf (ps.map Prod.fst)).foldl (fun k n => k.combsPass x n) s1

/-- Restores a context on its granted cores before any of them issues (19 R412). A core that had passed to it for another place is given
up. -/
def State.restoreCores (s : State) (x : Nat) (ps : List (Nat × Core)) : State :=
  let c := s.ctx x
  let others := (coresOf s x).filter fun id => !(ps.any fun p => p.1 == id)
  let s0 := others.foldl (fun k id => k.modCore id Core.vacant) (s.beforeActive c.tag)
  let s1 := ps.foldl (fun k p => k.modCore p.1 fun old => p.2.resumed k.now p.1 c.tag old) s0
  let ls := c.launches.map fun p => (p.1, { p.2 with groups := p.2.groups.map (resumedGroup s x) })
  let s2 := s1.setCtx x { c with st := .running, resuming := false, paused := .host, forced := false, halted := false,
                                 saveArea := [], launches := ls }
  (ps.map Prod.fst).foldl (fun k id =>
    if (k.core id).status = .running || (k.core id).status = .debugStopped then k.reenter id else k) s2

/-- A context that is to come back does so once its function is active, it is not SUSPENDED, the roots of its groups can be cut and
its cores are free, zeroed where they were another's; a retained core leaves retention first (12 R282; 15 R343; 18 R405; 19 R412,
R421; 21 R448). -/
def State.tryResume (s : State) (x : Nat) : State :=
  let c := s.ctx x
  let waiting := c.st == .preempted || c.st == .quiesced || c.st == .saved
  if !c.resuming || !waiting || c.suspended || c.haltKind ≠ .none || !admits s || !activeFunc s c.func then s
  else match placesOf s x c.saveArea with
    | none => s
    | some ps =>
      let roots := c.launches.flatMap fun p => p.2.groups.map (resumedGroup s x)
      if !rootsApart s roots then s
      else if !placesFree s x ps then
        ps.foldl (fun k p => if (k.core p.1).status = .idle then k.modCore p.1 (fun d => d.rouse k.now) else k) s
      else if !placesClean s x ps then s.passCores x ps
      else match installLaunches x c.tag ps c.launches s with
        | none => s.evictLaunches x c.tag ps
        | some s1 => s1.restoreCores x ps

/-- RESUME (19 R411, R412, R421): it waits for its cores as a launch does in PLACING. -/
def execResume (f x : Nat) (s : State) : Host.Outcome State Fault Refusal :=
  .next (s.ctxCommand f x (fun st => st == .preempted || st == .quiesced || st == .saved) fun c =>
    if c.suspended then .err 3 else .ok ((s.setCtx x { c with resuming := true, paused := .host }).tryResume x) [])

/-! ### SIGNAL and the debugger (19 R417, R419) -/

/-- SIGNAL (19 R417): every core that holds a continuation takes the trap, one that a pending pre-emption has halted after it
resumes. -/
def execSignal (f x : Nat) (code : BitVec 16) (s : State) : Host.Outcome State Fault Refusal :=
  let mark (p : Nat × Core) : Nat × Core :=
    if p.2.ctx == some x then
      (p.1, { p.2 with signal := if p.2.status = .idle || p.2.status = .stopped then p.2.signal else some code,
                       latch := true }) else p
  .next (s.ctxCommand f x (fun st => st == .running) fun _ => .ok { s with cores := s.cores.map mark } [])

/-- DBGGO (19 R419): the core goes on at TPC, not before its re-entries register (14 R337); one that a halt has met does so when it
resumes. -/
def execDbggo (f x lcore : Nat) (s : State) : Host.Outcome State Fault Refusal :=
  .next (s.ctxCommand f x (fun st => st == .running) fun _ =>
    match memberCore s x lcore with
    | none => .err 2
    | some c =>
      match (s.core c).status with
      | .debugStopped => .ok (s.modCore c fun k => { k.transfer k.tpc with status := .running, readyAt := max s.now k.readyAt }) []
      | .debugHalted => .ok (s.modCore c fun k => { k.transfer k.tpc with status := .halted }) []
      | _ => .err 2)

/-! ### Aborted collectives (20 R441) -/

/-- Records an abort in the cores of a context that hold a continuation, in those of the save area too. -/
def State.abortCores (s : State) (x w epoch reason : Nat) : State :=
  let mark (c : Core) : Core := if c.status = .idle then c else { c with abort := some (w, epoch, reason), latch := true }
  let s1 : State := { s with cores := s.cores.map fun p => if p.2.ctx == some x then (p.1, mark p.2) else p }
  let c := s1.ctx x
  s1.setCtx x { c with saveArea := c.saveArea.map fun p => (p.1, mark p.2) }

/-- The epoch after one that was delivered or aborted: what was accepted for it opens it; members that stand stopped still do (20
R438, R440, R441). -/
def State.nextEpoch (s : State) (f w : Nat) (d : Window) : State :=
  let key := windowKey f w
  let e := look Epoch.reset key s.epochs
  let r := s.func f
  let again := !e.nextPart.isEmpty || !e.nextClos.isEmpty
  let e1 := { Epoch.reset with parts := e.nextPart, closes := e.nextClos, stopped := e.stopped }
  let s1 := s.setFunc f { r with windows := put w { d with epoch := d.epoch + 1, isOpen := again } r.windows }
  { s1 with epochs := if e1 = Epoch.reset then drop key s1.epochs else put key e1 s1.epochs }

/-- The open epoch of window `w` of function `f` is aborted: its contributions and closes are discarded, those of the next epoch stand
(20 R441). -/
def State.abortEpoch (s : State) (f w reason : Nat) : State :=
  let r := s.func f
  match (r.windows.find? fun p => p.1 == w).map Prod.snd with
  | none => s
  | some d =>
    if !d.isOpen then s else (s.nextEpoch f w d).abortCores d.lctx w d.epoch.toNat reason

end Sys2Proof.Machine
end

