-- ==== Sys2Proof/Machine/Digest.lean ====
section
/-!
DEFINITION. SHA-256 and the verification of an ECDSA P-256 signature, which the manual names and does not define (03
R82; 17 R371, R372; log 7).
-/

namespace Sys2Proof.Machine

/-! ### SHA-256 -/

/-- The big-endian number of a byte string. -/
def beNat (bs : List Byte) : Nat := bs.foldl (fun n b => 256 * n + b.toNat) 0

/-- The round constants of SHA-256. -/
def shaK : List Word :=
  [0x428a2f98#32, 0x71374491#32, 0xb5c0fbcf#32, 0xe9b5dba5#32, 0x3956c25b#32, 0x59f111f1#32, 0x923f82a4#32, 0xab1c5ed5#32,
   0xd807aa98#32, 0x12835b01#32, 0x243185be#32, 0x550c7dc3#32, 0x72be5d74#32, 0x80deb1fe#32, 0x9bdc06a7#32, 0xc19bf174#32,
   0xe49b69c1#32, 0xefbe4786#32, 0x0fc19dc6#32, 0x240ca1cc#32, 0x2de92c6f#32, 0x4a7484aa#32, 0x5cb0a9dc#32, 0x76f988da#32] ++
  [0x983e5152#32, 0xa831c66d#32, 0xb00327c8#32, 0xbf597fc7#32, 0xc6e00bf3#32, 0xd5a79147#32, 0x06ca6351#32, 0x14292967#32,
   0x27b70a85#32, 0x2e1b2138#32, 0x4d2c6dfc#32, 0x53380d13#32, 0x650a7354#32, 0x766a0abb#32, 0x81c2c92e#32, 0x92722c85#32,
   0xa2bfe8a1#32, 0xa81a664b#32, 0xc24b8b70#32, 0xc76c51a3#32, 0xd192e819#32, 0xd6990624#32, 0xf40e3585#32, 0x106aa070#32] ++
  [0x19a4c116#32, 0x1e376c08#32, 0x2748774c#32, 0x34b0bcb5#32, 0x391c0cb3#32, 0x4ed8aa4a#32, 0x5b9cca4f#32, 0x682e6ff3#32,
   0x748f82ee#32, 0x78a5636f#32, 0x84c87814#32, 0x8cc70208#32, 0x90befffa#32, 0xa4506ceb#32, 0xbef9a3f7#32, 0xc67178f2#32]

/-- The initial hash of SHA-256. -/
def shaInit : List Word :=
  [0x6a09e667#32, 0xbb67ae85#32, 0x3c6ef372#32, 0xa54ff53a#32, 0x510e527f#32, 0x9b05688c#32, 0x1f83d9ab#32, 0x5be0cd19#32]

/-- The padded message. -/
def shaPad (bs : List Byte) : List Byte :=
  let n := bs.length
  bs ++ [0x80#8] ++ List.replicate ((119 - n % 64) % 64) 0#8 ++ (leBytes (8 * n) 8).reverse

/-- The message schedule, the latest word first: 16 words of the block, then `n` more. -/
def shaSchedule : Nat → List Word → List Word
  | 0, w => w
  | n + 1, w =>
    let g (i : Nat) : Word := w.getD i 0
    let x := g 14
    let y := g 1
    let s0 := x.rotateRight 7 ^^^ x.rotateRight 18 ^^^ (x >>> 3)
    let s1 := y.rotateRight 17 ^^^ y.rotateRight 19 ^^^ (y >>> 10)
    shaSchedule n ((g 15 + s0 + g 6 + s1) :: w)

/-- One round. -/
def shaRound (h : List Word) (kw : Word × Word) : List Word :=
  match h with
  | [a, b, c, d, e, f, g, hh] =>
    let t1 := hh + (e.rotateRight 6 ^^^ e.rotateRight 11 ^^^ e.rotateRight 25) + ((e &&& f) ^^^ (~~~e &&& g)) + kw.1 + kw.2
    let t2 := (a.rotateRight 2 ^^^ a.rotateRight 13 ^^^ a.rotateRight 22) + ((a &&& b) ^^^ (a &&& c) ^^^ (b &&& c))
    [t1 + t2, a, b, c, d + t1, e, f, g]
  | _ => h

/-- The hash after one block. -/
def shaBlock (h : List Word) (b : List Byte) : List Word :=
  let w := (List.range 16).map fun i => BitVec.ofNat 32 (beNat ((b.drop (4 * i)).take 4))
  let ws := (shaSchedule 48 w.reverse).reverse
  (h.zip ((shaK.zip ws).foldl shaRound h)).map fun p => p.1 + p.2

/-- The hash after `n` blocks of a padded message. -/
def shaBlocks : Nat → List Word → List Byte → List Word
  | 0, h, _ => h
  | n + 1, h, bs => shaBlocks n (shaBlock h (bs.take 64)) (bs.drop 64)

/-- SHA-256 of a byte string, as the number of its 32 bytes, most significant first. -/
def sha256 (bs : List Byte) : BitVec 256 :=
  let p := shaPad bs
  BitVec.ofNat 256 ((shaBlocks (p.length / 64) shaInit p).foldl (fun n w => n * 2 ^ 32 + w.toNat) 0)

/-- A hash as it stands in a byte string: its first byte first. -/
def hashAt (bs : List Byte) : BitVec 256 := BitVec.ofNat 256 (beNat (bs.take 32))

/-! ### ECDSA on P-256 -/

/-- The prime of P-256. -/
def p256 : Nat := 0xffffffff00000001000000000000000000000000ffffffffffffffffffffffff
/-- The order of its base point. -/
def n256 : Nat := 0xffffffff00000000ffffffffffffffffbce6faada7179e84f3b9cac2fc632551
/-- The coefficient b of its curve. -/
def b256 : Nat := 0x5ac635d8aa3a93e7b3ebbd55769886bc651d06b0cc53b0f63bce3c3e27d2604b
/-- Its base point. -/
def g256 : Nat × Nat :=
  (0x6b17d1f2e12c4247f8bce6e563a440f277037d812deb33a0f4a13945d898c296,
   0x4fe342e2fe1a7f9b8ee7eb4a7c0f9e162bce33576b315ececbb6406837bf51f5)

/-- A power modulo `m`, over the bits of the exponent below `k`. -/
def powMod (m b e : Nat) : Nat → Nat
  | 0 => 1 % m
  | k + 1 =>
    let h := powMod m b (e / 2) k
    let q := h * h % m
    if e % 2 = 1 then q * b % m else q

/-- The inverse modulo a prime of 256 bits. -/
def invMod (m a : Nat) : Nat := powMod m a (m - 2) 256

/-- A difference modulo `m`. -/
def subMod (m a b : Nat) : Nat := (a + (m - b % m)) % m

/-- The slope of the line through two points, or of the tangent where they are one; none where it is vertical. -/
def slope (p q : Nat × Nat) : Option Nat :=
  let ratio (n d : Nat) : Nat := n * invMod p256 d % p256
  if p.1 ≠ q.1 then some (ratio (subMod p256 q.2 p.2) (subMod p256 q.1 p.1))
  else if (p.2 + q.2) % p256 = 0 then none
  else some (ratio (subMod p256 (3 * p.1 * p.1) 3) (2 * p.2 % p256))

/-- The third point of a line of slope `l` through two points, mirrored. -/
def mirrored (p q : Nat × Nat) (l : Nat) : Nat × Nat :=
  let x := subMod p256 (l * l) (p.1 + q.1)
  (x, subMod p256 (l * subMod p256 p.1 x) p.2)

/-- The sum of two points; none is the point at infinity. -/
def addPoint (a b : Option (Nat × Nat)) : Option (Nat × Nat) :=
  match a with
  | none => b
  | some p => (b.map fun q => (slope p q).map (mirrored p q)).getD a

/-- A multiple of a point, over the bits of the factor below `k`. -/
def mulPoint (p : Option (Nat × Nat)) (e : Nat) : Nat → Option (Nat × Nat)
  | 0 => none
  | k + 1 =>
    let h := mulPoint p (e / 2) k
    let d := addPoint h h
    if e % 2 = 1 then addPoint d p else d

/-- Whether a pair is a point of the curve. -/
def onCurve (q : Nat × Nat) : Bool :=
  decide (q.1 < p256) && decide (q.2 < p256) && q.2 * q.2 % p256 == (q.1 * q.1 % p256 * q.1 + subMod p256 b256 (3 * q.1)) % p256

/-- Whether a signature, r then s, each most significant byte first, over a hash verifies under a public key, x then y in
the same order (17 R371, R372; the key's layout is log 7's). -/
def ecdsaVerifies (key : List Byte) (h : BitVec 256) (sig : List Byte) : Bool :=
  let q := (beNat (key.take 32), beNat ((key.drop 32).take 32))
  let r := beNat (sig.take 32)
  let s := beNat ((sig.drop 32).take 32)
  let ok (x : Nat) : Bool := decide (1 ≤ x) && decide (x < n256)
  onCurve q && ok r && ok s &&
    (let w := invMod n256 s
     let u := mulPoint (some g256) (h.toNat * w % n256) 256
     match addPoint u (mulPoint (some q) (r * w % n256) 256) with
     | none => false
     | some p => p.1 % n256 == r)

end Sys2Proof.Machine
end

