-- ==== Sys2Proof/Machine/Pages.lean ====
section
/-!
DEFINITION. The executive's work on pages (03 R82; 09 R237; 10 R238 to R263; 19 R411, R428; 20 R432; 21 R448): frames and
tables, MAP, UNMAP and EVICT, page requests, shootdowns, replication, permissions, dirty tracking and the package copy
engines.
-/

namespace Sys2Proof.Machine

/-! ### Pieces of memory -/

/-- `n` bytes of a memory from `a`, as the cells that are not blank, numbered from 0. -/
def sliceOf (m : List Host.Cell) (a n : Nat) : List Host.Cell :=
  (m.filter fun c => decide (a ≤ c.1) && decide (c.1 < a + n)).map fun c => (c.1 - a, c.2)

/-- The cells of a piece from `o` on, `n` bytes, numbered from 0. -/
def subPiece (p : List Host.Cell) (o n : Nat) : List Host.Cell := sliceOf p o n

/-- A piece moved up by `o` bytes. -/
def liftPiece (p : List Host.Cell) (o : Nat) : List Host.Cell := p.map fun c => (c.1 + o, c.2)

/-- The piece of a byte string. -/
def pieceOf (bs : List Byte) : List Host.Cell :=
  ((List.range bs.length).zip bs).filter fun c => c.2 != Config.blankByte

/-- A memory with a piece of `n` bytes at `a`. -/
def pasteAt (m : List Host.Cell) (a n : Nat) (p : List Host.Cell) : List Host.Cell :=
  p.foldl (fun q c => writeByte q (a + c.1) c.2) (clearRange m a n)

/-- Writes a piece at a physical address: a parcel and a word written whole are good again (21 R444, R449). -/
def State.pastePhys (s : State) (pa n : Nat) (p : List Host.Cell) : State :=
  let whole (lo len : Nat) : Bool := decide (pa ≤ lo) && decide (lo + len ≤ pa + n)
  ({ s with hbm := pasteAt s.hbm pa n p,
            parcelBad := s.parcelBad.filter (fun q => !whole (256 * q) 256),
            hbmBad := s.hbmBad.filter (fun w => !whole (4 * w) 4) } : State).markDirty pa n

/-- Copies a frame of `n` bytes onto another: what cannot be read stays marked there, so that no error is silently corrected (21 R444,
R449). -/
def State.copyFrame (s : State) (old new n : Nat) : State :=
  let moved (unit : Nat) (l : List Nat) : List Nat :=
    (l.filter fun u => decide (old ≤ unit * u) && decide (unit * u < old + n)).map fun u => (unit * u - old + new) / unit
  let q := s.pastePhys new n (sliceOf s.hbm old n)
  { q with hbmBad := (moved 4 s.hbmBad).foldl (fun l u => insertNat u l) q.hbmBad,
           parcelBad := (moved 256 s.parcelBad).foldl (fun l u => insertNat u l) q.parcelBad }

/-- Zeroes a physical range (21 R448). -/
def State.zeroPhys (s : State) (pa n : Nat) : State := s.pastePhys pa n []

/-! ### Frames (01 R19; 10 R238; 20 R432) -/

/-- The first offset of a stack that is not backed or is reserved for the host (01 R19; 20 R432). -/
def stackTop (s : State) : Nat := 48 * 2 ^ 30 - s.hdm / 32

/-- The bytes of stack 0 that hold tables (log 5). -/
def tableArea : Nat := 2 ^ 30

/-- The frames a page of size `n` at `frame` takes: in every die when it is replicated (10 R261). -/
def framesOf (frame : Nat) (repl : Bool) : List Nat := if repl then (List.range 16).map (replicaOf frame) else [frame]

/-- The physical ranges that the pages of a context take. -/
def rangesOf (s : State) (x : Nat) : List (Nat × Nat) :=
  (s.ctx x).mapped.flatMap fun p =>
    match walk s x p.1 with
    | .leaf e _ =>
      match leafState e with
      | some .demand => []
      | some .requested => []
      | st => (framesOf (leafFrame e) (st == some .replicated)).map fun a => (a, pageSize p.2)
    | .invalid _ _ => []

/-- Every physical range in use: of pages, and of frames whose shootdown is not complete (10 R248). -/
def usedRanges (s : State) : List (Nat × Nat) :=
  (s.contexts.flatMap fun p => rangesOf s p.1) ++
    s.shoot.flatMap fun d => (framesOf d.frame d.copies).map fun a => (a, d.size)

/-- Whether a stack holds a pseudo-channel with a declared fault: no page is placed there (21 R447; log 5). -/
def stackFaulty (s : State) (n : Nat) : Bool :=
  (s.lasting ++ s.logged).any fun u => match u with
    | .channel t _ => t == n
    | _ => false

/-- Whether a range of physical addresses is backed: 41 bits, and 48 GiB of each stack (01 R19). -/
def backed (pa n : Nat) : Bool := decide (pa < 2 ^ 41) && decide (pa % 2 ^ 36 + n ≤ 48 * 2 ^ 30)

/-- Whether a physical range meets what is reserved for the host (20 R432). -/
def meetsReserved (s : State) (pa n : Nat) : Bool := decide (stackTop s < pa % 2 ^ 36 + n)

/-- Whether a range of one stack is backed, unreserved and free. -/
def rangeFree (s : State) (pa n : Nat) : Bool :=
  !stackFaulty s (pa / 2 ^ 36) && decide (tableArea ≤ pa) && decide (pa / 2 ^ 36 < 32) && decide (pa % 2 ^ 36 + n ≤ stackTop s) &&
    (usedRanges s).all fun r => decide (r.1 + r.2 ≤ pa) || decide (pa + n ≤ r.1)

/-- Whether a frame can hold a page of size field `k` (10 R238). -/
def frameFree (s : State) (frame k : Nat) : Bool := frame % pageSize k == 0 && rangeFree s frame (pageSize k)

/-- The least of a list of numbers. -/
def leastOf : List Nat → Option Nat
  | [] => none
  | x :: t => some (t.foldl min x)

/-- The lowest free frame for a page of size field `k` (log 5). -/
def pickFrame (s : State) (k : Nat) : Option Nat :=
  let starts := tableArea :: ((List.range 32).map (· * 2 ^ 36) ++ (usedRanges s).map fun r => r.1 + r.2)
  leastOf ((starts.map fun a => alignUp a (pageSize k)).filter fun a => frameFree s a k)

/-- The lowest free home frame of a REPLICATED page of size field `k` whose copies find their frames free too (10 R261). -/
def pickReplicated (s : State) (k : Nat) : Option Nat :=
  let offs := 0 :: tableArea :: (usedRanges s).map fun r => (r.1 + r.2) % 2 ^ 36
  let starts := (List.range 32).flatMap fun n => offs.map fun o => alignUp (n * 2 ^ 36 + o) (pageSize k)
  leastOf (starts.filter fun a => (a :: framesOf a true).all fun b => frameFree s b k)

/-- The units of 128 KiB that the resident pages of a context take (10 R253). -/
def residentUnits (s : State) (x : Nat) : Nat := (rangesOf s x).foldl (fun n r => n + r.2 / 2 ^ 17) 0

/-- Whether `units` more keep a context within its quota (10 R253). -/
def withinQuota (s : State) (x units : Nat) : Bool :=
  (s.ctx x).quota == 0 || decide (residentUnits s x + units ≤ (s.ctx x).quota)

/-! ### Tables (10 R239 to R242) -/

/-- A fresh table of zeros; none where the area is full. -/
def State.newTable (s : State) : Option (Nat × State) :=
  if s.freeTable + 512 ≤ tableArea then
    some (s.freeTable, { s with freeTable := s.freeTable + 512, hbm := clearRange s.hbm s.freeTable 512 })
  else none

/-- The table of level `target` that serves an address, from a table of level `l` on; tables are added as needed. -/
def tableFor (va target : Nat) : Nat → Nat → Nat → State → Option (Nat × State)
  | 0, _, _, _ => none
  | n + 1, l, table, s =>
    if l = target then some (table, s)
    else
      let pa := table + 8 * levelIndex l va
      let e := readEntry s pa
      if e % 2 = 1 then (if bitsOf e 1 1 = 0 then tableFor va target n (l + 1) (bitsOf e 9 32 * 512) s else none)
      else match s.newTable with
        | none => none
        | some (t, q) => tableFor va target n (l + 1) t (writeEntry q pa (t + 1))

/-- Writes entry `e` at the `4 ^ j` places of a group. -/
def writeGroup (table va k e : Nat) (s : State) : State :=
  let i := levelIndex (leafLevel k) va
  let first := i - i % 4 ^ groupLog k
  (List.range (4 ^ groupLog k)).foldl (fun q j => writeEntry q (table + 8 * (first + j)) e) s

/-- The context's space with a page of size field `k` at `va` written as entry `e`; none where no table is left. -/
def State.writeLeaf (s : State) (x va k e : Nat) : Option State :=
  (tableFor va (leafLevel k) 6 0 (s.ctx x).root s).map fun r =>
    let q := writeGroup r.1 va k e r.2
    let c := q.ctx x
    if e % 2 = 0 then q.setCtx x { c with mapped := drop va c.mapped } else q.setCtx x { c with mapped := put va k c.mapped }

/-- A leaf entry (10 R241). -/
def leafEntry (k frame : Nat) (r w e demand hchk mig : Bool) (part tag : Nat) : Nat :=
  let b (x : Bool) (i : Nat) : Nat := if x then 2 ^ i else 0
  3 + b r 2 + b w 3 + b e 4 + b demand 6 + b hchk 7 + b mig 9 + frame + k * 2 ^ 41 + part * 2 ^ 53 + tag * 2 ^ 54

/-- The page of a context that holds an address: its address and size field. -/
def pageAt (s : State) (x va : Nat) : Option (Nat × Nat) :=
  (s.ctx x).mapped.find? fun p => decide (p.1 ≤ va) && decide (va < p.1 + pageSize p.2)

/-- Whether a range meets a mapped page of a context. -/
def meetsPage (s : State) (x va n : Nat) : Bool :=
  (s.ctx x).mapped.any fun p => decide (p.1 < va + n) && decide (va < p.1 + pageSize p.2)

/-- The entry of a page. -/
def entryOf (s : State) (x va : Nat) : Nat :=
  match walk s x va with
  | .leaf e _ => e
  | .invalid _ _ => 0

/-- The state of a page. -/
def pageState (s : State) (x va : Nat) : Option PageState := if (entryOf s x va) % 2 = 0 then none else leafState (entryOf s x va)

/-- The dirty bits of a range cleared (10 R245, R262). -/
def State.clearDirty (s : State) (pa n : Nat) : State :=
  { s with dirty := s.dirty.filter fun u => decide (u < pa / 2 ^ 17) || decide (pa / 2 ^ 17 + n / 2 ^ 17 ≤ u) }

/-- Maps a resident page: tracked from its mapping while the context is (10 R245; 19 R428). -/
def State.mapResident (s : State) (x va k frame : Nat) (r w e hchk : Bool) : Option State :=
  let c := s.ctx x
  let q := if c.tracking then s.clearDirty frame (pageSize k) else s
  q.writeLeaf x va k (leafEntry k frame r w e false hchk c.tracking 1 c.tag)

/-! ### Reading and writing places (09 R237; 10 R246; 20 R432) -/

/-- The physical address of an offset in the range reserved for the host: interleaved over the stacks at 128 KiB (20
R432). -/
def hdmAddr (s : State) (off : Nat) : Nat :=
  let u := off / 2 ^ 17
  u % 32 * 2 ^ 36 + stackTop s + u / 32 * 2 ^ 17 + off % 2 ^ 17

/-- A range cut at the edges of 128 KiB units: the offset in the range, the address and the length of each piece. -/
def cuts : Nat → Nat → Nat → Nat → List (Nat × Nat × Nat)
  | 0, _, _, _ => []
  | fuel + 1, o, a, n =>
    if n = 0 then []
    else
      let k := min n (2 ^ 17 - a % 2 ^ 17)
      (o, a, k) :: cuts fuel (o + k) (a + k) (n - k)

/-- The pieces of a range. -/
def cutsOf (a n : Nat) : List (Nat × Nat × Nat) := cuts (n / 2 ^ 17 + 2) 0 a n

/-- What a package copy engine meets at a range: its bytes, a page to wait for, a link that holds it (20 R433), a fault. -/
inductive Piece where
  | cells (p : List Host.Cell)
  | stall (page : Nat) (st : PageState)
  | held
  | bad
  deriving DecidableEq, Repr

/-- The physical place of a virtual address for the engine of a function (10 R246). -/
inductive Spot where
  | at (pa e : Nat)
  | stall (page : Nat) (st : PageState)
  | bad
  deriving DecidableEq, Repr

/-- Translates an access that an engine makes on a context's behalf, with the tag of its function (10 R246). -/
def spotOf (s : State) (f x va : Nat) (a : Access) : Spot :=
  match translate s x (s.func f).tag va a with
  | .ok pa e => .at pa e
  | .stall page st => .stall page st
  | _ => .bad

/-- Reads pieces of a context's space. -/
def readCuts (s : State) (f x : Nat) : List (Nat × Nat × Nat) → Piece
  | [] => .cells []
  | (o, a, k) :: rest =>
    match spotOf s f x a .read with
    | .stall page st => .stall page st
    | .bad => .bad
    | .at pa _ =>
      if !s.rangeGood pa k then .bad
      else match readCuts s f x rest with
        | .cells p => .cells (liftPiece (sliceOf s.hbm pa k) o ++ p)
        | r => r

/-- Reads `n` bytes of a place; physical addresses are the admin function's (log 5). -/
def readPlace (s : State) (f x : Nat) (p : Place) (n : Nat) : Piece :=
  match p with
  | .host a => if hostHeld s f then .held else if hostReach s f then .cells (sliceOf s.hostMem a n) else .bad
  | .virt va => readCuts s f x (cutsOf va n)
  | .phys pa => if f = adminFunc && backed pa n && s.rangeGood pa n then .cells (sliceOf s.hbm pa n) else .bad
  | .hdm off =>
    if s.hdm < off + n then .bad
    else if (cutsOf off n).any fun c => !s.rangeGood (hdmAddr s c.2.1) c.2.2 then .bad
    else .cells ((cutsOf off n).flatMap fun c => liftPiece (sliceOf s.hbm (hdmAddr s c.2.1) c.2.2) c.1)
  | .peer data => .cells (sliceOf (pieceOf data) 0 n)

/-- Whether the parcels that a write covers in part pass their verify (21 R444, R449): only its first and its last may be such. -/
def edgesGood (s : State) (pa n : Nat) : Bool :=
  [pa / 256, (pa + n - 1) / 256].all fun q =>
    n == 0 || (decide (pa ≤ q * 256) && decide (q * 256 + 256 ≤ pa + n)) || s.rangeGood (q * 256) 256

/-- What a write of pieces of a context's space meets first. -/
def writeMeets (s : State) (f x : Nat) : List (Nat × Nat × Nat) → Option Spot
  | [] => none
  | (_, a, k) :: rest =>
    match spotOf s f x a .write with
    | .at pa e => if (copiesOf pa e).all fun a => edgesGood s a k then writeMeets s f x rest else some .bad
    | r => some r

/-- Writes a piece of one page, to every copy of a REPLICATED page, in maintenance mode as late as any plain write (10 R261; 16
R365); check values are renewed. -/
def State.pastePage (s : State) (pa e n : Nat) (p : List Host.Cell) : State :=
  if leafState e = some .replicated then
    match s.mode with
    | .service => (framesOf pa true).foldl (fun q d => q.pastePhys d n p) s
    | .maintenance => s.writePage pa e (readBytes p 0 n)
  else s.pastePhys pa n p

/-- Writes pieces of a context's space. -/
def writeCuts (f x : Nat) (p : List Host.Cell) : List (Nat × Nat × Nat) → State → State
  | [], s => s
  | (o, a, k) :: rest, s =>
    match spotOf s f x a .write with
    | .at pa e => writeCuts f x p rest (s.pastePage pa e k (subPiece p o k))
    | _ => writeCuts f x p rest s

/-- The outcome of writing a place. -/
inductive Placed where
  | done (s : State)
  | stall (page : Nat) (st : PageState)
  | held
  | bad
  deriving DecidableEq, Repr

/-- Writes `n` bytes to a place, whole or not at all. Bytes for a peer leave the module. -/
def writePlace (s : State) (f x : Nat) (d : Place) (n : Nat) (p : List Host.Cell) : Placed :=
  match d with
  | .host a =>
    if hostHeld s f then .held else if hostReach s f then .done { s with hostMem := pasteAt s.hostMem a n p } else .bad
  | .virt va =>
    match writeMeets s f x (cutsOf va n) with
    | some (.stall page st) => .stall page st
    | some _ => .bad
    | none => .done (writeCuts f x p (cutsOf va n) s)
  | .phys pa => if f = adminFunc && backed pa n && edgesGood s pa n then .done (s.pastePhys pa n p) else .bad
  | .hdm off =>
    if s.hdm < off + n || (cutsOf off n).any fun c => !edgesGood s (hdmAddr s c.2.1) c.2.2 then .bad
    else .done ((cutsOf off n).foldl (fun q c => q.pastePhys (hdmAddr s c.2.1) c.2.2 (subPiece p c.1 c.2.2)) s)
  | .peer _ => .done s

/-- Whether a place lies in the range reserved for the host (20 R432). -/
def reservedPlace (s : State) (p : Place) (n : Nat) : Bool :=
  match p with
  | .hdm _ => true
  | .phys pa => meetsReserved s pa n
  | _ => false

/-- Whether a place is in a context's space: named by its virtual addresses, or a physical range that meets a page's frame. -/
def contextPlace (s : State) (p : Place) (n : Nat) : Bool :=
  match p with
  | .virt _ => true
  | .phys pa => (usedRanges s).any fun r => decide (r.1 < pa + n) && decide (pa < r.1 + r.2)
  | _ => false

/-- Posts the table error that stopped an engine at a place, if one did (10 R243). -/
def State.placeErrors (s : State) (x : Nat) (p : Place) (n : Nat) : State :=
  match p with
  | .virt va => s.walkErrors x ((cutsOf va n).map fun c => c.2.1)
  | _ => s

/-- The bytes of a move are in place: the event counter its descriptor names in the context rises (09 R237; 18 R403). -/
def State.moveSignal (s : State) (x sig amt : Nat) : State :=
  if sig = 0 then s
  else match countUp s x (s.ctx x).tag sig amt with
    | .added q => q.counterRaised x sig
    | .stall page st => s.requestPage x page st
    | .failed q => q

/-- Whether the counter of a move's descriptor waits for its page. -/
def signalStalls (s : State) (x sig amt : Nat) : Bool :=
  sig != 0 && match countUp s x (s.ctx x).tag sig amt with
    | .stall _ _ => true
    | _ => false

/-- PACKAGE_COPY_MOVE of function `f` for context `x` (09 R237): a move that meets a page on demand, or a link that retrains, is tried
again in the next cycle; one that meets a fault moves nothing. Its descriptor names an event counter, or none with 0. A context's space takes the
contents of the range reserved for the host by MAP alone (20 R432). -/
def execPackageCopyMove (f x : Nat) (src dst : Place) (len sig amt : Nat) (s : State) : Host.Outcome State Fault Refusal :=
  let again (q : State) : State := { q with inputs := (s.now + 1, .packageCopyMove f x src dst len sig amt) :: q.inputs }
  if 512 < f || (s.func f).resetting || closedTo s f || (reservedPlace s src len && contextPlace s dst len) then .next s
  else if signalStalls s x sig amt then .next (again (s.moveSignal x sig amt))
  else .next (match readPlace s f x src len with
    | .stall page st => again (s.requestPage x page st)
    | .held => again s
    | .bad => s.placeErrors x src len
    | .cells p =>
      match writePlace s f x dst len p with
      | .done q => q.moveSignal x sig amt
      | .stall page st => again (s.requestPage x page st)
      | .held => again s
      | .bad => s.placeErrors x dst len)

/-! ### MAP, UNMAP, EVICT (19 R411; 10 R245, R253) -/

/-- The backing that a source of MAP names, where it can be one (10 R253). -/
def backingOf : Place → Option Backing
  | .host a => some { addr := a, host := true }
  | .virt va => some { addr := va, host := false }
  | _ => none

/-- The place of a backing. -/
def Backing.place (b : Backing) : Place := if b.host then .host b.addr else .virt b.addr

/-- MAP of a page on demand: no source, no backing (10 R253). -/
def mapDemand (s : State) (x va k : Nat) (r w e : Bool) (source : Option Place) : Reply :=
  let c := s.ctx x
  match s.writeLeaf x va k (leafEntry k 0 r w e true false false 1 c.tag) with
  | none => .err 5
  | some q =>
    match source with
    | none => .ok q []
    | some p =>
      match backingOf p with
      | none => .err 2
      | some b => .ok (q.setCtx x { q.ctx x with backings := put va b (q.ctx x).backings }) []

/-- MAP of a resident page on a frame, zeroed or copied from its source, whose malformed entries are posted (10 R243; 19 R411; 21 R448). -/
def mapNow (s : State) (f x va k : Nat) (r w e : Bool) (source : Option Place) (frame : Nat) : Reply :=
  if !withinQuota s x (4 ^ k) || !frameFree s frame k then .err 5
  else
    let data : Piece := match source with
      | none => .cells []
      | some (.phys _) => .bad
      | some (.peer _) => .bad
      | some p => readPlace s f x p (pageSize k)
    match data with
    | .cells p =>
      match (s.pastePhys frame (pageSize k) p).mapResident x va k frame r w e false with
      | none => .err 5
      | some q => .ok q []
    | _ => .refused ((source.map fun p => s.placeErrors x p (pageSize k)).getD s) 2

/-- MAP (19 R411). -/
def execMap (f x va k : Nat) (r w e demand : Bool) (source : Option Place) (frame : Nat) (s : State) :
    Host.Outcome State Fault Refusal :=
  .next (s.ctxCommand f x mappingStates fun _ =>
    if 8 < k || 2 ^ 53 ≤ va || va % pageSize k ≠ 0 || meetsPage s x va (pageSize k) then .err 2
    else if demand then mapDemand s x va k r w e source
    else mapNow s f x va k r w e source frame)

/-- The requests of a page dropped: its stalled accesses meet the page as it then is (10 R245, R251). -/
def State.dropRequests (s : State) (x va : Nat) : State :=
  { s with requests := s.requests.filter (fun r => !(r.ctx == x && r.va == va)),
           waiting := s.waiting.filter (fun r => !(r.ctx == x && r.va == va)) }

/-- The page of a context unmapped: its entry cleared and, where it was resident, a shootdown begun that frees its frame
(10 R245, R248). -/
def State.unmapPage (s0 : State) (x va k : Nat) : State :=
  let s := s0.landLate s0.late.length
  let e := entryOf s x va
  let c := s.ctx x
  let q := ((s.writeLeaf x va k 0).getD s).dropRequests x va
  let q1 := q.setCtx x { q.ctx x with mapped := drop va c.mapped, backings := drop va c.backings }
  if bitsOf e 6 1 = 1 then q1
  else { q1 with shoot := q1.shoot ++ [{ ctx := x, va := va, size := pageSize k, frame := leafFrame e, free := true,
                                         copies := leafState e == some .replicated, back := none }] }

/-- UNMAP (19 R411). -/
def execUnmap (f x va : Nat) (s : State) : Host.Outcome State Fault Refusal :=
  .next (s.ctxCommand f x mappingStates fun _ =>
    match pageAt s x va with
    | none => .ok s [(1, 0)]
    | some (a, k) => .ok (s.unmapPage x a k) [(1, 1)])

/-- Whether a backing can be written (10 R253). -/
def backingWritable (s : State) (f x : Nat) (b : Backing) (n : Nat) : Bool :=
  if b.host then hostReach s f
  else (cutsOf b.addr n).all fun c => match walk s x c.2.1 with
    | .leaf e _ => permits e (s.ctx x).tag .write
    | .invalid _ _ => false

/-- EVICT (10 R253; 19 R411): the page is on demand again, and the shootdown is followed by the write back. DESIGN CHOICE, unsafe: the spec
gives ERR 2 for a page without a writable backing; an address in no page, or in a page that is not MAPPED, takes it too (log 100). -/
def execEvict (f x va : Nat) (s : State) : Host.Outcome State Fault Refusal :=
  .next (s.ctxCommand f x mappingStates fun c =>
    match pageAt s x va with
    | none => .err 2
    | some (a, k) =>
      match (c.backings.find? fun p => p.1 == a).map Prod.snd with
      | none => .err 2
      | some b =>
        let e := entryOf s x a
        if leafState e ≠ some .mapped || !backingWritable s f x b (pageSize k) then .err 2
        else
          let e1 := setBit (setBit e 6 1) 7 0 - leafFrame e
          let d : Shootdown := { ctx := x, va := a, size := pageSize k, frame := leafFrame e, free := true, copies := false,
                                 back := some b }
          match s.writeLeaf x a k e1 with
          | none => .err 5
          | some q => .ok { q with shoot := q.shoot ++ [d] } [])

/-! ### Shootdowns (10 R248) -/

/-- Whether every access that translated through a page has landed: no atomic on its frames waits. -/
def shootClear (s : State) (d : Shootdown) : Bool :=
  let fs := framesOf d.frame d.copies
  s.cores.all fun p => p.2.atoms.all fun a => a.applied || match a.place with
    | .home pa _ => !(fs.any fun b => decide (b ≤ pa) && decide (pa < b + d.size))
    | _ => true

/-- The write back of an evicted page, and what it meets where its backing cannot be written now (10 R243, R253). -/
def writeBack (s : State) (d : Shootdown) : State :=
  match d.back with
  | none => s
  | some b =>
    match writePlace s (s.ctx d.ctx).func d.ctx b.place d.size (sliceOf s.hbm d.frame d.size) with
    | .done q => q
    | .stall page st => s.requestPage d.ctx page st
    | .held => s
    | .bad => s.placeErrors d.ctx b.place d.size

/-- Whether an evicted page's frame holds bytes that cannot be read, so that its write back cannot be made (21 R444, R449). -/
def backSpoilt (s : State) (d : Shootdown) : Bool := d.back.isSome && !s.rangeGood d.frame d.size

/-- An eviction called off: the page is MAPPED on its frame again, where the first read of a bad word raises its error. DESIGN CHOICE,
unsafe: the spec does not say what becomes of an eviction whose frame cannot be read whole (log 93). -/
def State.callOff (s : State) (d : Shootdown) : State :=
  ((s.dropRequests d.ctx d.va).editLeaf d.ctx d.va fun e => setBit (setBit (e - leafFrame e) 6 0) 8 0 + d.frame)

/-- Whether the write back of a shootdown can be made now. -/
def backReady (s : State) (d : Shootdown) : Bool :=
  match d.back with
  | none => true
  | some b =>
    match writePlace s (s.ctx d.ctx).func d.ctx b.place d.size [] with
    | .done _ => true
    | _ => false

/-- The frames that a shootdown frees: all of the page's, or its copies in other dies than the home's. -/
def freedFrames (d : Shootdown) : List Nat :=
  (framesOf d.frame d.copies).filter fun a => d.free || a != d.frame

/-- SHOOTDOWN_COMPLETE for the page of context `x` at `va` (10 R245, R248, R253): contents written back, frames zeroed. -/
def execShootdownComplete (x va : Nat) (s : State) : Host.Outcome State Fault Refusal :=
  match s.shoot.find? fun d => d.ctx == x && d.va == va with
  | none => .next s
  | some d =>
    if !shootClear s d then .next s
    else if backSpoilt s d then .next { s.callOff d with shoot := s.shoot.erase d }
    else if !backReady s d then .next (writeBack s d)
    else
      let q1 : State := { writeBack s d with shoot := s.shoot.erase d }
      let zero : Bool := d.free || d.copies
      .next (if zero then (freedFrames d).foldl (fun r a => r.zeroPhys a d.size) q1 else q1)

/-! ### Page requests (10 R249 to R253, R258) -/

/-- PAGE_REQUEST_ADMIT on I/O die `die` (10 R251). -/
def execPageRequestAdmit (die : Nat) (s : State) : Host.Outcome State Fault Refusal :=
  .next (admitWaiting die s.waiting.length s)

/-- A code page of a context: its kernel, the page's number in it, and the kernel's index. -/
def codePage (s : State) (x va : Nat) : Option (Nat × Nat × Kernel) :=
  (s.ctx x).image.kernels.findSome? fun p =>
    if p.2.codeVa ≤ va && va < p.2.codeVa + p.2.code.length then some (p.1, (va - p.2.codeVa) / 131072, p.2) else none

/-- The contents of a requested page: a code page's from the image, another's from its backing (10 R253, R258). -/
def requestData (s : State) (x va k : Nat) : Piece :=
  match codePage s x va with
  | some (_, n, kn) => .cells (pieceOf ((kn.code.drop (131072 * n)).take 131072))
  | none =>
    match ((s.ctx x).backings.find? fun p => p.1 == va).map Prod.snd with
    | none => .bad
    | some b => readPlace s (s.ctx x).func x b.place (pageSize k)

/-- Whether a code page passes its hash (10 R258). -/
def pagePasses (s : State) (x va : Nat) : Bool :=
  match codePage s x va with
  | none => true
  | some (_, n, kn) => some (sha256 ((kn.code.drop (131072 * n)).take 131072)) == (kn.hashes.find? fun p => p.1 == n).map Prod.snd

/-- Whether a page on demand has nothing to come from (10 R253). -/
def noBacking (s : State) (x va : Nat) : Bool :=
  (codePage s x va).isNone && !((s.ctx x).backings.any fun p => p.1 == va)

/-- Whether the executive refuses a request: no backing, beyond the quota, or beyond the frames free in the module, which bound every
quota (10 R252, R253). -/
def refusable (s : State) (x va k : Nat) : Bool := noBacking s x va || !withinQuota s x (4 ^ k) || (pickFrame s k).isNone

/-- Whether a request can not be served yet: its backing is not to be read now. -/
def backingStalls (s : State) (r : PageReq) : Bool :=
  match (s.ctx r.ctx).mapped.find? fun p => p.1 == r.va with
  | none => false
  | some (_, k) => !refusable s r.ctx r.va k && match requestData s r.ctx r.va k with
    | .cells _ => false
    | _ => true

/-- The function whose turn it is: the first after the one served last that has a request to serve (10 R252). -/
def turnFunc (s : State) : Option Nat :=
  let fs := (s.requests.filter fun r => !backingStalls s r).foldl (fun l r => insertNat r.func l) []
  (fs.find? fun f => decide (s.lastServed < f)).or fs.head?

/-- Whether a request is next: its function's turn has come, and those of its function before it wait for their backing (10
R252). -/
def servedNext (s : State) (x va : Nat) : Bool :=
  let f := (s.ctx x).func
  let this (r : PageReq) : Bool := r.ctx == x && r.va == va
  s.requests.any this && turnFunc s == some f &&
    ((s.requests.takeWhile fun r => !this r).all fun r => r.func != f || backingStalls s r)

/-- PAGE_REQUEST_COMPLETE for the page of context `x` at `va`, on a frame (10 R245, R252, R253, R258). -/
def execPageRequestComplete (x va frame : Nat) (s : State) : Host.Outcome State Fault Refusal :=
  match (s.ctx x).mapped.find? fun p => p.1 == va with
  | none => .next s
  | some (_, k) =>
    let e := entryOf s x va
    if leafState e ≠ some .requested || s.shoot.any fun d => d.ctx == x && d.va == va then .next s
    else match requestData s x va k with
      | .bad => .next (match ((s.ctx x).backings.find? fun p => p.1 == va).map Prod.snd with
        | some b => s.placeErrors x b.place (pageSize k)
        | none => s)
      | .stall page st => .next (s.requestPage x page st)
      | .held => .next s
      | .cells p =>
        if !servedNext s x va || !withinQuota s x (4 ^ k) || !frameFree s frame k then .next s else
        let s := { s with lastServed := (s.ctx x).func }
        let good := pagePasses s x va
        let bit (i : Nat) : Bool := bitsOf e i 1 == 1
        let code := codePage s x va
        match ((s.dropRequests x va).pastePhys frame (pageSize k) p).mapResident x va k frame (bit 2) (bit 3) (bit 4)
            (code.isSome && good) with
        | none => .next s
        | some q =>
          match code with
          | some (i, n, _) =>
            .next (if good then q else
              q.notify (s.ctx x).func 2 x 0xFFFFFFFF 0 0 (BitVec.ofNat 32 n) (BitVec.ofNat 32 i) 0)
          | none => .next q

/-- PAGE_REQUEST_REFUSE for the page of context `x` at `va` (10 R245, R252): the page is UNMAPPED. -/
def execPageRequestRefuse (x va : Nat) (s : State) : Host.Outcome State Fault Refusal :=
  match (s.ctx x).mapped.find? fun p => p.1 == va with
  | none => .next s
  | some (_, k) =>
    if leafState (entryOf s x va) ≠ some .requested || !servedNext s x va || !refusable s x va k then .next s
    else .next (({ s with lastServed := (s.ctx x).func } : State).unmapPage x va k)

/-! ### Replication, permissions, tracking (10 R245, R261 to R263; 19 R428) -/

/-- PAGE_REPLICATE of the page of context `x` at `va` (10 R245, R261). DESIGN CHOICE, unsafe: the spec does not say what becomes of a
replication whose fifteen copies would exceed the quota or find no frame; the page stays MAPPED (log 101). -/
def execPageReplicate (x va : Nat) (s : State) : Host.Outcome State Fault Refusal :=
  match (s.ctx x).mapped.find? fun p => p.1 == va with
  | none => .next s
  | some (_, k) =>
    let e := entryOf s x va
    let f := leafFrame e
    let others := (framesOf f true).filter (· != f)
    if leafState e ≠ some .mapped || !withinQuota s x (15 * 4 ^ k) || !(others.all fun a => rangeFree s a (pageSize k)) then .next s
    else
      let q := others.foldl (fun r a => r.copyFrame f a (pageSize k)) s
      .next (q.editLeaf x va fun e => setBit e 5 1)

/-- PAGE_END_REPLICATION of the page of context `x` at `va` (10 R245): the copies go once the shootdown is complete. -/
def execPageEndReplication (x va : Nat) (s : State) : Host.Outcome State Fault Refusal :=
  match (s.ctx x).mapped.find? fun p => p.1 == va with
  | none => .next s
  | some (_, k) =>
    let e := entryOf s x va
    if leafState e ≠ some .replicated then .next s
    else
      let d : Shootdown := { ctx := x, va := va, size := pageSize k, frame := leafFrame e, free := false, copies := true,
                             back := none }
      let q := (s.landLate s.late.length).editLeaf x va fun e => setBit e 5 0
      .next { q with shoot := q.shoot ++ [d] }

/-- PAGE_PERMISSION_CHANGE of the page of context `x` at `va` (10 R245): a page MAPPED or MIGRATING. Narrowing, and a change
of PTAG, take a shootdown. -/
def execPagePermissionChange (x va : Nat) (r w e part : Bool) (tag : Nat) (s : State) : Host.Outcome State Fault Refusal :=
  match (s.ctx x).mapped.find? fun p => p.1 == va with
  | none => .next s
  | some (_, k) =>
    let o := entryOf s x va
    if leafState o ≠ some .mapped && leafState o ≠ some .migrating then .next s
    else
      let bit (b : Bool) : Nat := if b then 1 else 0
      let perm := setBit (setBit (setBit (setBit o 2 (bit r)) 3 (bit w)) 4 (bit e)) 53 (bit part)
      let n := perm - bitsOf perm 54 10 * 2 ^ 54 + tag % 1024 * 2 ^ 54
      let d : Shootdown := { ctx := x, va := va, size := pageSize k, frame := leafFrame o, free := false, copies := false,
                             back := none }
      let lost (i : Nat) : Bool := bitsOf o i 1 == 1 && bitsOf n i 1 == 0
      let narrow := lost 2 || lost 3 || lost 4 || (bitsOf o 53 1 == 0 && part) || bitsOf o 54 10 != bitsOf n 54 10
      let q := s.editLeaf x va fun _ => n
      .next (if narrow then { q with shoot := q.shoot ++ [d] } else q)

/-- States in which tracking may be turned on and off (19 R411). -/
def trackStates (c : CtxState) : Bool := mappingStates c || c == .quiesced

/-- A MAPPED page begins to be tracked (10 R245). -/
def trackPage (x va k : Nat) (s : State) : State :=
  if pageState s x va = some .mapped then
    (s.clearDirty (leafFrame (entryOf s x va)) (pageSize k)).editLeaf x va fun e => setBit e 9 1
  else s

/-- TRACK_START (10 R245; 19 R428). -/
def execTrackStart (f x : Nat) (s : State) : Host.Outcome State Fault Refusal :=
  .next (s.ctxCommand f x trackStates fun c =>
    .ok (c.mapped.foldl (fun q p => trackPage x p.1 p.2 q) (s.setCtx x { c with tracking := true })) [])

/-- TRACK_STOP (10 R245). -/
def execTrackStop (f x : Nat) (s : State) : Host.Outcome State Fault Refusal :=
  .next (s.ctxCommand f x trackStates fun c =>
    .ok (c.mapped.foldl (fun q p =>
      if pageState q x p.1 = some .migrating then q.editLeaf x p.1 (fun e => setBit e 9 0) else q)
      (s.setCtx x { c with tracking := false })) [])

/-- The dirty units of a context's MIGRATING and REPLICATED pages: the virtual address of each, with the units of the frames
that hold it (19 R428). -/
def dirtyUnits (s : State) (x : Nat) : List (Nat × List Nat) :=
  (s.ctx x).mapped.flatMap fun p =>
    let e := entryOf s x p.1
    let repl := leafState e == some .replicated
    if repl || leafState e == some .migrating then
      (List.range (4 ^ p.2)).filterMap fun i =>
        let us := (framesOf (leafFrame e) repl).map fun a => a / 2 ^ 17 + i
        if us.any fun u => s.dirty.contains u then some (p.1 + 2 ^ 17 * i, us) else none
    else []

/-- HARVEST of at most `limit` units to host memory at `out` (10 R263; 19 R428). -/
def State.harvestTo (s : State) (x out limit : Nat) : State × Nat :=
  let us := (dirtyUnits s x).take limit
  let bytes := us.flatMap fun u => leBytes u.1 8
  let gone := us.flatMap Prod.snd
  ({ s with hostMem := writeBytes s.hostMem out bytes, dirty := s.dirty.filter fun u => !gone.contains u }, us.length)

/-- HARVEST (19 R411, R428). -/
def execHarvest (f x out limit : Nat) (s : State) : Host.Outcome State Fault Refusal :=
  .next (s.ctxCommand f x (fun _ => true) fun c =>
    if c.mapped.isEmpty then .err 3
    else if !hostReach s f then .err 2
    else
      let r := s.harvestTo x out limit
      .ok r.1 [(1, BitVec.ofNat 32 r.2)])

end Sys2Proof.Machine
end

