-- ==== Sys2Proof/Machine/Image.lean ====
section
/-!
DEFINITION. The Aruth image: its header, sections, records and signed manifest, and the loader's checks of them (03 R70 to
R82; 17 R370 to R375).
-/

namespace Sys2Proof.Machine

/-! ### Sections and manifest (17 R370 to R372) -/

/-- A section's entry: kind, kernel index, offset and length, with its bytes. -/
structure Section where
  index  : Nat
  kind   : Nat
  kernel : Nat
  off    : Nat
  bytes  : List Byte
  deriving DecidableEq, Repr

/-- An image as read: its bytes up to the end of the manifest. -/
structure RawImage where
  head     : List Byte
  sections : List Section
  manifest : List Byte
  total    : Nat
  deriving DecidableEq, Repr

/-- Reads an image at an address of host memory; none where its header, its version or its target is not this part's, or the
manifest does not stand where R372 says. -/
def readImage (m : List Host.Cell) (a : Nat) : Option RawImage :=
  let w (i : Nat) : Nat := leNat (readBytes m (a + i) 4)
  let n := w 8
  let man := w 12
  let total := man + 112 + 48 * (w (man + 4) + w (man + 8))
  if w 0 ≠ 0x48545241 || w 4 ≠ 0x00010001 || n = 0 || 4096 < n || man % 8 ≠ 0 || w man ≠ 0x464E414D || w (man + 12) ≠ 0 ||
      2 ^ 24 < w (man + 4) + w (man + 8) then none
  else
    let entry (i : Nat) : Section :=
      let e := 16 + 16 * i
      { index := i, kind := w e, kernel := w (e + 4), off := w (e + 8),
        bytes := if w (e + 8) + w (e + 12) ≤ total then readBytes m (a + w (e + 8)) (w (e + 12)) else [] }
    if (List.range n).any fun i => decide (total < w (24 + 16 * i) + w (28 + 16 * i)) then none
    else some { head := readBytes m a (16 + 16 * n), sections := (List.range n).map entry,
                manifest := readBytes m (a + man) (total - man), total := total }

/-- Whether two sections overlap. -/
def overlaps (a b : Section) : Bool :=
  decide (a.off < b.off + b.bytes.length) && decide (b.off < a.off + a.bytes.length)

/-- Whether a relation holds of no two members of a list. -/
def noPair {α : Type} (r : α → α → Bool) : List α → Bool
  | [] => true
  | x :: t => t.all (fun y => !r x y && !r y x) && noPair r t

/-- The code sections in increasing kernel index. -/
def codeSections (im : RawImage) : List Section :=
  (List.range 256).filterMap fun k => im.sections.find? fun e => e.kind == 1 && e.kernel == k

/-- The pages of the code sections in the manifest's order: kernel and page number (17 R372). -/
def pagesOf (im : RawImage) : List (Nat × Nat) :=
  (codeSections im).flatMap fun e => (List.range (e.bytes.length / 131072)).map fun n => (e.kernel, n)

/-- The kernel, page number and hash of a page entry of the manifest; section entries have the same form (17 R372). -/
def manEntry (im : RawImage) (i : Nat) : Nat × Nat × BitVec 256 :=
  let bs := im.manifest.drop (48 + 48 * i)
  (leNat (bs.take 4), leNat ((bs.drop 4).take 4), hashAt (bs.drop 16))

/-- Whether the manifest lists the pages and the other sections in order, the hash of the header and of every section other
than code holds, and the signature verifies under the key (17 R371, R372). -/
def manifestOk (im : RawImage) (key : List Byte) : Bool :=
  let pages := pagesOf im
  let others := im.sections.filter fun e => e.kind != 1
  let np := leNat ((im.manifest.drop 4).take 4)
  let ns := leNat ((im.manifest.drop 8).take 4)
  let signed := im.manifest.take (im.manifest.length - 64)
  np == pages.length && ns == others.length && hashAt (im.manifest.drop 16) == sha256 im.head &&
    (((List.range np).zip pages).all fun p => (manEntry im p.1).1 == p.2.1 && (manEntry im p.1).2.1 == p.2.2) &&
    (((List.range ns).zip others).all fun p =>
      let e := manEntry im (np + p.1)
      e.1 == p.2.index && e.2.1 == p.2.kind && e.2.2 == sha256 p.2.bytes) &&
    ecdsaVerifies key (sha256 signed) (im.manifest.drop (im.manifest.length - 64))

/-! ### Records (17 R373, R374) -/

/-- A kernel header; `ok` says that it keeps the limits of R374. -/
def parseHeader (bs : List Byte) : KHeader :=
  let v := leNat (bs.take 16)
  let f (lo n : Nat) : Nat := bitsOf v lo n
  let handler := if f 45 1 = 1 then some (f 96 32) else none
  { handler := handler, codeLen := f 64 32, patchLen := f 46 9, macros := f 38 7, localLen := f 22 16, bars := f 17 5,
    vregs := f 11 6,
    ok := bs.length == 16 && f 0 11 == 0 && f 55 9 == 0 && decide (f 46 9 ≤ 256) && decide (f 38 7 ≤ 64) &&
      decide (f 22 16 ≤ 32768) && f 22 16 % 256 == 0 && decide (f 17 5 ≤ 16) && decide (f 11 6 ≤ 32) && f 64 32 % 4 == 0 &&
      decide (4 ≤ f 64 32) && decide (f 64 32 ≤ 4194304) && match handler with
        | none => true
        | some h => h % 4 == 0 && decide (h < f 64 32) }

/-- A slot entry. -/
def parseSlot (bs : List Byte) : SlotEntry :=
  let f (i : Nat) : Nat := leNat ((bs.drop i).take 2)
  { slot := f 0, sender := f 2, receiver := f 4, srcAt := f 6, dstAt := f 8, bytes := leNat ((bs.drop 12).take 4) }

/-- The slot entries of a group, and what follows. -/
def parseSlots : Nat → List Byte → List SlotEntry × Bool
  | 0, _ => ([], true)
  | n + 1, bs =>
    let r := parseSlots n (bs.drop 16)
    (parseSlot bs :: r.1, r.2 && leNat ((bs.drop 10).take 2) == 0 && decide (16 ≤ bs.length))

/-- The group records of a slot-table section; none where it breaks their format. -/
def parseGroups : Nat → List Byte → Option (List GroupDecl)
  | 0, bs => if bs.isEmpty then some [] else none
  | fuel + 1, bs =>
    if bs.isEmpty then some []
    else
      let n := leNat ((bs.drop 2).take 2)
      let o := leNat ((bs.drop 4).take 4)
      let z := leNat ((bs.drop 8).take 4)
      let es := parseSlots n (bs.drop 16)
      if bs.length < 16 || o / 2 ^ 20 ≠ 0 || z / 2 ^ 21 ≠ 0 || leNat ((bs.drop 12).take 4) ≠ 0 || !es.2 then none
      else (parseGroups fuel (bs.drop (16 + 16 * n))).map fun gs =>
        { launch := leNat (bs.take 1), channel := leNat ((bs.drop 1).take 1), row0 := bitsOf o 0 9, col0 := bitsOf o 9 11,
          rows := bitsOf z 0 10, cols := bitsOf z 10 11, entries := es.1 } :: gs

/-- The operations of a macro. -/
def parseOps : Nat → List Byte → List (Word × Word)
  | 0, _ => []
  | n + 1, bs => (wordAt bs 0, wordAt bs 1) :: parseOps n (bs.drop 8)

/-- Whether a word of parameter marks keeps its format. -/
def marksOk (w : Word) : Bool :=
  w.toNat / 2 ^ 9 == 0 && decide (bitsOf w.toNat 0 3 ≤ 4) && decide (bitsOf w.toNat 3 3 ≤ 4) && decide (bitsOf w.toNat 6 3 ≤ 4)

/-- Whether the parameter marks of an operation stand on fields that name registers (03 R79; 17 R373): the b field of an immediate
form is none, and a field that must be 0 takes no parameter. No arithmetic instruction has a path or z position. -/
def marksFit (w marks : Word) : Bool :=
  let major := (fmajor w).toNat
  let mark (i : Nat) : Bool := bitsOf marks.toNat i 3 != 0
  !(mark 6 && ((decide (2 ≤ major) && decide (major ≤ 7)) || major == 8)) &&
    ([0, 3, 6].all fun i => !mark i || match decodeWord (substitute w (BitVec.ofNat 32 (2 ^ i)) fun _ => 31) with
      | .ok _ => true
      | .error _ => false)

/-- Whether the vector registers that an operation names itself stand below `vregs` (03 R70): those that no parameter gives. -/
def vregsFit (vregs : Nat) (w marks : Word) : Bool :=
  match decodeWord (substitute w marks fun _ => 0), decodeWord (substitute w marks fun _ => 31) with
  | .ok i, .ok j => ((vregsNamed i).zip (vregsNamed j)).all fun p => p.1 != p.2 || decide (p.1.toNat < vregs)
  | _, _ => false

/-- Whether the operations of a macro are arithmetic, each with at most one modifier word before it (03 R70, R79). -/
def opsOk (vregs : Nat) : Bool → List (Word × Word) → Bool
  | after, [] => !after
  | after, (w, marks) :: rest =>
    if fmajor w = 0x3E#6 then
      !after && marks == 0 && (match decodeWord w with
        | .ok _ => true
        | .error _ => false) && opsOk vregs true rest
    else arithWord w && marksFit w marks && vregsFit vregs w marks && opsOk vregs false rest

/-- The macros of a section, in increasing number; none where it breaks their format. -/
def parseMacros (vregs least : Nat) : Nat → List Byte → Option (Table (List (Word × Word)))
  | 0, bs => if bs.isEmpty then some [] else none
  | fuel + 1, bs =>
    if bs.isEmpty then some []
    else
      let k := leNat (bs.take 1)
      let n := leNat ((bs.drop 1).take 1)
      let ops := parseOps n (bs.drop 4)
      if bs.length < 4 + 8 * n || k < least || 63 < k || n = 0 || 32 < n || leNat ((bs.drop 2).take 2) ≠ 0 ||
          !(ops.all fun o => marksOk o.2) || !opsOk vregs false ops then none
      else (parseMacros vregs (k + 1) fuel (bs.drop (4 + 8 * n))).map fun ms => (k, ops) :: ms

/-- Whether a run's padding, from its `n` bytes to `pad`, is zero (17 R373). -/
def padOk (bs : List Byte) (n pad : Nat) : Bool := ((bs.take pad).drop n).all (· == 0)

/-- The runs of a local image; none where it breaks their format. -/
def parseRuns : Nat → List Byte → Option (List LocalRun)
  | 0, bs => if bs.isEmpty then some [] else none
  | fuel + 1, bs =>
    if bs.isEmpty then some []
    else
      let n := (wordAt bs 3).toNat
      let pad := (n + 3) / 4 * 4
      if bs.length < 16 + pad || !padOk (bs.drop 16) n pad then none
      else (parseRuns fuel (bs.drop (16 + pad))).map fun rs =>
        { first := (wordAt bs 0).toNat, last := (wordAt bs 1).toNat, addr := (wordAt bs 2).toNat,
          bytes := (bs.drop 16).take n } :: rs

/-- A tree entry: handle, TFLAGS, record. -/
def parseTrees (least : Nat) : Nat → List Byte → Option (List (Nat × Nat × BitVec 256))
  | 0, bs => if bs.isEmpty then some [] else none
  | fuel + 1, bs =>
    if bs.isEmpty then some []
    else
      let h := leNat (bs.take 1)
      let fl := leNat ((bs.drop 1).take 1)
      if bs.length < 48 || h < least || 3 < fl || leNat ((bs.drop 2).take 14) ≠ 0 then none
      else (parseTrees (h + 1) fuel (bs.drop 48)).map fun ts =>
        (h, fl, BitVec.ofNat 256 (leNat ((bs.drop 16).take 32))) :: ts

/-- The runs of the global image: handle, target, offset, bytes; none where it breaks their format. -/
def parseGlobals : Nat → List Byte → Option (List (Nat × Nat × Nat × List Byte))
  | 0, bs => if bs.isEmpty then some [] else none
  | fuel + 1, bs =>
    if bs.isEmpty then some []
    else
      let n := leNat ((bs.drop 16).take 8)
      let pad := (n + 7) / 8 * 8
      if bs.length < 32 + pad || leNat ((bs.drop 24).take 8) ≠ 0 || !padOk (bs.drop 32) n pad then none
      else (parseGlobals fuel (bs.drop (32 + pad))).map fun gs =>
        ((wordAt bs 0).toNat, (wordAt bs 1).toNat, leNat ((bs.drop 8).take 8), (bs.drop 32).take n) :: gs

/-! ### The loader's checks (03 R70 to R79; 17 R373) -/

/-- Whether launch record `i` of kernel `k` in the image keeps the limits of R71, with the KSEL of its kernel and place (17 R377). -/
def launchOk (h : KHeader) (k i : Nat) (bs : List Byte) : Bool :=
  let r := decodeRecord bs
  let used := r.levels.takeWhile fun l => l.getLsbD 7
  r.ok && r.kernel == k && r.lindex == i && decide (1 ≤ r.rows) && decide (r.rows ≤ 512) && decide (1 ≤ r.cols) && decide (r.cols ≤ 1280) && decide (r.col0 < 1280) &&
    r.entry % 4 == 0 && decide (r.entry < h.codeLen) &&
    ((r.levels.drop used.length).all fun l => !l.getLsbD 7) &&
    ((used.zip (used.drop 1)).all fun p => decide (bitsOf p.1.toNat 0 3 < bitsOf p.2.toNat 0 3)) &&
    used.all fun l => decide (bitsOf l.toNat 4 3 ≤ 4)

/-- Whether two groups of one launch share a channel or a place (03 R72). -/
def groupsClash (a b : GroupDecl) : Bool :=
  a.launch == b.launch && (a.channel == b.channel ||
    (decide (a.row0 < b.row0 + b.rows) && decide (b.row0 < a.row0 + a.rows) &&
     decide (a.col0 < b.col0 + b.cols) && decide (b.col0 < a.col0 + a.cols)))

/-- Whether a slot entry keeps the limits of R72. -/
def slotOk (h : KHeader) (members : Nat) (e : SlotEntry) : Bool :=
  decide (e.slot < 512) && decide (e.sender < members) && decide (e.receiver < members) && e.bytes % 4 == 0 &&
    decide (4 ≤ e.bytes) && decide (e.bytes ≤ 32768) && decide (e.srcAt + e.bytes ≤ h.localLen) &&
    decide (e.dstAt + e.bytes ≤ h.localLen)

/-- Whether two entries of a group share a slot and an end (03 R72). -/
def slotsClash (a b : SlotEntry) : Bool := a.slot == b.slot && (a.sender == b.sender || a.receiver == b.receiver)

/-- Whether a group declaration keeps the limits of R70 and R72. -/
def groupOk (h : KHeader) (records : List LaunchRec) (g : GroupDecl) : Bool :=
  match records[g.launch]? with
  | none => false
  | some r =>
    decide (g.channel < h.bars) && decide (1 ≤ g.rows) && decide (1 ≤ g.cols) && decide (g.row0 + g.rows ≤ r.rows) &&
      decide (g.col0 + g.cols ≤ r.cols) && (g.entries.all (slotOk h (g.rows * g.cols))) && noPair slotsClash g.entries

/-- Whether a local run keeps the limits of R70 and R76. DESIGN CHOICE, unsafe: the spec does not say whether a run whose FIRST is above its
LAST is an error or names no core; here it is one (log 99). -/
def runOk (h : KHeader) (r : LocalRun) : Bool :=
  decide (r.addr + r.bytes.length ≤ h.localLen) &&
    (if r.first = 0xFFFFFFFF then r.last == 0xFFFFFFFF else lcoreOk r.first && lcoreOk r.last && decide (r.first ≤ r.last))

/-- Whether two local runs place a byte twice in some core (03 R76). DESIGN CHOICE (log 83): a run for every core and one for named
cores count as sharing a core, in whatever launch area the named cores lie. -/
def runsClash (a b : LocalRun) : Bool :=
  let every (r : LocalRun) : Bool := r.first == 0xFFFFFFFF
  !a.bytes.isEmpty && !b.bytes.isEmpty && (every a || every b || (decide (a.first ≤ b.last) && decide (b.first ≤ a.last))) &&
    decide (a.addr < b.addr + b.bytes.length) && decide (b.addr < a.addr + a.bytes.length)

/-- The bytes of a kernel's section of a kind; none where it has two. -/
def sectionOf (im : RawImage) (kind k : Nat) : Option (List Byte) :=
  match im.sections.filter fun e => e.kind == kind && e.kernel == k with
  | [] => some []
  | [e] => some e.bytes
  | _ => none

/-- The base of kernel `k`'s code in the context's space, unless a tree's fixed base takes it (log 15; see placeCode). -/
def codeBase (k : Nat) : Nat := if k = 0 then 0 else 2 ^ 52 + k * 2 ^ 22

/-- The launch records of a section. -/
def launchRecords (bs : List Byte) : List (List Byte) := (List.range (bs.length / 256)).map fun i => (bs.drop (256 * i)).take 256

/-- The hashes of a kernel's pages in the manifest. -/
def hashesOf (im : RawImage) (k : Nat) : Table (BitVec 256) :=
  let np := leNat ((im.manifest.drop 4).take 4)
  (List.range np).filterMap fun i =>
    let e := manEntry im i
    if e.1 = k then some (e.2.1, e.2.2) else none

/-- Whether a header keeps the limits of R70 and R73. -/
def headerFits (h : KHeader) : Bool :=
  decide (h.vregs ≤ 32) && decide (h.bars ≤ 16) && decide (h.macros ≤ 64) && decide (h.localLen ≤ 32768) && h.localLen % 256 == 0 &&
    decide (h.patchLen ≤ 256) && h.handler.all fun a => a % 4 == 0 && decide (a < h.codeLen)

/-- Whether a code section holds the bytes its header says, padded with zeros to whole pages (03 R82); a CODELEN that breaks R374
leaves only the page count. -/
def codeFits (h : KHeader) (code : List Byte) : Bool :=
  !code.isEmpty && code.length % 131072 == 0 && decide (code.length ≤ 4194304) &&
    (h.codeLen == 0 || decide (4194304 < h.codeLen) ||
      (code.length == alignUp h.codeLen 131072 && (code.drop h.codeLen).all (· == 0)))

/-- Kernel `k` of an image; none where its sections break their formats or the limits of R70 to R79 (17 R373). DEDUCED (log 83): a
header beyond the limits of R70 and R73 is refused here; what else breaks R374 rejects the launch (17 R375). -/
def parseKernel (im : RawImage) (k : Nat) : Option Kernel := do
  let code ← sectionOf im 1 k
  let hb ← sectionOf im 2 k
  let lb ← sectionOf im 3 k
  let gb ← sectionOf im 4 k
  let pb ← sectionOf im 5 k
  let mb ← sectionOf im 6 k
  let rb ← sectionOf im 8 k
  let h := parseHeader hb
  let groups ← parseGroups (gb.length / 16 + 1) gb
  let ms ← parseMacros h.vregs 0 (mb.length / 4 + 1) mb
  let runs ← parseRuns (rb.length / 16 + 1) rb
  let records := launchRecords lb
  if !headerFits h || !codeFits h code || hb.length ≠ 16 || lb.length % 256 ≠ 0 ||
      pb.length ≠ 4 * h.patchLen || !(((List.range records.length).zip records).all fun p => launchOk h k p.1 p.2) || !(groups.all (groupOk h (records.map decodeRecord))) ||
      !(noPair groupsClash groups) || !(ms.all fun m => decide (m.1 < h.macros)) || !(runs.all (runOk h)) ||
      !(noPair runsClash runs) then none
  else some { header := h, code := code, codeVa := codeBase k, hashes := hashesOf im k, nLaunch := records.length,
              groups := groups, patch := wordsIn pb, macros := ms, runs := runs }

/-- The kernels of an image in order of their index; none where one breaks its format. -/
def parseKernels (im : RawImage) : List Nat → Option (Table Kernel)
  | [] => some []
  | k :: ks =>
    if im.sections.any fun e => e.kernel == k && (decide (e.kind ≤ 6) || e.kind == 8) then do
      let a ← parseKernel im k
      let rest ← parseKernels im ks
      some ((k, a) :: rest)
    else parseKernels im ks

/-- The bytes of the scale array of a tree (08 R193). -/
def scaleSize (depth : Nat) : Nat := (4 ^ depth + 31) / 32

/-- The record of a tree entry with its bases filled in. -/
def fillRecord (r : BitVec 256) (base sbase : Nat) : BitVec 256 :=
  r ||| BitVec.ofNat 256 base ||| BitVec.ofNat 256 (sbase / 32 * 2 ^ 69)

/-- Whether a tree entry keeps the limits of R74: its record is valid with its bases filled in. -/
def treeEntryOk (t : Nat × Nat × BitVec 256) : Bool :=
  let v := t.2.2.toNat
  (t.2.1 % 2 == 1 || bitsOf v 0 64 == 0) && bitsOf v 64 64 == 0 && (treeOf t.2.2).isSome

/-- The tree of a handle among the entries. -/
def entryTree (ts : List (Nat × Nat × BitVec 256)) (h : Nat) : Option Tree :=
  (ts.find? fun t => t.1 == h).bind fun t => treeOf t.2.2

/-- Whether a global run keeps the limits of R77. -/
def globalOk (ts : List (Nat × Nat × BitVec 256)) (g : Nat × Nat × Nat × List Byte) : Bool :=
  match entryTree ts g.1 with
  | none => false
  | some t =>
    if g.2.1 = 0 then decide (g.2.2.1 + g.2.2.2.length ≤ treeSize t.fmt t.depth)
    else g.2.1 == 1 && t.scaled && decide (g.2.2.1 + g.2.2.2.length ≤ scaleSize t.depth)

/-- Whether two global runs place a byte twice (03 R77). -/
def globalsClash (a b : Nat × Nat × Nat × List Byte) : Bool :=
  a.1 == b.1 && a.2.1 == b.2.1 && !a.2.2.2.isEmpty && !b.2.2.2.isEmpty && decide (a.2.2.1 < b.2.2.1 + b.2.2.2.length) && decide (b.2.2.1 < a.2.2.1 + a.2.2.2.length)

/-- An image the loader has verified, with its tree entries; none where it refuses it (17 R371, R373). -/
def loadImage (m : List Host.Cell) (a key : Nat) : Option (Image × List (Nat × Nat × BitVec 256)) := do
  let im ← readImage m a
  let tb ← sectionOf im 7 (((im.sections.find? fun e => e.kind == 7).map Section.kernel).getD 0)
  let gb ← sectionOf im 9 (((im.sections.find? fun e => e.kind == 9).map Section.kernel).getD 0)
  let ks ← parseKernels im (List.range 256)
  let ts ← parseTrees 0 (tb.length / 48 + 1) tb
  let gs ← parseGlobals (gb.length / 32 + 1) gb
  if !(noPair overlaps im.sections) || !(im.sections.all fun e => decide (1 ≤ e.kind) && decide (e.kind ≤ 9) && decide (e.kernel < 256)) ||
      decide (1 < (im.sections.filter fun e => e.kind == 7).length) || decide (1 < (im.sections.filter fun e => e.kind == 9).length) ||
      !(ts.all treeEntryOk) || !(gs.all (globalOk ts)) || !(noPair globalsClash gs) || !(manifestOk im (readBytes m key 64)) then none
  else some ({ kernels := ks, trees := ts.map (fun t => (t.1, t.2.2)), globals := gs,
               demands := (ts.filter fun t => decide (2 ≤ t.2.1)).map Prod.fst, manifest := sha256 im.manifest }, ts)

end Sys2Proof.Machine
end

