-- ==== Sys2Proof/Machine/Executive.lean ====
section
/-!
DEFINITION. The life of a context and of a partition (14 R322; 17 R370 to R375, R395; 18 R405, R406; 19 R409 to R412, R418,
R421 to R424; 21 R448): the loader, CREATE, TERMINATE and zeroing, SETPARM, partitions and re-admission.
-/

namespace Sys2Proof.Machine

/-! ### Addresses the executive chooses (log 5) -/

/-- The smallest size field whose page holds `n` bytes; the largest, where none does. -/
def sizeFor (n : Nat) : Nat := ((List.range 9).find? fun k => decide (n ≤ pageSize k)).getD 8

/-- The lowest address from 2^40 on for `n` bytes that meets no span taken. -/
def placeSpan (taken : List (Nat × Nat)) (n : Nat) : Nat :=
  let al := pageSize (sizeFor n)
  let free (a : Nat) : Bool := taken.all fun t => decide (t.1 + t.2 ≤ a) || decide (a + n ≤ t.1)
  (leastOf ((2 ^ 40 :: taken.map fun t => alignUp (max (2 ^ 40) (t.1 + t.2)) al).filter free)).getD (2 ^ 53)

/-! ### The loader (03 R74, R77; 10 R258; 17 R371, R373, R395) -/

/-- The spans of a context's code. -/
def codeSpans (im : Image) : List (Nat × Nat) := im.kernels.map fun p => (p.2.codeVa, p.2.code.length)

/-- The span of a tree's elements and of its scale array. -/
def spansOf (r : BitVec 256) : List (Nat × Nat) :=
  match treeOf r with
  | none => []
  | some t => (t.base, treeSize t.fmt t.depth) :: (if t.scaled then [(t.sbase, scaleSize t.depth)] else [])

/-- Whether two spans share a 128 KiB unit. -/
def spansMeet (a b : Nat × Nat) : Bool :=
  decide (a.1 / 2 ^ 17 * 2 ^ 17 < b.1 + b.2) && decide (b.1 / 2 ^ 17 * 2 ^ 17 < a.1 + a.2)

/-- The tree records with the bases the loader chooses filled in. -/
def placeTrees : List (Nat × Nat × BitVec 256) → List (Nat × Nat) → Table (BitVec 256)
  | [], _ => []
  | (h, fl, r) :: rest, taken =>
    match treeOf r with
    | none => placeTrees rest taken
    | some t =>
      let n := treeSize t.fmt t.depth
      let b := if fl % 2 = 1 then t.base else placeSpan taken n
      let sb := if t.scaled then placeSpan ((b, n) :: taken) (scaleSize t.depth) else 0
      let r1 := fillRecord r (if fl % 2 = 1 then 0 else b) sb
      (h, r1) :: placeTrees rest (spansOf r1 ++ taken)

/-- The kernels with the bases of their code: each at its own base, or elsewhere where a span taken meets it (03 R74; log 15). -/
def placeCode : Table Kernel → List (Nat × Nat) → Table Kernel
  | [], _ => []
  | (i, k) :: rest, taken =>
    let n := k.code.length
    let va := if taken.any (spansMeet (k.codeVa, n)) then placeSpan taken n else k.codeVa
    (i, { k with codeVa := va }) :: placeCode rest ((va, n) :: taken)

/-- The image and the tree records of a context as they stand in its space: trees of a fixed base first, then the code, then the
trees whose bases the loader chooses (03 R74); none where a tree leaves the address space. -/
def layoutFor (im : Image) (ts : List (Nat × Nat × BitVec 256)) : Option (Image × Table (BitVec 256)) :=
  let fixed := ts.flatMap fun t => if t.2.1 % 2 = 1 then spansOf t.2.2 else []
  let im1 := { im with kernels := placeCode im.kernels fixed }
  let placed := placeTrees ts (codeSpans im1 ++ fixed)
  if placed.length ≠ ts.length || (placed.any fun p => (treeOf p.2).isNone) ||
      (placed.any fun p => (spansOf p.2).any fun a => (codeSpans im1).any (spansMeet a)) ||
      im1.kernels.any (fun k => decide (2 ^ 53 < k.2.codeVa + k.2.code.length)) then none
  else some (im1, placed)

/-- The core table at an address of host memory, by the entries that are not zero (17 R395). -/
def readTable (m : List Host.Cell) (a : Nat) : Table Word :=
  ((m.filter fun c => decide (a ≤ c.1) && decide (c.1 < a + 2 ^ 22)).map fun c => (c.1 - a) / 4).foldl
    (fun t n => if has n t then t else put n (readWord m (a + 4 * n)) t) []

/-- Maps a zeroed page readable and writable at an address; none without a frame or a table. -/
def State.mapZeroed (s : State) (x va k : Nat) : Option State :=
  if meetsPage s x va (pageSize k) then some s
  else match pickFrame s k with
    | none => none
    | some frame => (s.zeroPhys frame (pageSize k)).mapResident x va k frame true true false false

/-- The largest page at `a` that is aligned, ends by `stop` and meets no mapped page. -/
def bestSize (s : State) (x a stop : Nat) : Nat :=
  (((List.range 9).filter fun k => a % pageSize k == 0 && decide (a + pageSize k ≤ stop) && !meetsPage s x a (pageSize k)).foldl
    max 0)

/-- Maps every page from `a` to `stop`. -/
def mapSpan (x stop : Nat) : Nat → Nat → State → Option State
  | 0, _, _ => none
  | n + 1, a, s =>
    if stop ≤ a then some s
    else match pageAt s x a with
      | some (b, k) => mapSpan x stop n (b + pageSize k) s
      | none =>
        let k := bestSize s x a stop
        match s.mapZeroed x a k with
        | none => none
        | some q => mapSpan x stop n (a + pageSize k) q

/-- The bytes a global run places: its address and data (03 R77; 17 R373). -/
def globalPlace (trees : Table (BitVec 256)) (g : Nat × Nat × Nat × List Byte) : Option (Nat × List Byte) :=
  (treeOf (look 0#256 g.1 trees)).map fun t => ((if g.2.1 = 0 then t.base else t.sbase) + g.2.2.1, g.2.2.2)

/-- Applies a step that may fail to every member of a list. -/
def each {α : Type} (f : α → State → Option State) : List α → State → Option State
  | [], s => some s
  | x :: t, s => match f x s with
    | none => none
    | some q => each f t q

/-- The 128 KiB units that runs of placed data meet, rising. -/
def placedUnits (gs : List (Nat × List Byte)) : List Nat :=
  gs.foldl (fun l g =>
    (List.range ((g.1 + g.2.length - 1) / 2 ^ 17 - g.1 / 2 ^ 17 + 1)).foldl (fun m i => insertNat (g.1 / 2 ^ 17 + i) m) l) []

/-- The largest page size whose aligned group around a unit is mapped whole and meets no page of another tree (10 R264). -/
def groupSize (s : State) (x : Nat) (units : List Nat) (u : Nat) : Nat :=
  ((List.range 9).filter fun k =>
    let n := pageSize k / 2 ^ 17
    (units.filter fun v => v / n == u / n).length == n && !meetsPage s x (u / n * pageSize k) (pageSize k)).foldl max 0

/-- Maps the units that hold placed data, aligned groups of them as larger pages (10 R264). -/
def mapUnits (x : Nat) (units : List Nat) (s : State) : Option State :=
  each (fun (u : Nat) q =>
    if meetsPage q x (u * 2 ^ 17) (2 ^ 17) then some q
    else
      let k := groupSize q x units u
      q.mapZeroed x (u * 2 ^ 17 / pageSize k * pageSize k) k) units s

/-- Maps the pages of a tree: all of them, or for a `demand` tree those that hold placed data (03 R74; 10 R264). -/
def mapTree (x : Nat) (im : Image) (p : Nat × BitVec 256) (s : State) : Option State :=
  if im.demands.contains p.1 then
    mapUnits x (placedUnits ((im.globals.filter fun g => g.1 == p.1 && !g.2.2.2.isEmpty).filterMap
      (globalPlace (s.ctx x).trees))) s
  else
    each (fun (a : Nat × Nat) q => mapSpan x (alignUp (a.1 + a.2) (2 ^ 17)) (2 ^ 20) (a.1 / 2 ^ 17 * 2 ^ 17) q) (spansOf p.2) s

/-- Maps the code pages of a kernel on demand (10 R258). -/
def mapCode (x : Nat) (p : Nat × Kernel) (s : State) : Option State :=
  each (fun (n : Nat) q =>
    q.writeLeaf x (p.2.codeVa + 2 ^ 17 * n) 0 (leafEntry 0 0 false false true true false false 1 (q.ctx x).tag))
    (List.range (p.2.code.length / 2 ^ 17)) s

/-- Writes the placed data of the global image (03 R77). -/
def State.writeGlobals (s : State) (x : Nat) : State :=
  let c := s.ctx x
  (c.image.globals.filterMap (globalPlace c.trees)).foldl
    (fun q g => writeCuts c.func x (pieceOf g.2) (cutsOf g.1 g.2.length) q) s

/-- The tables, pages and data of a context being loaded; none where frames or tables run out. -/
def State.loadContext (s : State) (x : Nat) : Option State :=
  match s.newTable with
  | none => none
  | some (root, s1) =>
    let s2 := s1.setCtx x { s1.ctx x with root := root }
    let c := s2.ctx x
    match each (mapCode x) c.image.kernels s2 with
    | none => none
    | some s3 => (each (mapTree x c.image) c.trees s3).map fun s4 => s4.writeGlobals x

/-- The lowest context number that is free (19 R409). -/
def freeContext (s : State) : Option Nat := (List.range 4096).find? fun x => (s.ctx x).st == .free

/-- CREATE (17 R371; 19 R411, R412; 21 R452). -/
def execCreate (f image key table : Nat) (s : State) : Host.Outcome State Fault Refusal :=
  .next (s.command f fun _ =>
    if (s.func f).tag = 0 then .err 4
    else if 2 ^ 64 ≤ image || 2 ^ 64 ≤ key || 2 ^ 64 ≤ table || !hostReach s f then .err 2
    else if s.overTemp then .err 5
    else match freeContext s with
      | none => .err 5
      | some x =>
        match loadImage s.hostMem image key with
        | none => .err 6
        | some (im, ts) =>
          match layoutFor im ts with
          | none => .err 6
          | some (im1, trees) =>
            .begun (s.setCtx x { Context.reset with
              st := .loading, func := f, tag := (s.func f).tag, image := im1, trees := trees,
              table := if table = 0 then none else some (readTable s.hostMem table) }))

/-- CONTEXT_LOAD_COMPLETE of context `x` (19 R412): READY, or FREE again where the module's memory does not hold it. -/
def execContextLoadComplete (x : Nat) (s : State) : Host.Outcome State Fault Refusal :=
  let c := s.ctx x
  if c.st ≠ .loading then .next s
  else match s.loadContext x with
    | none => .next (({ s with contexts := drop x s.contexts } : State).finish c.func 5 [])
    | some q =>
      .next (((q.setCtx x { q.ctx x with st := .ready }).joinFunctions c.func).finish c.func 0 [(0, BitVec.ofNat 32 x)])

/-! ### TERMINATE and zeroing (14 R322; 19 R412; 20 R441; 21 R448) -/

/-- Reports every launch of a context as TERMINATED; there is no signal (18 R401; 19 R412). -/
def State.reportTerminated (s : State) (x : Nat) : State :=
  (s.ctx x).launches.foldl (fun q p => q.report p.2.origin 5 0 p.1) s

/-- Every queue of a context changed. -/
def State.mapQueues (s : State) (x : Nat) (k : HQueue → HQueue) : State :=
  { s with queues := s.queues.map fun p => if p.2.ctx == x && p.2.st != .absent then (p.1, k p.2) else p }

/-- Every lane of a context changed. -/
def State.mapLanes (s : State) (x : Nat) (k : Lane → Lane) : State :=
  { s with lanes := s.lanes.map fun p => if p.2.owner == some x then (p.1, k p.2) else p }

/-- Aborts the open epochs of a context (20 R441). -/
def State.abortOpen (s : State) (x reason : Nat) : State :=
  let f := (s.ctx x).func
  (s.func f).windows.foldl (fun q p =>
    if p.2.en && p.2.isOpen && p.2.lctx == x then q.abortEpoch f p.1 reason else q) s

/-- Drops a context's translations and tree records from the caches. -/
def State.dropCached (s : State) (x : Nat) : State :=
  { s with clusters := s.clusters.map fun p =>
      (p.1, { p.2 with cached := p.2.cached.filter (fun r => r.1 != x), fills := p.2.fills.filter (fun r => r.1 != x) }) }

/-- A context terminated (19 R412). -/
def State.terminateCtx (s : State) (x : Nat) : State :=
  let s1 := (s.reportTerminated x).abortOpen x 2
  let s2 := ((s1.withdrawRequests x).mapQueues x fun q => { q with st := .disabled }).vacate x
  let s3 := s2.mapLanes x fun l => { Lane.reset with owner := l.owner }
  s3.setCtx x { s3.ctx x with st := .terminated, launches := [], pool := [], saveArea := [], pending := false,
                              deferred := false, resuming := false, suspended := false, haltKind := .none }

/-- TERMINATE (19 R411, R412): a TERMINATED context stands as it is. -/
def execTerminate (f x : Nat) (s : State) : Host.Outcome State Fault Refusal :=
  .next (s.ctxCommand f x (fun _ => true) fun c => .ok (if c.st = .terminated then s else s.terminateCtx x) [])

/-- Whether a queue of a context still waits for the page of a report (18 R401). -/
def owesReports (s : State) (x : Nat) : Bool := (queuesOf s x).any fun q => !q.2.reports.isEmpty

/-- The combs of a context removed from every cluster (15 R343; 21 R448). -/
def State.dropCtxCombs (s : State) (x : Nat) : State :=
  (s.clusters.map Prod.fst).foldl (fun q k => q.dropCombs k fun c => c.ctx == x) s

/-- ZEROING_COMPLETE of context `x` (19 R412; 21 R448): its frames, rings and pool are zeroed, its lanes and queues given up,
once its shootdowns are complete and its reports written. -/
def execZeroingComplete (x : Nat) (s : State) : Host.Outcome State Fault Refusal :=
  let c := s.ctx x
  if c.st ≠ .terminated || (s.shoot.any fun d => d.ctx == x) || owesReports s x then .next s
  else
    let s1 := (rangesOf s x).foldl (fun q r => q.zeroPhys r.1 r.2) s
    let s2 := ((s1.mapQueues x fun _ => HQueue.reset).mapLanes x fun _ => Lane.reset).dropCached x |>.dropCtxCombs x
    .next (({ s2 with contexts := drop x s2.contexts } : State).leaveFunctions c.func)

/-! ### SETPARM (14 R322; 18 R405, R406; 19 R411, R415; 10 R253) -/

/-- A SETPARM command. -/
def State.setparm (s : State) (f x : Nat) (ok : Bool) (k : Context → Reply) : State :=
  s.ctxCommand f x (fun st => st != .faulted && st != .terminated) fun c => if ok then k c else .err 2

/-- SETPARM weight (18 R406). -/
def execSetparmWeight (f x value : Nat) (s : State) : Host.Outcome State Fault Refusal :=
  .next (s.setparm f x (decide (1 ≤ value) && decide (value ≤ 255)) fun c => .ok (s.setCtx x { c with weight := value }) [])

/-- SETPARM slice, in microseconds (18 R405). -/
def execSetparmSlice (f x value : Nat) (s : State) : Host.Outcome State Fault Refusal :=
  .next (s.setparm f x (decide (250 ≤ value) && decide (value ≤ 64000)) fun _ =>
    .ok (s.setFunc f { s.func f with sliceUs := value }) [])

/-- SETPARM boundary wait, in milliseconds (19 R411, R415). -/
def execSetparmBoundaryWait (f x value : Nat) (s : State) : Host.Outcome State Fault Refusal :=
  .next (s.setparm f x (decide (1 ≤ value) && decide (value ≤ 1000)) fun _ =>
    .ok (s.setFunc f { s.func f with waitMs := value }) [])

/-- SETPARM lane request (14 R322; 19 R411): the lanes asked for that no context owns are granted, their state zeroed. -/
def execSetparmLaneRequest (f x : Nat) (mask : BitVec 32) (s : State) : Host.Outcome State Fault Refusal :=
  .next (s.setparm f x true fun c =>
    let got := (List.range 32).filter fun n => mask.getLsbD n && (s.lane n).owner.isNone
    let word : Word := got.foldl (fun (w : Word) n => w ||| BitVec.twoPow 32 n) 0
    let q := got.foldl (fun (q : State) n => q.setLane n { Lane.reset with owner := some x }) s
    .ok (q.setCtx x { c with laneMask := c.laneMask ||| word }) [(1, word)])

/-- SETPARM page quota, in units of 128 KiB; 0 lifts it (10 R253; 19 R411). -/
def execSetparmPageQuota (f x value : Nat) (s : State) : Host.Outcome State Fault Refusal :=
  .next (s.setparm f x true fun c => .ok (s.setCtx x { c with quota := value }) [])

/-! ### Partitions (19 R421, R424) -/

/-- The contexts that a change of tags takes a core from (19 R421). -/
def losers (s : State) (cs : List Nat) (tag : Nat) : List Nat :=
  (s.contexts.filter fun p => p.2.st != .free && p.2.tag != tag && cs.any (tableNames s p.1)).map Prod.fst

/-- Whether a context holds its cores until it stops. -/
def holdsCores (c : CtxState) : Bool := c == .loading || c == .running || c == .faulted || c == .terminated

/-- Marks a stopped context SUSPENDED. -/
def State.markSuspended (s : State) (x : Nat) : State :=
  let c := s.ctx x
  if c.st = .preempted || c.st = .quiesced || c.st = .saved then s.setCtx x { c with suspended := true, resuming := false } else s

/-- A core whose tag changes: zeroed before its new owner uses it (19 R421; 21 R448). -/
def State.moveCore (s : State) (tag c : Nat) : State :=
  if tagOf s c = tag then s
  else
    let s1 := s.modCore c fun k => { k.vacant with zeroUntil := s.now + 512 }
    { s1 with tags := put c tag s1.tags }

/-- A change of tags made once no context holds the cores it takes, and none of them is in retention (08 R215; 19 R421; 21 R448). -/
def State.applyTags (s : State) (p : List Nat × Nat) : State :=
  let xs := losers s p.1 p.2
  let moved := p.1.filter fun c => tagOf s c != p.2
  if xs.any fun x => holdsCores (s.ctx x).st then s
  else if moved.any fun c => (s.core c).retention != .awake then moved.foldl (fun q c => q.modCore c fun k => k.rouse s.now) s
  else
    let s1 := xs.foldl State.markSuspended s
    p.1.foldl (fun q c => q.moveCore p.2 c) { s1 with pendTags := s1.pendTags.erase p }

/-- Every change of tags that waits, tried in order. -/
def State.settleTags (s : State) : State := s.pendTags.foldl State.applyTags s

/-- A change of tags begun: RUNNING contexts that lose a core are pre-empted, stopped ones marked (19 R421). -/
def State.retag (s : State) (cs : List Nat) (tag : Nat) : State :=
  let xs := losers s cs tag
  let s1 := xs.foldl (fun q x => (q.preemptCtx x .host).markSuspended x) { s with pendTags := s.pendTags ++ [(cs, tag)] }
  s1.settleTags

/-- The cores of a partition. -/
def coresOfTag (s : State) (tag : Nat) : List Nat := (s.tags.filter fun p => p.2 == tag).map Prod.fst

/-- The physical core ids whose bits are set in a bitmap of 2^21 bits at an address of host memory, rising (19 R421). -/
def bitmapCores (m : List Host.Cell) (a : Nat) : List Nat :=
  (m.filter fun c => decide (a ≤ c.1) && decide (c.1 < a + 2 ^ 18)).flatMap fun c =>
    ((List.range 8).filter fun i => c.2.getLsbD i).map fun i => 8 * (c.1 - a) + i

/-- PARTSET (19 R411, R421): the bitmap stands in host memory. -/
def execPartset (f tag bitmap : Nat) (s : State) : Host.Outcome State Fault Refusal :=
  .next (s.command f fun _ =>
    let cores := bitmapCores s.hostMem bitmap
    if f ≠ adminFunc then .err 4
    else if tag = 0 || 1023 < tag || 2 ^ 64 ≤ bitmap || !hostReach s f ||
        !(cores.all fun c => namesCore c && rowEnabled s (dieOf c) (rowOf c)) then .err 2
    else .ok (s.retag cores tag) [])

/-- PARTDROP (19 R411, R421). -/
def execPartdrop (f tag : Nat) (s : State) : Host.Outcome State Fault Refusal :=
  .next (s.command f fun _ =>
    if f ≠ adminFunc then .err 4
    else if tag = 0 || 1023 < tag || (coresOfTag s tag).isEmpty then .err 2
    else .ok (s.retag (coresOfTag s tag) 0) [])

/-- PARTFUNC (19 R411, R424). -/
def execPartfunc (f g tag : Nat) (s : State) : Host.Outcome State Fault Refusal :=
  .next (s.command f fun _ =>
    if f ≠ adminFunc then .err 4
    else if adminFunc < g || (tag ≠ 0 && (coresOfTag s tag).isEmpty) then .err 2
    else if !(ctxsOf s g).isEmpty then .err 3
    else .ok (s.setFunc g { s.func g with tag := tag }) [])

/-! ### Re-admission (19 R421; log 5) -/

/-- The logical cores that the launches of a context use (19 R421). -/
def usedLcores (c : Context) : List Nat :=
  c.launches.foldl (fun l p => (areaOf p.2.record).foldl (fun m n => insertNat n m) l) (c.saveArea.map Prod.fst)

/-- The physical core that a table names for a logical core, valid or not. -/
def namedCore (s : State) (x n : Nat) : Nat :=
  match (s.ctx x).table with
  | none => (defaultCore s n).getD (2 ^ 21)
  | some t => bitsOf (look 0#32 n t).toNat 0 21

/-- Places for a list of items, each by the first of its options that agrees with those before it and leads to a whole that
passes; none where there is none. -/
def searchPlaces {α : Type} (agrees : List (Nat × Nat) → Bool) (passes : List (Nat × Nat) → Bool)
    (options : α → List (List (Nat × Nat))) : List α → List (Nat × Nat) → Option (List (Nat × Nat))
  | [], done => if passes done then some done else none
  | a :: rest, done => (options a).findSome? fun ps =>
      if agrees (ps ++ done) then searchPlaces agrees passes options rest (ps ++ done) else none

/-- The logical core to which the default mapping gives a physical core (01 R16). -/
def defaultLcore (s : State) (c : Nat) : Nat :=
  let d := dieOf c
  (d / 8 * 256 + rankOf s d (rowOf c)) * 2048 + d % 8 * 160 + colOf c

/-- The valid entries of a context's core table: logical and physical core. -/
def otherEntries (s : State) (x : Nat) : List (Nat × Nat) :=
  match (s.ctx x).table with
  | none => (coresOfTag s (s.ctx x).tag).map fun c => (defaultLcore s c, c)
  | some t => t.filterMap fun p => (grantedCore s x p.1).map fun c => (p.1, c)

/-- Whether what a saved core holds binds it to its place in its cluster: a gang, or a slice of the joint array. -/
def Core.bound (c : Core) : Bool := c.gangstat != 0 || c.slice.st != .unbound

/-- The logical cores of a context in parts that move to one cluster as a whole, each core to its own index: those of a former
cluster, where `whole` asks it of every cluster or a core is bound to its place; the others alone. -/
def movingParts (c : Context) (whole : Bool) (named : List (Nat × Nat)) : List (Bool × List (Nat × Nat)) :=
  (clustersOf (named.map Prod.snd)).flatMap fun k =>
    let ps := named.filter fun p => clusterOf p.2 == k
    if whole || ps.any fun p => (look Core.reset p.1 c.saveArea).bound then [(true, ps)] else ps.map fun p => (false, [p])

/-- The places a part may take among free cores, its own first. -/
def placesFor (free : List Nat) (part : Bool × List (Nat × Nat)) : List (List (Nat × Nat)) :=
  let here := part.2.map fun p => (p.1, p.2)
  let moves := if part.1 then (clustersOf free).map fun k => part.2.map fun p => (p.1, 8 * k + indexOf p.2)
    else free.map fun c => part.2.map fun p => (p.1, c)
  (here :: moves).filter fun ps => ps.all fun p => free.contains p.2

/-- Whether no two logical cores share a physical core. -/
def placesApart : List (Nat × Nat) → Bool
  | [] => true
  | p :: ps => (ps.all fun q => q.2 != p.2) && placesApart ps

/-- The valid entries of a core table. -/
def tableOf (ps : List (Nat × Nat)) : Table Word :=
  ps.foldl (fun t p => put p.1 (BitVec.ofNat 32 (2 ^ 31 + p.2)) t) []

/-- A core table that maps the logical cores a context uses to cores of its partition, keeps the hardware units of its launches'
levels, and lets the roots of its groups be cut (12 R282; 17 R378; 19 R421); none where there is none. Whole clusters are tried
before single cores (log 5). -/
def readmission (s : State) (x : Nat) : Option (Table Word) :=
  let c := s.ctx x
  let used := usedLcores c
  let named := used.map fun n => (n, namedCore s x n)
  let free := (coresOfTag s c.tag).filter fun k => rowEnabled s (dieOf k) (rowOf k)
  let agrees (ps : List (Nat × Nat)) : Bool :=
    placesApart ps && c.launches.all fun l =>
      let mine := ps.filter fun p => (areaOf l.2.record).contains p.1
      mine.all fun p => mine.all (unitsAgree s l.2.record p)
  let passes (ps : List (Nat × Nat)) : Bool :=
    let q := s.setCtx x { c with table := some (tableOf ps) }
    rootsApart q (c.launches.flatMap fun l => l.2.groups.map (resumedGroup q x))
  let search (whole : Bool) := searchPlaces agrees passes (placesFor free) (movingParts c whole named) []
  ((search true).or (search false)).map fun now =>
    let other := (otherEntries s x).filter fun p => !(used.contains p.1) && !(now.any fun q => q.2 == p.2)
    tableOf (now ++ other)

/-- A SUSPENDED context is re-admitted where its partition's cores hold it (19 R421). -/
def State.readmit (s : State) (x : Nat) : State :=
  let c := s.ctx x
  if !c.suspended || losesCore s x || !(c.st == .preempted || c.st == .quiesced || c.st == .saved) then s
  else if (usedLcores c).all fun n => (grantedCore s x n).isSome then s.setCtx x { c with suspended := false }
  else match readmission s x with
    | none => s
    | some t => s.setCtx x { c with suspended := false, table := some t }

/-- Commands whose context is gone complete with an error (log 5): nothing is loading or being saved any more for a function
whose mailbox is busy. -/
def State.settleMail (s : State) : State :=
  s.funcs.foldl (fun q p =>
    let mine (r : Context) : Bool := r.func == p.1 && (r.st == .loading || r.haltKind == .save)
    if p.2.busy && !(q.contexts.any fun r => mine r.2) then q.finish p.1 3 [] else q) s

end Sys2Proof.Machine
end

