-- ==== Sys2Proof/Machine/Links.lean ====
section
/-!
DEFINITION. Links, windows and collectives (16 R365; 20 R433 to R442): window descriptors, reduction epochs and their watchdog, the
life of a port, and function-level reset.
-/

namespace Sys2Proof.Machine

/-! ### Windows (20 R436) -/

/-- Window `w` of a function. -/
def Func.window (r : Func) (w : Nat) : Window := look Window.reset w r.windows

/-- Sets a window of a function. -/
def State.setWindow (s : State) (f w : Nat) (d : Window) : State :=
  s.setFunc f { s.func f with windows := put w d (s.func f).windows }

/-- The first byte beyond a window. -/
def Window.stop (d : Window) : Nat := d.base + 2 ^ 17 * d.len

/-- Whether the fields of a descriptor are good: BASE, LEN, WDOG and CTR keep their ranges. -/
def Window.fieldsOk (d : Window) : Bool :=
  d.base % 2 ^ 17 == 0 && decide (1 ≤ d.len) && decide (d.len ≤ 65536) && decide (d.stop ≤ 2 ^ 53) && decide (d.wdog ≤ 1000) &&
    (if d.kind then d.ctr % 4 == 0 && decide (d.ctr + 4 ≤ 2 ^ 53) && (decide (d.ctr + 4 ≤ d.base) || decide (d.stop ≤ d.ctr))
     else d.ctr == 0)

/-- Whether a window meets another in force of the same context. -/
def windowMeets (r : Func) (w : Nat) (d : Window) : Bool :=
  r.windows.any fun p => p.1 != w && p.2.en && p.2.lctx == d.lctx && decide (p.2.base < d.stop) && decide (d.base < p.2.stop)

/-- ERRC of a write of EN = 1: the first check that fails, in table order; 0 where all pass. -/
def windowError (s : State) (f w : Nat) (d : Window) : Nat :=
  let c := s.ctx d.lctx
  if !d.fieldsOk then 1
  else if windowMeets (s.func f) w d then 2
  else if c.st = .free || c.func ≠ f then 3
  else if d.home = s.modNum then (if d.kind then 0 else 4)
  else if reaches s d.home then 0 else 4

/-- WINDOW_ENABLE of window `w` of function `f`. -/
def execWindowEnable (f w : Nat) (s : State) : Host.Outcome State Fault Refusal :=
  let d := (s.func f).window w
  if 64 ≤ w || adminFunc < f || d.en || (s.func f).resetting || closedTo s f then .next s
  else
    let e := windowError s f w d
    .next (s.setWindow f w { d with en := e == 0, errc := e })

/-- WINDOW_DISABLE of window `w` of function `f`: an open epoch is aborted (20 R436, R441). -/
def execWindowDisable (f w : Nat) (s : State) : Host.Outcome State Fault Refusal :=
  if 64 ≤ w || adminFunc < f || !((s.func f).window w).en then .next s
  else
    let s1 := s.abortEpoch f w 4
    .next (s1.setWindow f w { (s1.func f).window w with en := false })

/-! ### Epochs (20 R438, R439) -/

/-- Whether an address lies in a window, its counter excluded. -/
def Window.holds (d : Window) (va : Nat) : Bool := decide (d.base ≤ va) && decide (va < d.stop)

/-- The switch's record of window `w` of a function. -/
def State.epochOf (s : State) (f w : Nat) : Epoch := look Epoch.reset (windowKey f w) s.epochs

/-- A contribution or a close as the switch keeps it, opening the epoch (20 R438). -/
def State.keepEpoch (s : State) (f w : Nat) (e : Epoch) : State :=
  let d := (s.func f).window w
  ({ s with epochs := put (windowKey f w) e s.epochs } : State).setWindow f w { d with isOpen := true }

/-- The atomic of this module's context that a contribution stands for, with its core. -/
def ownAtom (s : State) (x w core seq : Nat) (op : BitVec 4) (va : Nat) (operand : Word) : Option Atom :=
  let k := s.core core
  if k.ctx ≠ some x then none
  else k.atoms.find? fun a =>
    a.seq == seq && a.op == op && a.va == va && a.operand == operand && a.place == .switch w && !a.applied && k.firstAt a

/-- The first atomic of this module's context that closes a window, with its core. -/
def ownClose (s : State) (x w ctr : Nat) (op : BitVec 4) (operand compare : Word) : Option (Nat × Atom) :=
  s.cores.findSome? fun p =>
    if p.2.ctx ≠ some x then none
    else (p.2.atoms.find? fun a =>
      a.sysRel && a.op == op && decide (ctr ≤ a.va) && decide (a.va < ctr + 4) && a.operand == operand && a.compare == compare &&
        a.place == .switch w && !a.applied && p.2.firstAt a).map fun a => (p.1, a)

/-- A contribution joins the open epoch, or the next where its module has closed this one; none where it has closed both. -/
def Epoch.take (e : Epoch) (c : Contrib) : Option Epoch :=
  if !(e.closes.any fun k => k.1 == c.module) then some { e with parts := e.parts ++ [{ c with order := e.parts.length }] }
  else if !(e.nextClos.any fun k => k.1 == c.module) then
    some { e with nextPart := e.nextPart ++ [{ c with order := e.nextPart.length }] }
  else none

/-- A module closes the open epoch, or the next where it has closed this one; none where it has closed both. -/
def Epoch.close (e : Epoch) (m : Nat) (op : BitVec 4) (v cmp : Word) : Option Epoch :=
  if !(e.closes.any fun k => k.1 == m) then some { e with closes := e.closes ++ [(m, op, v, cmp)] }
  else if !(e.nextClos.any fun k => k.1 == m) then some { e with nextClos := e.nextClos ++ [(m, op, v, cmp)] }
  else none

/-- The core's atomic is applied with the answer 0 (11 R265). -/
def State.accepted (s : State) (core : Nat) (a : Atom) : State := s.modCore core fun k => k.atomDone a 0 0 false

/-- CONTRIBUTION_ACCEPT on window `w` of context `x` (20 R438): from a core of this module, or from a member module. -/
def execContributionAccept (x w : Nat) (part : Contribution) (s : State) : Host.Outcome State Fault Refusal :=
  let f := (s.ctx x).func
  let d := (s.func f).window w
  let e := s.epochOf f w
  if !d.en || !d.kind || d.lctx ≠ x then .next s
  else match part with
    | .value m core seq op va operand =>
      match e.take { module := m, core := core, seq := seq, op := op, va := va, operand := operand, order := 0 } with
      | none => .next s
      | some e1 =>
        if m = s.modNum then
          match ownAtom s x w core seq op va operand with
          | none => .next s
          | some a => .next ((s.keepEpoch f w e1).accepted core a)
        else if 64 ≤ m || !d.members.getLsbD m || !d.holds va || va % 4 ≠ 0 || !merges op then .next s
        else .next (s.keepEpoch f w e1)
    | .close m op operand compare =>
      match e.close m op operand compare with
      | none => .next s
      | some e1 =>
        if m = s.modNum then
          match ownClose s x w d.ctr op operand compare with
          | none => .next s
          | some (core, a) => .next ((s.keepEpoch f w e1).accepted core a)
        else if 64 ≤ m || !d.members.getLsbD m || 10 < op.toNat then .next s
        else .next (s.keepEpoch f w e1)

/-- Whether one contribution stands before another for the choice of a NaN: module, core, program order (20 R439). -/
def Contrib.before (a b : Contrib) : Bool :=
  decide (a.module < b.module) || (a.module == b.module && (decide (a.core < b.core) || (a.core == b.core && decide (a.seq ≤ b.seq))))

/-- The exact sum of finite values, rounded once; infinities and their clash as 20 R439 says. -/
def mergedSum (ws : List Word) : Word :=
  let infs (n : Bool) : Bool := ws.any fun w => value32 w == .inf n
  if infs true && infs false then 0x7FC00000#32
  else
    let add (a : Value) (w : Word) : Value := (fAdd .nearestEven a (value32 w)).1
    match ws with
    | [] => 0
    | w :: t => (round32 .nearestEven (t.foldl add (value32 w))).1

/-- M of the contributions of one op to one element (20 R439). -/
def mergedValue (op : BitVec 4) (cs : List Contrib) : Word :=
  let nans := cs.filter fun c => (value32 c.operand).isNaN
  match cs with
  | [] => 0
  | c :: t =>
    if op = 10 then
      match nans with
      | n :: ns => (ns.foldl (fun a b => if b.before a then b else a) n).operand ||| 0x00400000#32
      | [] => mergedSum (cs.map Contrib.operand)
    else t.foldl (fun m k => (atomicValue op m k.operand).1) c.operand

/-- The atomics one element receives, in order: the merged result, then contributions of other ops (20 R439). -/
def elementAtomics (cs : List Contrib) : List (BitVec 4 × Word) :=
  match cs with
  | [] => []
  | c :: _ =>
    (c.op, mergedValue c.op (cs.filter fun k => k.op == c.op)) ::
      (cs.filter fun k => k.op != c.op).map fun k => (k.op, k.operand)

/-- The elements of an epoch's contributions, rising. -/
def elementsOf (ps : List Contrib) : List Nat := ps.foldl (fun l c => insertNat c.va l) []

/-- What the closes of an epoch apply to its counter, each with the value that an ACAS compares: the closes of kinds that R265 merges,
merged, then those by AXCHG and ACAS one by one in the order the switch accepted them. DESIGN CHOICE, unsafe: R438 merges the closes
into one atomic, and R439 gives these two ops no M (log 43). -/
def closeAtomics (cs : List (Nat × BitVec 4 × Word × Word)) : List (BitVec 4 × Word × Word) :=
  let part (k : Nat × BitVec 4 × Word × Word) : Contrib :=
    { module := k.1, core := 0, seq := 0, op := k.2.1, va := 0, operand := k.2.2.1, order := 0 }
  ((elementAtomics ((cs.filter fun k => merges k.2.1).map part)).map fun a => (a.1, a.2, 0#32)) ++
    (cs.filter fun k => !merges k.2.1).map Prod.snd

/-- Everything an epoch applies at home, each atomic with its compare value: the elements in rising order, then the counter (20
R438). -/
def epochAtomics (d : Window) (e : Epoch) : List (Nat × BitVec 4 × Word × Word) :=
  ((elementsOf e.parts).flatMap fun va =>
    (elementAtomics (e.parts.filter fun c => c.va == va)).map fun a => (va, a.1, a.2, 0#32)) ++
    (closeAtomics e.closes).map fun a => (d.ctr, a)

/-- The first page on demand among the elements of an epoch. -/
def epochStall (s : State) (y : Nat) (as : List (Nat × BitVec 4 × Word × Word)) : Option (Nat × PageState) :=
  as.findSome? fun a => match translate s y (s.ctx y).tag a.1 .atomic with
    | .stall page st => some (page, st)
    | _ => none

/-- One merged atomic applied at its home in the space of context `y`. DESIGN CHOICE, unsafe: one that its page refuses, or whose parcel
fails its check, is lost and no core is told, as every contributor has its answer (log 44). -/
def applyMerged (y : Nat) (s : State) (a : Nat × BitVec 4 × Word × Word) : State :=
  match translate s y (s.ctx y).tag a.1 .atomic with
  | .ok pa e => (s.applyAt pa (leafState e == some .replicated) a.2.1 a.2.2.1 a.2.2.2).1
  | .unmapped _ _ bad => s.tableError bad
  | .spoilt p => s.clearMarks p 8
  | .denied _ _ => s
  | .stall _ _ => s

/-- Whether every member module has closed an epoch. -/
def epochClosed (d : Window) (e : Epoch) : Bool :=
  (List.range 64).all fun m => !d.members.getLsbD m || e.closes.any fun k => k.1 == m

/-- EPOCH_DELIVER on window `w` of context `x` (20 R438, R439): the merged results are applied where HOME is this module. -/
def execEpochDeliver (x w : Nat) (s : State) : Host.Outcome State Fault Refusal :=
  let f := (s.ctx x).func
  let d := (s.func f).window w
  let e := s.epochOf f w
  if !d.en || !d.kind || !d.isOpen || d.lctx ≠ x || !epochClosed d e then .next s
  else if d.home ≠ s.modNum then .next (s.nextEpoch f w d)
  else
    let as := epochAtomics d e
    match epochStall s d.rctx as with
    | some (page, st) => .next (s.requestPage d.rctx page st)
    | none => .next ((as.foldl (applyMerged d.rctx) s).nextEpoch f w d)

/-! ### The watchdog (20 R440, R441) -/

/-- The time of a window's watchdog. -/
def watchTime (d : Window) : Nat := timeOf (1000 * (if d.wdog = 0 then 50 else d.wdog))

/-- COLLECTIVE_WATCHDOG_EXPIRY of window `w` of context `x` (20 R440, R441). -/
def execCollectiveWatchdogExpiry (x w : Nat) (s : State) : Host.Outcome State Fault Refusal :=
  let f := (s.ctx x).func
  let d := (s.func f).window w
  match (s.epochOf f w).watchAt with
  | none => .next s
  | some t => .next (if d.en && d.isOpen && d.lctx = x && t + watchTime d ≤ s.time then s.abortEpoch f w 1 else s)

/-- The watchdog of a window of context `x`: it runs while a member here or elsewhere does not run or has a stop deferred (20 R440). -/
def State.settleWindow (s : State) (x f w : Nat) (d : Window) : State :=
  let key := windowKey f w
  let e := look Epoch.reset key s.epochs
  let c := s.ctx x
  if c.st ≠ .running || c.deferred || !e.stopped.isEmpty then s.watch f w d
  else if e.watchAt.isSome then { s with epochs := put key { e with watchAt := none } s.epochs }
  else s

/-- The watchdogs of every context's windows (20 R440). -/
def State.settleWatch (s : State) : State :=
  s.contexts.foldl (fun q p =>
    if p.2.st = .free then q
    else (q.func p.2.func).windows.foldl (fun r n => if n.2.lctx == p.1 then r.settleWindow p.1 p.2.func n.1 n.2 else r) q) s

/-- Whether `m` is another member module of a window (20 R436). -/
def otherMember (s : State) (d : Window) (m : Nat) : Bool := decide (m < 64) && d.members.getLsbD m && m != s.modNum

/-- What another member module of window `w` of context `x` tells: its member has stopped or has a stop deferred, or runs again with
nothing deferred (20 R440). -/
def execMemberStop (x w m : Nat) (stopped : Bool) (s : State) : Host.Outcome State Fault Refusal :=
  let f := (s.ctx x).func
  let d := (s.func f).window w
  if !d.en || !d.kind || d.lctx ≠ x || !otherMember s d m then .next s
  else
    let e := s.epochOf f w
    let e1 : Epoch := { e with stopped := if stopped then insertNat m e.stopped else e.stopped.filter (· != m) }
    let s1 : State := { s with epochs := put (windowKey f w) e1 s.epochs }
    .next (s1.settleWindow x f w d)

/-- The open epoch of window `w` of context `x` is aborted at another member module, for one of the reasons of R441. -/
def execMemberAbort (x w m reason : Nat) (s : State) : Host.Outcome State Fault Refusal :=
  let f := (s.ctx x).func
  let d := (s.func f).window w
  if !d.en || !d.kind || d.lctx ≠ x || !otherMember s d m || reason = 0 || 4 < reason then .next s
  else .next (s.abortEpoch f w reason)

/-! ### Ports (20 R433, R434) -/

/-- The record of a port. -/
def State.port (s : State) (p : Nat) : Port := look Port.reset p s.ports

/-- Sets the record of a port. -/
def State.setPort (s : State) (p : Nat) (r : Port) : State := { s with ports := put p r s.ports }

/-- The notification of a link that is DEGRADED or FAILED (20 R433; 21 R447). -/
def State.noteLink (s : State) (p : Nat) : State := s.notify adminFunc 8 0 0xFFFFFFFF 0 0 (BitVec.ofNat 32 p) 0 0

/-- The queues in host memory of the functions a host port carries go to ERROR (18 R402; 20 R434). -/
def State.hostLost (s : State) (p : Nat) : State :=
  { s with queues := s.queues.map fun q =>
      if q.2.hostMem && q.2.enabled && portOf (q.1 / 1024) == p then (q.1, { q.2 with st := .error, err := 2 }) else q }

/-- The open epochs with a member that no port reaches any more are aborted (20 R434, R441). -/
def State.abortLost (s : State) : State :=
  s.funcs.foldl (fun q p =>
    p.2.windows.foldl (fun r n =>
      if n.2.en && n.2.isOpen && (List.range 64).any fun m => n.2.members.getLsbD m && m != s.modNum && !reaches s m then
        r.abortEpoch p.1 n.1 3
      else r) q) s

/-- Atomics under way to a peer that no port reaches any more fail (20 R434). -/
def State.loseAtoms (s : State) : State :=
  let lost (c : Core) (a : Atom) : Bool := a.place == .peer && !a.applied && match c.ctx with
    | none => false
    | some x => routeOf s x a.va == .lost
  { s with cores := s.cores.map fun p =>
      (p.1, { p.2 with atoms := p.2.atoms.map fun a => if lost p.2 a then { a with place := .lost } else a }) }

/-- What follows when a port stops carrying traffic (20 R434). -/
def State.portLost (s : State) (p : Nat) : State := if p < 4 then s.hostLost p else s.abortLost.loseAtoms

/-- A port fails (20 R433, R434). -/
def State.failPort (s : State) (p : Nat) : State :=
  ((s.setPort p { s.port p with st := .failed }).portLost p).noteLink p

/-- Whether a number names a port: 4 host ports and 64 scale-up ports (01 R11; 20 R433). -/
def namesPort (p : Nat) : Bool := decide (p < 68)

/-- PORT_ENABLE of port `p` (20 R433); after a boot that refused its image no executive runs to enable one (21 R450). -/
def execPortEnable (p : Nat) (s : State) : Host.Outcome State Fault Refusal :=
  let st := (s.port p).st
  .next (if namesPort p && !s.refused && (st == .down || st == .failed) then
    s.setPort p { Port.reset with st := .training, since := s.time } else s)

/-- A link that has trained. -/
def State.portUp (s : State) (p : Nat) (full : Bool) (r : Port) : State :=
  let s1 := s.setPort p { r with st := if full then .up else .degraded, replays := 0 }
  if full then s1 else s1.noteLink p

/-- TRAINING_COMPLETE of port `p` (20 R433, R435): a scale-up port learns this module's number, and the modules its switch
reaches. -/
def execTrainingComplete (p : Nat) (full : Bool) (number : Nat) (peers : BitVec 64) (s : State) : Host.Outcome State Fault Refusal :=
  let r := s.port p
  .next (if r.st ≠ .training then s
    else if p < 4 then s.portUp p full r
    else ({ s with modNum := number % 64 } : State).portUp p full { r with peers := peers })

/-- TRAINING_FAILURE of port `p` (20 R433). -/
def execTrainingFailure (p : Nat) (s : State) : Host.Outcome State Fault Refusal :=
  .next (if (s.port p).st = .training then s.failPort p else s)

/-- FLIT_CRC_FAIL on port `p` (20 R433): `replay` says whether the flit that fails is a replay; the failure of another begins a
new row of replays, and at the eighth that fails in a row the link retrains. -/
def execFlitCrcFail (p : Nat) (replay : Bool) (s : State) : Host.Outcome State Fault Refusal :=
  let r := s.port p
  let n := if replay then r.replays + 1 else 0
  .next (if r.st ≠ .up && r.st ≠ .degraded then s
    else if n < 8 then s.setPort p { r with replays := n }
    else s.setPort p { r with st := .retraining, replays := 0, since := s.time })

/-- RETRAINING_COMPLETE of port `p` (20 R433). -/
def execRetrainingComplete (p : Nat) (full : Bool) (s : State) : Host.Outcome State Fault Refusal :=
  let r := s.port p
  .next (if r.st = .retraining && s.time ≤ r.since + timeOf 10000 then s.portUp p full r else s)

/-- RETRAINING_TIMEOUT of port `p` (20 R433). -/
def execRetrainingTimeout (p : Nat) (s : State) : Host.Outcome State Fault Refusal :=
  let r := s.port p
  .next (if r.st = .retraining && r.since + timeOf 10000 ≤ s.time then s.failPort p else s)

/-- PORT_DISABLE of port `p` (20 R433): its traffic is treated as for FAILED. -/
def execPortDisable (p : Nat) (s : State) : Host.Outcome State Fault Refusal :=
  .next (if namesPort p then (s.setPort p Port.reset).portLost p else s)

/-! ### Function-level reset (20 R442) -/

/-- The messages under way that carry a function's number discarded at every ejection point (20 R442). -/
def State.discardFunc (s : State) (f : Nat) : State :=
  { s with cores := s.cores.map fun p =>
      (p.1, { p.2 with ring := { p.2.ring with inflight := p.2.ring.inflight.filter fun m => m.func != f } }) }

/-- A function reset: its mailbox and doorbells refused, its contexts terminated, its packets discarded. -/
def State.resetFunc (s : State) (f : Nat) : State :=
  let r := s.func f
  let s1 := s.setFunc f { r with resetting := true, busy := false }
  ((ctxsOf s1 f).foldl (fun q x => if (q.ctx x).st = .terminated then q else q.terminateCtx x) s1).discardFunc f

/-- The functions that a reset of `f` reaches: a reset of the admin function resets every function. -/
def resetReach (s : State) (f : Nat) : List Nat :=
  if f = adminFunc then
    s.contexts.foldl (fun l p => insertNat p.2.func l) (s.funcs.foldl (fun l p => insertNat p.1 l) [adminFunc])
  else [f]

/-- FUNCTION_LEVEL_RESET of function `f` (20 R442). -/
def execFunctionLevelReset (f : Nat) (s : State) : Host.Outcome State Fault Refusal :=
  .next (if adminFunc < f then s else (resetReach s f).foldl State.resetFunc s)

/-- FLR_COMPLETE of function `f` (20 R442): its contexts are zeroed; its registers are at their reset values, its binding to a
partition stands, and its windows hold no epoch any more. -/
def execFlrComplete (f : Nat) (s : State) : Host.Outcome State Fault Refusal :=
  let r := s.func f
  let s1 : State := { s with epochs := s.epochs.filter fun p => p.1 / 64 != f }
  .next (if r.resetting && (ctxsOf s f).isEmpty then s1.setFunc f { Func.reset with tag := r.tag, note := r.note } else s)

end Sys2Proof.Machine
end

