-- ==== Sys2Proof/Machine/CoreImage.lean ====
section
/-!
DEFINITION. The core record of a context image (19 R426): the place of each field, said once for SAVE and for RESTORE. Where R426
names a block and not the places in it, the places are the model's (log 9).
-/

namespace Sys2Proof.Machine

/-! ### Parts of a record -/

/-- A part of a record: `len` little-endian bytes at `off`, and the field as a number, read and set (19 R425). -/
structure Part (α : Type) where
  off : Nat
  len : Nat
  get : α → Nat
  set : Nat → α → α

/-- Writes the parts of a record that stands at address `a`. -/
def writeParts {α : Type} (ps : List (Part α)) (x : α) (a : Nat) (m : List Host.Cell) : List Host.Cell :=
  ps.foldl (fun k p => writeBytes k (a + p.off) (leBytes (p.get x) p.len)) m

/-- Reads the parts of a record that stands at address `a` into a value. -/
def readParts {α : Type} (ps : List (Part α)) (m : List Host.Cell) (a : Nat) (x : α) : α :=
  ps.foldl (fun y p => p.set (leNat (readBytes m (a + p.off) p.len)) y) x

/-- A part of one byte that holds a truth value. -/
def flagPart {α : Type} (off : Nat) (get : α → Bool) (set : Bool → α → α) : Part α :=
  { off := off, len := 1, get := fun x => (get x).toNat, set := fun n => set (n % 2 == 1) }

/-- A part that holds a bit vector in whole bytes. -/
def bitsPart {α : Type} {w : Nat} (off : Nat) (get : α → BitVec w) (set : BitVec w → α → α) : Part α :=
  { off := off, len := (w + 7) / 8, get := fun x => (get x).toNat, set := fun n => set (BitVec.ofNat w n) }

/-- A part of a field of a record, as a part of the record. -/
def Part.inside {α β : Type} (get : α → β) (set : β → α → α) (shift : Nat) (p : Part β) : Part α :=
  { off := shift + p.off, len := p.len, get := fun x => p.get (get x), set := fun n x => set (p.set n (get x)) x }

/-- Parts of equal length, by their number. -/
def rowParts {α : Type} (off len n : Nat) (get : Nat → α → Nat) (set : Nat → Nat → α → α) : List (Part α) :=
  (List.range n).map fun i => { off := off + len * i, len := len, get := get i, set := set i }

/-- The parts of a list: its length at `cnt` in `cntLen` bytes, then up to `most` items of `stride` bytes from `off`. -/
def listParts {α β : Type} (cnt cntLen off stride most : Nat) (items : List (Part β)) (d : β) (l : α → List β)
    (setL : List β → α → α) : List (Part α) :=
  let item (i : Nat) (p : Part β) : Part α :=
    { off := off + stride * i + p.off, len := p.len,
      get := fun x => match (l x)[i]? with
        | some y => p.get y
        | none => 0,
      set := fun n x => setL ((l x).set i (p.set n ((l x).getD i d))) x }
  { off := cnt, len := cntLen, get := fun x => min (l x).length most, set := fun n => setL (List.replicate (min n most) d) } ::
    (List.range most).flatMap fun i => items.map (item i)

/-- The parts of what may be absent: a byte that says whether it is there, then its own. -/
def optParts {α β : Type} (flag off : Nat) (items : List (Part β)) (d : β) (l : α → Option β) (setL : Option β → α → α) :
    List (Part α) :=
  listParts flag 1 off 0 1 items d (fun x => (l x).toList) fun ys => setL ys.head?

/-- A part of the record of object `k` of a table, where it is listed. -/
def Part.entry {α β : Type} (k : Nat) (d : β) (l : α → Table β) (setL : Table β → α → α) (shift : Nat) (p : Part β) : Part α :=
  { off := shift + p.off, len := p.len, get := fun x => if has k (l x) then p.get (look d k (l x)) else 0,
    set := fun n x => if has k (l x) then setL (put k (p.set n (look d k (l x))) (l x)) x else x }

/-- The parts of the record of object `k` of a table: a byte that says whether it is listed, then its own. -/
def entryParts {α β : Type} (k flag shift : Nat) (items : List (Part β)) (d : β) (l : α → Table β) (setL : Table β → α → α) :
    List (Part α) :=
  flagPart flag (fun x => has k (l x)) (fun b x => if b then setL (put k d (l x)) x else x) :: items.map (Part.entry k d l setL shift)

/-! ### Registers (19 R426: 0x0000 to 0x87FF) -/

/-- The general, path, mask and vector registers and the accumulators. -/
def registerParts : List (Part Core) :=
  rowParts 0x8000 4 32 (fun i c => (c.readG (BitVec.ofNat 5 i)).toNat) (fun i n c => c.writeG (BitVec.ofNat 5 i) (BitVec.ofNat 32 n)) ++
  rowParts 0x8080 8 8 (fun i c => (c.readA (BitVec.ofNat 3 i)).toNat) (fun i n c => c.writeA (BitVec.ofNat 3 i) (BitVec.ofNat 64 n)) ++
  rowParts 0x80C0 1 8 (fun i c => (c.readM (BitVec.ofNat 3 i)).toNat) (fun i n c => c.writeM (BitVec.ofNat 3 i) (BitVec.ofNat 8 n)) ++
  rowParts 0x8100 32 32 (fun i c => (c.readV (BitVec.ofNat 5 i)).toNat)
    (fun i n c => c.writeV (BitVec.ofNat 5 i) (BitVec.allOnes 256) (BitVec.ofNat 256 n)) ++
  rowParts 0x8500 4 128 (fun i c => (c.z.toList.getD i 0).toNat) (fun i n c => { c with z := c.z.setIfInBounds i (BitVec.ofNat 32 n) })

/-- The reserved bits of a system register; all of them where the number is unassigned (01 R13, R15; 02 R30, R31; 05 R137 to R139; 06
R149, R167; 08 R211; 12 R281). -/
def sysReserved (n : Nat) : Word :=
  if 0x011 ≤ n ∧ n ≤ 0x017 then 0x000000FF#32
  else match n with
    | 0x000 => 0xFFE00000#32
    | 0x001 => 0xFFF00000#32
    | 0x002 => 0x7FFFFF00#32
    | 0x003 => 0x00000003#32
    | 0x008 => 0xFFFFFF00#32
    | 0x009 => 0xFFFFFFFC#32
    | 0x00B => 0xFFFFFFF0#32
    | 0x020 => 0xFFFF0000#32
    | 0x021 => 0xFFFFFF48#32
    | 0x028 => 0xFFFFFFC0#32
    | 0x029 => 0xFFFFFFE0#32
    | 0x02A => 0xFFFF0000#32
    | 0x02B => 0xFFFFFF80#32
    | 0x004 | 0x005 | 0x006 | 0x007 | 0x00A | 0x030 | 0x031 | 0x032 | 0x033 => 0#32
    | _ => 0xFFFFFFFF#32

/-- A core with a system register as an image holds it. -/
def sysLoad (n : Nat) (w : Word) (c : Core) : Core :=
  match n with
  | 0x001 => { c with lcore := w.toNat }
  | 0x002 => { c with handler := w.getLsbD 31, cause := w.setWidth 8 }
  | 0x003 => { c with tpc := w }
  | 0x004 => { c with tinfo := c.tinfo.set 0 w }
  | 0x005 => { c with tinfo := c.tinfo.set 1 w }
  | 0x006 => { c with tinfo := c.tinfo.set 2 w }
  | 0x007 => { c with tinfo := c.tinfo.set 3 w }
  | 0x008 => { c with fpflags := w }
  | 0x009 => { c with rmode := w }
  | 0x00A => { c with bankhash := w }
  | 0x00B => { c with vshare := w }
  | 0x011 => { c with winbind := c.winbind.set 1 w }
  | 0x012 => { c with winbind := c.winbind.set 2 w }
  | 0x013 => { c with winbind := c.winbind.set 3 w }
  | 0x014 => { c with winbind := c.winbind.set 4 w }
  | 0x015 => { c with winbind := c.winbind.set 5 w }
  | 0x016 => { c with winbind := c.winbind.set 6 w }
  | 0x017 => { c with winbind := c.winbind.set 7 w }
  | 0x020 => { c with barmember := w }
  | 0x021 => { c with gangstat := w }
  | 0x028 => { c with resVregs := w }
  | 0x029 => { c with resBars := w }
  | 0x02A => { c with resLocal := w }
  | 0x02B => { c with resMacros := w }
  | 0x030 => { c with cycleAdd := w.toNat }
  | 0x031 => { c with step := w.extractLsb' 16 16, xphase := w.getLsbD 14, chan := bitsOf w.toNat 10 4, nextSlot := bitsOf w.toNat 0 10 }
  | 0x032 => { c with combstat := w }
  | 0x033 => { c with conflicts := w }
  | _ => c

/-- The system registers of core `id`: word n holds register n, whose reserved bits are 0 (00 R9). -/
def systemParts (id : Nat) : List (Part Core) :=
  rowParts 0x8700 4 64 (fun n c => (sysRead c.cycle0 id c n).toNat) (fun n w c => sysLoad n (BitVec.ofNat 32 w &&& ~~~sysReserved n) c)

/-! ### 0x8800: the scalar core -/

/-- How a core that rests stands in its record: idle, halted, stopped by a trap, or stopped by the debugger. -/
def restCode : CoreStatus → Nat
  | .idle => 0
  | .running => 1
  | .halted => 1
  | .stopped => 2
  | .debugStopped => 3
  | .debugHalted => 3

/-- The status of a core that a record brings back. -/
def restStatus : Nat → CoreStatus
  | 0 => .idle
  | 2 => .stopped
  | 3 => .debugHalted
  | _ => .halted

/-- A loop of the stack. -/
def loopParts : List (Part LoopRec) :=
  [bitsPart 0 LoopRec.first (fun w l => { l with first := w }), bitsPart 4 LoopRec.last (fun w l => { l with last := w }),
   { off := 8, len := 4, get := LoopRec.remaining, set := fun n l => { l with remaining := n } }]

/-- A trap held for a rendezvous. -/
def trapParts : List (Part Trap) :=
  [bitsPart 0 Trap.cause (fun w t => { t with cause := w }), bitsPart 4 Trap.t0 (fun w t => { t with t0 := w }),
   bitsPart 8 Trap.t1 (fun w t => { t with t1 := w }), bitsPart 12 Trap.t2 (fun w t => { t with t2 := w }),
   bitsPart 16 Trap.t3 (fun w t => { t with t3 := w })]

/-- An aborted collective not yet raised: window, epoch, reason. -/
def abortParts : List (Part (Nat × Nat × Nat)) :=
  [{ off := 0, len := 2, get := fun a => a.1, set := fun n a => (n, a.2) },
   { off := 2, len := 2, get := fun a => a.2.1, set := fun n a => (a.1, n, a.2.2) },
   { off := 4, len := 1, get := fun a => a.2.2, set := fun n a => (a.1, a.2.1, n) }]

/-- A local memory error not yet raised: address and attribution. -/
def dataParts : List (Part (Nat × Word)) :=
  [{ off := 0, len := 4, get := Prod.fst, set := fun n a => (n, a.2) }, bitsPart 4 Prod.snd (fun w a => (a.1, w))]

/-- No loop. -/
def LoopRec.blank : LoopRec := { first := 0, last := 0, remaining := 0 }

/-- The block at 0x8800. A halt finds no frame, no macro call and no prefix half done, so their bytes are 0 (05 R103, R124; 19
R413). -/
def scalarParts : List (Part Core) :=
  [bitsPart 0x8800 Core.pc (fun w c => { c with pc := w }),
   { off := 0x8804, len := 1, get := fun c => restCode c.status, set := fun n c => { c with status := restStatus n } },
   flagPart 0x8805 (fun c => c.ctx.isSome) (fun b c => { c with ctx := if b then some 0 else none }),
   flagPart 0x8806 Core.latch (fun b c => { c with latch := b }),
   { off := 0x8808, len := 1, get := Core.lslot, set := fun n c => { c with lslot := n } },
   { off := 0x8809, len := 1, get := fun c => (c.group.map (· + 1)).getD 0,
     set := fun n c => { c with group := if n = 0 then none else some (n - 1) } },
   { off := 0x880C, len := 4, get := Core.member, set := fun n c => { c with member := n } },
   flagPart 0x8810 Core.alaneArm (fun b c => { c with alaneArm := b }),
   flagPart 0x8811 Core.alaneOn (fun b c => { c with alaneOn := b }),
   { off := 0x8814, len := 4, get := Core.alane, set := fun n c => { c with alane := n } },
   bitsPart 0x8818 Core.alaneAt (fun w c => { c with alaneAt := w }),
   bitsPart 0x881C Core.flagsWord (fun w c => { c with flagsWord := w }),
   bitsPart 0x8820 Core.link (fun w c => { c with link := w }),
   { off := 0x8828, len := 8, get := Core.pass, set := fun n c => { c with pass := n } }] ++
  listParts 0x8830 1 0x8840 12 2 loopParts LoopRec.blank Core.loops (fun l c => { c with loops := l }) ++
  listParts 0x8831 1 0x8858 12 2 loopParts LoopRec.blank Core.aside (fun l c => { c with aside := l }) ++
  optParts 0x8832 0x8870 [bitsPart 0 (fun (w : BitVec 16) => w) (fun w _ => w)] 0 Core.signal (fun o c => { c with signal := o }) ++
  optParts 0x8833 0x8874 abortParts (0, 0, 0) Core.abort (fun o c => { c with abort := o }) ++
  optParts 0x8834 0x887C dataParts (0, 0) Core.dataErr (fun o c => { c with dataErr := o }) ++
  optParts 0x8835 0x8884 trapParts { cause := 0, t0 := 0, t1 := 0, t2 := 0, t3 := 0 } Core.rendErr
    (fun o c => { c with rendErr := o })

/-! ### 0x8900: the slice and the sparse binding -/

/-- The state of a slice by its code in MWM (07 R191). -/
def sliceOfCode : Nat → SliceState
  | 1 => .bound
  | 5 => .final
  | _ => .unbound

/-- A pending slice error. -/
def sliceErrParts : List (Part SliceErr) :=
  [{ off := 0, len := 4, get := SliceErr.addr, set := fun n e => { e with addr := n } },
   { off := 4, len := 1, get := SliceErr.kind, set := fun n e => { e with kind := n } },
   { off := 5, len := 1, get := SliceErr.tile, set := fun n e => { e with tile := n } },
   { off := 6, len := 1, get := SliceErr.step, set := fun n e => { e with step := n } }]

/-- The slice: A binding, the staged piece, its error. -/
def sliceParts : List (Part Slice) :=
  [{ off := 4, len := 4, get := Slice.abase, set := fun n x => { x with abase := n } },
   { off := 8, len := 1, get := Slice.afmt, set := fun n x => { x with afmt := n } },
   { off := 9, len := 1, get := Slice.arows, set := fun n x => { x with arows := n } },
   { off := 10, len := 1, get := Slice.bfmt, set := fun n x => { x with bfmt := n } },
   flagPart 11 Slice.stageBad (fun b x => { x with stageBad := b }),
   bitsPart 12 Slice.flags (fun w x => { x with flags := w })] ++
  optParts 13 16 sliceErrParts { addr := 0, kind := 0, tile := 0, step := 0 } Slice.err (fun o x => { x with err := o }) ++
  listParts 24 2 32 1 256 [bitsPart 0 (fun (b : Byte) => b) (fun b _ => b)] 0 (fun x => if x.bstaged then x.stage else [])
    (fun l x => { x with stage := l })

/-- The sparse binding (15 R348). -/
def bindingParts : List (Part Binding) :=
  [flagPart 0 Binding.bound (fun b x => { x with bound := b }), flagPart 1 Binding.stale (fun b x => { x with stale := b }),
   { off := 2, len := 1, get := Binding.fmt, set := fun n x => { x with fmt := n } },
   { off := 4, len := 4, get := Binding.base, set := fun n x => { x with base := n } },
   bitsPart 8 Binding.path (fun w x => { x with path := w }),
   { off := 16, len := 4, get := Binding.nnz, set := fun n x => { x with nnz := n } },
   bitsPart 24 Binding.digest (fun w x => { x with digest := w })] ++
  listParts 20 1 32 1 64 [bitsPart 0 (fun (b : Byte) => b) (fun b _ => b)] 0 Binding.bitmap (fun l x => { x with bitmap := l })

/-- The block at 0x8900: the word of MWM first. -/
def arrayParts : List (Part Core) :=
  { off := 0x8900, len := 4, get := fun c => (mwmWord c).toNat,
    set := fun n c => { c with slice := { c.slice with
      wm := bitsOf n 0 4, tile := bitsOf n 4 1, st := sliceOfCode (bitsOf n 5 3), abound := bitsOf n 8 1 == 1,
      bstaged := bitsOf n 9 1 == 1 } } } ::
  sliceParts.map (Part.inside Core.slice (fun x c => { c with slice := x }) 0x8900) ++
  bindingParts.map (Part.inside Core.binding (fun x c => { c with binding := x }) 0x8A60)

/-! ### 0x8B00: barriers, the ring, the atomic error record -/

/-- The ring (13 R314). -/
def ringParts : List (Part Ring) :=
  [flagPart 0 Ring.isOpen (fun b r => { r with isOpen := b }),
   { off := 4, len := 4, get := Ring.base, set := fun n r => { r with base := n } },
   { off := 8, len := 4, get := Ring.size, set := fun n r => { r with size := n } },
   { off := 16, len := 8, get := Ring.head, set := fun n r => { r with head := n } },
   { off := 24, len := 8, get := Ring.tail, set := fun n r => { r with tail := n } },
   { off := 32, len := 8, get := Ring.landed, set := fun n r => { r with landed := n } }]

/-- The atomic error record (11 R278). -/
def aerrParts : List (Part AErr) :=
  [bitsPart 0 AErr.fpath (fun w e => { e with fpath := w }), bitsPart 8 AErr.kind (fun w e => { e with kind := w }),
   bitsPart 12 AErr.lane (fun w e => { e with lane := w })]

/-- A vote, or none, as a number. -/
def voteCode : Option Bool → Nat
  | none => 0
  | some b => 2 + b.toNat

/-- The vote of a number. -/
def voteOf (n : Nat) : Option Bool := if bitsOf n 1 1 = 1 then some (bitsOf n 0 1 == 1) else none

/-- An arrival not yet in its tree. -/
def arriveParts : List (Part Arrive) :=
  [{ off := 0, len := 1, get := Arrive.channel, set := fun n a => { a with channel := n } },
   { off := 1, len := 1, get := fun a => voteCode a.vote + 4 * a.xsync.toNat,
     set := fun n a => { a with vote := voteOf n, xsync := bitsOf n 2 1 == 1 } },
   { off := 2, len := 2, get := Arrive.serial, set := fun n a => { a with serial := n } }]

/-- The block at 0x8B00. -/
def joinParts : List (Part Core) :=
  rowParts 0x8B00 2 16 (fun i c => (c.target.toList.getD i 0).toNat)
    (fun i n c => { c with target := c.target.setIfInBounds i (BitVec.ofNat 16 n) }) ++
  bitsPart 0x8B20 Core.pattern (fun w c => { c with pattern := w }) ::
  ringParts.map (Part.inside Core.ring (fun r c => { c with ring := r }) 0x8B28) ++
  optParts 0x8B24 0x8B50 aerrParts { fpath := 0, kind := 0, lane := 0, seq := 0 } Core.aerr (fun o c => { c with aerr := o }) ++
  listParts 0x8B25 1 0x8B60 4 16 arriveParts { channel := 0, vote := none, xsync := false, serial := 0, aseq := 0 } Core.arrivals
    (fun l c => { c with arrivals := l })

/-! ### 0x8C00: the waggle holders -/

/-- A holder by its status word (14 R330). -/
def holderOf (w : Word) : Holder :=
  { Holder.reset with
    st := if w.getLsbD 31 then .resolved else if w.getLsbD 30 then .pending else if w.getLsbD 27 then .cancelled else .none,
    late := w.getLsbD 29, won := w.getLsbD 28, lsn := w.getLsbD 26, req := w.getLsbD 25, empty := w.getLsbD 24,
    frame := w.setWidth 16 }

/-- A holder after its status word: winning key, winner, its logical core, and the key to enter again (14 R337). -/
def holderParts : List (Part Holder) :=
  [bitsPart 4 Holder.winKey (fun w h => { h with winKey := w }), bitsPart 8 Holder.winner (fun w h => { h with winner := w }),
   bitsPart 12 Holder.winL (fun w h => { h with winL := w }), bitsPart 16 Holder.key (fun w h => { h with key := w })]

/-- The block at 0x8C00. -/
def waggleParts : List (Part Core) :=
  (List.range 32).flatMap fun n =>
    { off := 0x8C00 + 32 * n, len := 4, get := fun c => (holderWord (c.holder n)).toNat,
      set := fun w c => if w = 0 then c else c.setHolder n (holderOf (BitVec.ofNat 32 w)) } ::
    holderParts.map (Part.entry n Holder.reset Core.holders (fun t c => { c with holders := t }) (0x8C00 + 32 * n))

/-! ### 0x9000: the copy channels -/

/-- The channels of a mask, each with the number its copy takes when it is brought back. -/
def maskEdges (mask : Nat) : List (Nat × Nat) := ((List.range 128).filter fun n => bitsOf mask n 1 == 1).map fun n => (n, n + 1)

/-- A channel after the words of R224 (09 R218, R231). -/
def channelParts : List (Part Channel) :=
  [{ off := 4, len := 4, get := Channel.wp, set := fun n x => { x with wp := n } },
   { off := 8, len := 4, get := Channel.prog, set := fun n x => { x with prog := n } },
   bitsPart 12 Channel.fpath (fun w x => { x with fpath := w }),
   { off := 20, len := 4, get := Channel.laddr, set := fun n x => { x with laddr := n } },
   bitsPart 24 Channel.path (fun w x => { x with path := w }),
   bitsPart 32 Channel.pattern (fun w x => { x with pattern := w }),
   { off := 36, len := 16, get := fun x => x.edges.foldl (fun m e => m ||| 2 ^ e.1) 0, set := fun n x => { x with edges := maskEdges n } },
   { off := 52, len := 4, get := Channel.len, set := fun n x => { x with len := n } },
   { off := 56, len := 4, get := Channel.total, set := fun n x => { x with total := n } },
   { off := 60, len := 1, get := Channel.stamp, set := fun n x => { x with stamp := n } },
   { off := 61, len := 1, get := Channel.after, set := fun n x => { x with after := n } }]

/-- The state of a channel by its code (09 R224). -/
def copyOfCode : Nat → CopyState
  | 1 => .waiting
  | 2 => .moving
  | 3 => .stalled
  | 4 => .done
  | 5 => .faulted
  | 6 => .cancelled
  | _ => .idle

/-- A channel with its STATUS word as an image holds it. -/
def Channel.loadStatus (x : Channel) (n w : Nat) : Channel :=
  { x with st := copyOfCode (bitsOf w 29 3), deal := bitsOf w 28 1 == 1, dir := bitsOf w 27 1 == 1, scales := bitsOf w 26 1 == 1,
           cause := BitVec.ofNat 8 (bitsOf w 16 8), serial := n + 1 }

/-- The block at 0x9000. -/
def copyParts : List (Part Core) :=
  (List.range 128).flatMap fun n =>
    let at' := 0x9000 + 64 * n
    entryParts n (at' + 62) at' channelParts Channel.reset Core.channels (fun t c => { c with channels := t }) ++
    [{ off := at', len := 4, get := fun c => (cpyqWord c n 0).toNat,
       set := fun w c => if has n c.channels then c.setChannel n ((c.channel n).loadStatus n w) else c }]

/-! ### 0xB000: tickets, waits, transfers -/

/-- A failing entry of a ticket. -/
def failParts : List (Part TicketFail) :=
  [{ off := 0, len := 4, get := TicketFail.pos, set := fun n f => { f with pos := n } },
   bitsPart 4 TicketFail.cause (fun w f => { f with cause := w }), bitsPart 8 TicketFail.fpath (fun w f => { f with fpath := w })]

/-- A ticket whose entries have all ended: what its GWAIT returns or raises (09 R225, R236). -/
def ticketParts : List (Part Ticket) :=
  [flagPart 1 Ticket.scat (fun b t => { t with scat := b }),
   { off := 2, len := 2, get := fun t => t.list.length, set := fun n t => { t with list := List.replicate n 0 } }] ++
  optParts 4 8 failParts { pos := 0, cause := 0, fpath := 0 } Ticket.firstFail (fun o t => { t with fails := o.toList })

/-- A ticket with nothing left to do. -/
def Ticket.blank : Ticket :=
  { scat := false, path := 0, list := [], data := [], dataAt := 0, gran := 0, todo := [], fails := [], stamp := 0, after := 0,
    sentAt := 0 }

/-- A transfer issued and not begun (13 R300, R311). -/
def transferParts : List (Part Transfer) :=
  [{ off := 0, len := 4, get := Transfer.slot, set := fun n t => { t with slot := n } },
   { off := 4, len := 4, get := Transfer.receiver, set := fun n t => { t with receiver := n } },
   { off := 8, len := 4, get := Transfer.srcAt, set := fun n t => { t with srcAt := n } },
   { off := 12, len := 4, get := Transfer.dstAt, set := fun n t => { t with dstAt := n } },
   { off := 16, len := 4, get := Transfer.bytes, set := fun n t => { t with bytes := n } }]

/-- A transfer of no bytes. -/
def Transfer.blank : Transfer :=
  { slot := 0, receiver := 0, srcAt := 0, dstAt := 0, bytes := 0, moved := 0, buf := [], tag := 0, func := 0, nextAt := none }

/-- A scalar atomic whose answer has come back and which its core has not yet written (11 R272). -/
def atomParts : List (Part Atom) :=
  [bitsPart 0 Atom.old (fun w a => { a with old := w }), flagPart 4 Atom.bad (fun b a => { a with bad := b }),
   bitsPart 8 Atom.path (fun w a => { a with path := w })]

/-- An atomic that has been answered. -/
def Atom.blank : Atom :=
  { seq := 0, op := 0, va := 0, place := .home 0 false, operand := 0, compare := 0, lane := none, posted := false, path := 0,
    applied := true, returned := true, old := 0, flags := 0, bad := false, sysRel := false, sentAt := 0, func := 0, stamp := 0,
    after := 0 }

/-- A wait inside an instruction, by kind and argument; one for the joint array has been withdrawn (07 R178). -/
def waitCode : Wait → Nat × Nat
  | .none => (0, 0)
  | .stall => (1, 0)
  | .arrived => (2, 0)
  | .xsend k => (3, k)
  | .gang n => (4, n)
  | .joint _ => (0, 0)
  | .atomic _ => (5, 0)
  | .quiet | .yielding _ => (1, 0)
  | .reserved n => (6, n)

/-- The wait of a kind and argument. -/
def waitOf (k n : Nat) : Wait :=
  match k with
  | 1 => .stall
  | 2 => .arrived
  | 3 => .xsend n
  | 4 => .gang n
  | 5 => .atomic 0
  | 6 => .reserved n
  | _ => .none

/-- The word of an instruction that a core holds; 0, which is no instruction, where it holds none. -/
def heldWord (o : Option Instr) : Word := (o.bind encode).getD 0

/-- The instruction of a held word. -/
def heldOf (w : Word) : Option Instr :=
  match decodeWord w with
  | .ok i => some i
  | .error _ => none

/-- The block at 0xB000. Every memory is out of retention when it is read (08 R215), so the byte of the retention state is 0. -/
def engineParts : List (Part Core) :=
  ((List.range 8).flatMap fun t =>
    entryParts t (0xB000 + 32 * t) (0xB000 + 32 * t) ticketParts Ticket.blank Core.tickets (fun l c => { c with tickets := l })) ++
  [{ off := 0xB101, len := 1, get := fun c => (waitCode c.wait).1, set := fun k c => { c with wait := waitOf k 0 } },
   { off := 0xB104, len := 4, get := fun c => (waitCode c.wait).2, set := fun n c => { c with wait := waitOf (waitCode c.wait).1 n } },
   bitsPart 0xB108 (fun c => heldWord c.held) (fun w c => { c with held := heldOf w }),
   { off := 0xB10C, len := 1, get := Core.ordered, set := fun n c => { c with ordered := n } }] ++
  listParts 0xB110 1 0xB120 32 4 transferParts Transfer.blank Core.transfers (fun l c => { c with transfers := l }) ++
  listParts 0xB111 1 0xB1A0 16 1 atomParts Atom.blank Core.atoms (fun l c => { c with atoms := l }) ++
  rowParts 0xB800 4 512 (fun i c => look 0 i c.rcvd) (fun i n c => if n = 0 then c else { c with rcvd := put i n c.rcvd })

/-! ### The record (19 R426) -/

/-- A core as an image records it: with what its group has counted for it. -/
structure CoreRec where
  core    : Core
  arrived : Option (Option Bool × Bool)
  nextArr : Option (Option Bool × Bool)
  inX     : Bool
  deriving DecidableEq, Repr

/-- An arrival counted by a group, as a number. -/
def markCode : Option (Option Bool × Bool) → Nat
  | none => 0
  | some (v, xs) => 8 + voteCode v + 4 * xs.toNat

/-- The counted arrival of a number. -/
def markOf (n : Nat) : Option (Option Bool × Bool) := if bitsOf n 3 1 = 1 then some (voteOf n, bitsOf n 2 1 == 1) else none

/-- Every part of a core record but the local memory. -/
def coreParts (id : Nat) : List (Part CoreRec) :=
  (registerParts ++ systemParts id ++ scalarParts ++ arrayParts ++ joinParts ++ waggleParts ++ copyParts ++ engineParts).map
    (Part.inside CoreRec.core (fun c r => { r with core := c }) 0) ++
  [{ off := 0x8BA0, len := 1, get := fun r => markCode r.arrived, set := fun n r => { r with arrived := markOf n } },
   { off := 0x8BA1, len := 1, get := fun r => markCode r.nextArr, set := fun n r => { r with nextArr := markOf n } },
   flagPart 0x8BA2 CoreRec.inX (fun b r => { r with inX := b })]

/-- The place of a number in a core's order of engine work, by the copies before it. -/
def Core.rank (c : Core) (n : Nat) : Nat := (c.channels.filter fun p => decide (p.2.stamp ≤ n)).length

/-- A core with its order of engine work by rank, the edges that still hold, and its reserved record by its place in the pool. -/
def Core.ranked (c : Core) (ids : List Nat) : Core :=
  { c with
    channels := c.channels.map fun p => (p.1, { p.2 with stamp := c.rank p.2.stamp, after := c.rank p.2.after,
                                                         edges := p.2.edges.filter c.edgeHolds })
    ordered := c.rank c.ordered
    arrivals := c.arrivals.map fun a => { a with serial := c.rank a.serial }
    wait := match c.wait with
      | .reserved n => .reserved ((ids.findIdx? (· == n)).getD 0)
      | w => w }

/-- Writes a core record at address `a` of an image; `ids` are the pool's records. -/
def writeCore (id : Nat) (ids : List Nat) (r : CoreRec) (a : Nat) (m : List Host.Cell) : List Host.Cell :=
  writeParts (coreParts id) { r with core := r.core.ranked ids } a (copyRange m a r.core.mem 0 32768)

/-- The core record at address `a` of an image. -/
def readCore (m : List Host.Cell) (a : Nat) : CoreRec :=
  readParts (coreParts 0) m a
    { core := { Core.reset with mem := copyRange [] 0 m a 32768, serial := 65536 }, arrived := none, nextArr := none, inX := false }

end Sys2Proof.Machine
end

