-- ==== Sys2Proof/Machine/Save.lean ====
section
/-!
DEFINITION. Context images (19 R411, R416, R418, R425 to R428): SAVE, DUMP and RESTORE. An image holds the whole of a context but
its pages' contents, so that RESTORE takes one from any place and of any module. Where R425 names a field and not its place, the
place is the model's (log 9).
-/

namespace Sys2Proof.Machine

/-! ### Context, launches, groups (19 R425) -/

/-- What the context section holds. `lastQ` is the queue last chosen at each priority, by its place in the section of the queues (18
R407). -/
structure CtxRec where
  trees     : Table (BitVec 256)
  laneMask  : Word
  weight    : Nat
  sliceUs   : Nat
  waitMs    : Nat
  suspended : Bool
  pass      : Nat
  lastQ     : Table Nat
  deriving DecidableEq, Repr

/-- An empty context section. -/
def CtxRec.blank : CtxRec :=
  { trees := [], laneMask := 0, weight := 0, sliceUs := 0, waitMs := 0, suspended := false, pass := 0, lastQ := [] }

/-- The context section: the tree records first. -/
def contextParts : List (Part CtxRec) :=
  rowParts 0 32 256 (fun h c => (look 0#256 h c.trees).toNat)
    (fun h n c => if n = 0 then c else { c with trees := put h (BitVec.ofNat 256 n) c.trees }) ++
  [bitsPart 8192 CtxRec.laneMask (fun w c => { c with laneMask := w }),
   { off := 8196, len := 4, get := CtxRec.weight, set := fun n c => { c with weight := n } },
   { off := 8200, len := 4, get := CtxRec.sliceUs, set := fun n c => { c with sliceUs := n } },
   { off := 8204, len := 4, get := CtxRec.waitMs, set := fun n c => { c with waitMs := n } },
   flagPart 8208 CtxRec.suspended (fun b c => { c with suspended := b }),
   { off := 8216, len := 8, get := CtxRec.pass, set := fun n c => { c with pass := n } }] ++
  rowParts 8224 4 8 (fun p c => if has p c.lastQ then look 0 p c.lastQ + 1 else 0)
    (fun p n c => if n = 0 then c else { c with lastQ := put p (n - 1) c.lastQ })

/-- The 256 bytes of a launch record (17 R377), as decodeRecord reads them. -/
def recordBytes (r : LaunchRec) : List Byte :=
  leBytes 1 4 ++ leBytes r.image 8 ++ leBytes r.kernel 1 ++ leBytes r.lindex 1 ++ leBytes 0 2 ++ leBytes r.entry 4 ++
    leBytes (r.row0 + r.col0 * 2 ^ 9) 4 ++ leBytes (r.rows + r.cols * 2 ^ 10) 4 ++ leBytes (r.povr.toNat + 2 * Bool.toNat r.debug) 4 ++
    (r.levels.flatMap fun w => leBytes w.toNat 4) ++ (r.args.flatMap fun w => leBytes w.toNat 4) ++ leBytes 0 4 ++
    leBytes r.patchPtr 8 ++ leBytes r.waitAddr 8 ++ leBytes r.waitVal 8 ++ leBytes r.sigAddr 8 ++ leBytes r.sigAmt 8

/-- A group of no members. -/
def Group.blank : Group :=
  { channel := 0, root := (0, 0), members := [], entries := [], phase := 0, st := .compute, arrived := [], nextArr := [],
    releaseAt := 0, orVote := false, andVote := false, clock := none, closedAt := none, inX := [], frozen := false }

/-- The code of a launch's state. -/
def launchCode : LaunchState → Nat
  | .placing => 0
  | .loading => 1
  | .running => 2
  | .faulted => 3

/-- The launch state of a code. -/
def launchOfCode : Nat → LaunchState
  | 0 => .placing
  | 1 => .loading
  | 3 => .faulted
  | _ => .running

/-- A slot entry as a launch's section holds it (13 R297). -/
def entryFields : List (Part SlotEntry) :=
  [{ off := 0, len := 4, get := SlotEntry.slot, set := fun n e => { e with slot := n } },
   { off := 4, len := 4, get := SlotEntry.sender, set := fun n e => { e with sender := n } },
   { off := 8, len := 4, get := SlotEntry.receiver, set := fun n e => { e with receiver := n } },
   { off := 12, len := 4, get := SlotEntry.srcAt, set := fun n e => { e with srcAt := n } },
   { off := 16, len := 4, get := SlotEntry.dstAt, set := fun n e => { e with dstAt := n } },
   { off := 20, len := 4, get := SlotEntry.bytes, set := fun n e => { e with bytes := n } }]

/-- A launch's record, patch table and state, 1,344 bytes; queues by their places in the section of the queues. -/
def launchParts : List (Part (Nat × Launch)) :=
  let at' (off len : Nat) (get : Launch → Nat) (set : Nat → Launch → Launch) : Part (Nat × Launch) :=
    { off := off, len := len, get := fun p => get p.2, set := fun n p => (p.1, set n p.2) }
  [{ off := 1280, len := 1, get := Prod.fst, set := fun n p => (n, p.2) },
   at' 1281 1 (fun l => launchCode l.st) (fun n l => { l with st := launchOfCode n }),
   at' 1284 2 (fun l => l.groups.length) (fun n l => { l with groups := List.replicate n Group.blank }),
   at' 1288 4 (fun l => (l.origin.map fun o => o.2.1 + 1).getD 0)
     (fun n l => { l with origin := if n = 0 then none else some (0, n - 1, 0) }),
   at' 1296 8 (fun l => (l.origin.map fun o => o.2.2).getD 0)
     (fun n l => { l with origin := l.origin.map fun o => (o.1, o.2.1, n) }),
   at' 1304 4 (fun l => (l.report.map fun o => o.2 + 1).getD 0)
     (fun n l => { l with report := if n = 0 then none else some (0, n - 1) }),
   at' 1308 4 Launch.order (fun n l => { l with order := n })] ++
  listParts 1282 2 256 4 256 [bitsPart 0 (fun (w : Word) => w) (fun w _ => w)] 0 (fun (p : Nat × Launch) => p.2.patch)
    (fun l p => (p.1, { p.2 with patch := l }))

/-- The bytes a launch takes in its section: 1,344, and for each group 32 and 24 for each slot entry. -/
def launchLength (l : Launch) : Nat := 1344 + (l.groups.foldl (fun n g => n + 32 + 24 * g.entries.length) 0)

/-- Writes a group's channel and slot table at an address, and answers the address after them. -/
def writeTable (r : Nat × List Host.Cell) (g : Group) : Nat × List Host.Cell :=
  let m1 := writeBytes r.2 r.1 (leBytes g.channel 4 ++ leBytes g.entries.length 4)
  let es := (List.range g.entries.length).zip g.entries
  (r.1 + 32 + 24 * g.entries.length, es.foldl (fun m p => writeParts entryFields p.2 (r.1 + 32 + 24 * p.1) m) m1)

/-- Writes a launch at an address, and answers the address after it. -/
def writeLaunch (r : Nat × List Host.Cell) (p : Nat × Launch) : Nat × List Host.Cell :=
  p.2.groups.foldl writeTable (r.1 + 1344, writeParts launchParts p r.1 (writeBytes r.2 r.1 (recordBytes p.2.record)))

/-- The slot table of a group at an address: its channel and entries. -/
def readTableAt (m : List Host.Cell) (a : Nat) : Nat × List SlotEntry :=
  (leNat (readBytes m a 4), (List.range (leNat (readBytes m (a + 4) 4))).map fun i =>
    readParts entryFields m (a + 32 + 24 * i) { slot := 0, sender := 0, receiver := 0, srcAt := 0, dstAt := 0, bytes := 0 })

/-- The groups of a launch with their channels and slot tables from an address on, and the address after them. -/
def readTables (m : List Host.Cell) : Nat → List Group → List Group × Nat
  | a, [] => ([], a)
  | a, g :: gs =>
    let t := readTableAt m a
    let r := readTables m (a + 32 + 24 * t.2.length) gs
    ({ g with channel := t.1, entries := t.2 } :: r.1, r.2)

/-- The launches from an address on. -/
def readLaunches (m : List Host.Cell) : Nat → Nat → List (Nat × Launch)
  | 0, _ => []
  | n + 1, a =>
    let blank : Launch := { st := .placing, record := decodeRecord (readBytes m a 256), patch := [], groups := [], origin := none,
                            report := none, order := 0 }
    let p := readParts launchParts m a (0, blank)
    let r := readTables m (a + 1344) p.2.groups
    (p.1, { p.2 with groups := r.1 }) :: readLaunches m n r.2

/-- The code of a group's state. -/
def groupCode : GroupState → Nat
  | .compute => 0
  | .held => 1
  | .releasing => 2
  | .exchange => 3

/-- The group state of a code; none is RELEASING when its context has stopped (12 R287). -/
def groupOfCode : Nat → GroupState
  | 1 => .held
  | 3 => .exchange
  | _ => .compute

/-- A group of a launch slot: 64 bytes, with its place in the launch. -/
structure GroupRec where
  slot  : Nat
  place : Nat
  group : Group
  deriving DecidableEq, Repr

/-- The parts of a group record: group and channel state, phase, votes, the exchange clock and whether its slot has closed. -/
def groupParts : List (Part GroupRec) :=
  let at' (off len : Nat) (get : Group → Nat) (set : Nat → Group → Group) : Part GroupRec :=
    { off := off, len := len, get := fun r => get r.group, set := fun n r => { r with group := set n r.group } }
  [{ off := 0, len := 1, get := GroupRec.slot, set := fun n r => { r with slot := n } },
   { off := 1, len := 1, get := GroupRec.place, set := fun n r => { r with place := n } },
   at' 2 1 Group.channel (fun n g => { g with channel := n }),
   at' 3 1 (fun g => groupCode g.st) (fun n g => { g with st := groupOfCode n, frozen := n == 3 }),
   at' 4 2 (fun g => g.phase.toNat) (fun n g => { g with phase := BitVec.ofNat 16 n }),
   at' 6 1 (fun g => g.orVote.toNat) (fun n g => { g with orVote := n == 1 }),
   at' 7 1 (fun g => g.andVote.toNat) (fun n g => { g with andVote := n == 1 }),
   at' 8 2 (fun g => (g.clock.map (· + 1)).getD 0) (fun n g => { g with clock := if n = 0 then none else some (n - 1) }),
   at' 10 1 (fun g => g.closedAt.isSome.toNat) (fun n g => { g with closedAt := if n = 1 then some 0 else none })]

/-! ### Lanes, pages, queues (19 R425) -/

/-- The code of a lane's state. -/
def laneCode : LaneState → Nat
  | .idle => 0
  | .gathering => 1
  | .running => 2

/-- The lane state of a code. -/
def laneOfCode : Nat → LaneState
  | 1 => .gathering
  | 2 => .running
  | _ => .idle

/-- An owned lane, with S relative to cycle `now`, read back onto a slot boundary (14 R321). Every core of a stopped context has withdrawn its entries, so the queue is
empty, and a frame whose leaders withdrew is void (14 R329, R337). -/
def laneParts (now : Nat) : List (Part (Nat × Lane)) :=
  let at' (off len : Nat) (get : Lane → Nat) (set : Nat → Lane → Lane) : Part (Nat × Lane) :=
    { off := off, len := len, get := fun p => get p.2, set := fun n p => (p.1, set n p.2) }
  [{ off := 0, len := 1, get := Prod.fst, set := fun n p => (n, p.2) },
   at' 1 1 (fun l => laneCode l.st) (fun n l => { l with st := laneOfCode n }),
   at' 2 2 (fun l => l.fn.toNat) (fun n l => { l with fn := BitVec.ofNat 16 n }),
   at' 4 2 (fun l => l.frame.toNat) (fun n l => { l with frame := BitVec.ofNat 16 n }),
   at' 6 1 Lane.slot (fun n l => { l with slot := n }),
   at' 7 1 (fun l => (l.void || l.entrants.any Entrant.leading).toNat) (fun n l => { l with void := n == 1 }),
   at' 8 8 (fun l => l.bits.toNat) (fun n l => { l with bits := BitVec.ofNat 53 n }),
   at' 16 4 (fun l => if l.st = .idle then 0 else l.start + 2 ^ 31 - now)
     (fun n l => { l with start := (now + n - 2 ^ 31 + 3) / 4 * 4 })]

/-- A page: address, size, then R, W, X, REPL, DEM, MIG, HCHK and PART in one byte. -/
def pageRecord (va e : Nat) : List Byte :=
  let bit (i p : Nat) : Nat := bitsOf e i 1 * 2 ^ p
  leBytes va 8 ++ leBytes (leafK e) 1 ++
    leBytes (bit 2 0 + bit 3 1 + bit 4 2 + bit 5 3 + bit 6 4 + bit 9 5 + bit 7 6 + bit 53 7) 1 ++ leBytes 0 22

/-- A page of an image: its address, and a leaf entry without a frame. -/
def readPage (m : List Host.Cell) (a : Nat) : Nat × BitVec 64 :=
  let f := leNat (readBytes m (a + 9) 1)
  let bit (i : Nat) : Bool := bitsOf f i 1 == 1
  let e := leafEntry (leNat (readBytes m (a + 8) 1)) 0 (bit 0) (bit 1) (bit 2) (bit 4) (bit 6) (bit 5) (bitsOf f 7 1) 0
  (leNat (readBytes m a 8), BitVec.ofNat 64 (setBit e 5 (bitsOf f 3 1)))

/-- A queue's descriptor (18 R398). -/
def descriptorOf (f : Nat) (q : HQueue) : Nat :=
  q.repBase * 2 ^ 192 + q.ringBase * 2 ^ 128 + (if q.enabled then 2 ^ 63 else 0) + (if q.hostMem then 2 ^ 62 else 0) +
    q.prio * 2 ^ 59 + q.log2n * 2 ^ 54 + f * 2 ^ 44 + q.ctx * 2 ^ 32

/-- The bytes of a queue record: descriptor, HEAD, TAIL, QSTAT. -/
def queueRecord (f : Nat) (q : HQueue) : List Byte :=
  leBytes (descriptorOf f q) 32 ++ leBytes q.head.toNat 4 ++ leBytes q.tail.toNat 4 ++ leBytes (qstatWord q).toNat 4 ++ leBytes 0 20

/-- The state of a queue by its code in QSTAT (18 R400). -/
def queueOfCode : Nat → QState
  | 1 => .empty
  | 2 => .waiting
  | 3 => .ready
  | 4 => .error
  | _ => .disabled

/-- The queue record at an address, as a queue of context `x`; one that waits is polled at `now`. -/
def readQueue (m : List Host.Cell) (x now a : Nat) : HQueue :=
  let d := leNat (readBytes m a 32)
  let st := leNat (readBytes m (a + 40) 4)
  { HQueue.reset with
    ctx := x, repBase := bitsOf d 192 64, ringBase := bitsOf d 128 64, hostMem := bitsOf d 62 1 == 1, prio := bitsOf d 59 3,
    log2n := bitsOf d 54 5, st := queueOfCode (bitsOf st 29 3), head := readWord m (a + 32), tail := readWord m (a + 36),
    sigErr := bitsOf st 28 1 == 1, err := bitsOf st 24 4, childRej := bitsOf st 16 8, pollAt := now }

/-! ### The image (19 R425) -/

/-- The logical cores with a valid entry in a context's table, rising. -/
def validEntries (s : State) (x : Nat) : List Nat :=
  ((otherEntries s x).map Prod.fst).foldl (fun l n => insertNat n l) []

/-- The records of a context's cores by logical number: halted in place, or in the save area. -/
def imageCores (s : State) (x : Nat) : Table Core :=
  if (s.ctx x).saveArea.isEmpty then savedCores s x else (s.ctx x).saveArea

/-- The lanes a context owns. -/
def ownedLanes (s : State) (x : Nat) : Table Lane := s.lanes.filter fun p => p.2.owner == some x

/-- What a context's group has counted for one of its members. -/
def countedFor (c : Context) (k : Core) : CoreRec :=
  let g := ((c.launches.find? fun p => p.1 == k.lslot).map Prod.snd).bind fun l => k.group.bind fun i => l.groups[i]?
  let mark (l : List (Nat × Option Bool × Bool)) : Option (Option Bool × Bool) := (l.find? fun a => a.1 == k.lcore).map Prod.snd
  { core := k, arrived := (g.map fun r => mark r.arrived).getD none, nextArr := (g.map fun r => mark r.nextArr).getD none,
    inX := g.any fun r => r.inX.contains k.lcore }

/-- The place of a number in a list. -/
def placeIn (ns : List Nat) (n : Nat) : Nat := (ns.findIdx? (· == n)).getD 0

/-- The launches of a context as its image names their queues and their order: by place. -/
def imageLaunches (s : State) (x : Nat) : List (Nat × Launch) :=
  let c := s.ctx x
  let qs := (queuesOf s x).map Prod.fst
  c.launches.map fun p => (p.1, { p.2 with
    origin := p.2.origin.map fun o => (0, placeIn qs o.2.1, o.2.2),
    report := p.2.report.map fun o => (0, placeIn qs o.2),
    order := (c.launches.filter fun q => decide (q.2.order < p.2.order)).length })

/-- The context section of a context. -/
def contextRec (s : State) (x : Nat) : CtxRec :=
  let c := s.ctx x
  let f := s.func c.func
  let qs := (queuesOf s x).map Prod.fst
  { trees := c.trees, laneMask := c.laneMask, weight := c.weight, sliceUs := f.sliceUs, waitMs := f.waitMs,
    suspended := c.suspended, pass := c.pass, lastQ := (c.lastQ.filter fun p => qs.contains p.2).map fun p => (p.1, placeIn qs p.2) }

/-- A section: the number of its records, its bytes, and how they are written from an offset of the image on. -/
structure Sect where
  count : Nat
  size  : Nat
  write : Nat → List Host.Cell → List Host.Cell

/-- A section of records of one size. -/
def sectOf {α : Type} (size : Nat) (write : α → Nat → List Host.Cell → List Host.Cell) (xs : List α) : Sect :=
  { count := xs.length, size := size * xs.length,
    write := fun a m => ((List.range xs.length).zip xs).foldl (fun k p => write p.2 (a + size * p.1) k) m }

/-- The sections of a context's image, in the order of their kinds. -/
def sectionsOf (s : State) (x : Nat) : List Sect :=
  let c := s.ctx x
  let cores := imageCores s x
  let ls := imageLaunches s x
  let groups := ls.flatMap fun p => ((List.range p.2.groups.length).zip p.2.groups).map fun g =>
    ({ slot := p.1, place := g.1, group := g.2 } : GroupRec)
  [sectOf 16384 (writeParts contextParts) [contextRec s x],
   sectOf 49152 (fun n => writeCore ((grantedCore s x n).getD 0) (c.pool.map PoolRec.id)
     (countedFor c (look { Core.reset with lcore := n } n cores))) (validEntries s x),
   { count := ls.length, size := ls.foldl (fun n p => n + launchLength p.2) 0, write := fun a m => (ls.foldl writeLaunch (a, m)).2 },
   sectOf 64 (writeParts groupParts) groups,
   sectOf 2048 (writeParts (laneParts s.now)) (ownedLanes s x),
   sectOf 64 (fun r a m => writeBytes m a r.bytes) c.pool,
   sectOf 32 (fun (p : Nat × Nat) a m => writeBytes m a (pageRecord p.1 (entryOf s x p.1))) c.mapped,
   sectOf 64 (fun (q : Nat × HQueue) a m => writeBytes m a (queueRecord c.func q.2)) (queuesOf s x)]

/-- Writes the section table and the sections of kind `kind` and on, from an offset on, and answers the length of the image. -/
def layOut : Nat → Nat → List Sect → List Host.Cell → Nat × List Host.Cell
  | _, off, [], m => (off, m)
  | kind, off, t :: rest, m =>
    let entry := leBytes kind 4 ++ leBytes t.count 4 ++ leBytes t.size 8 ++ leBytes off 8
    layOut (kind + 1) (alignUp (off + t.size) 64) rest (t.write off (writeBytes m (32 + 32 * kind) entry))

/-- The FLAGS of an image. -/
def imageFlags (c : Context) (faulted : Bool) : Nat :=
  (if c.forced then 1 else 0) + (if faulted then 2 else 0) + (if c.halted then 4 else 0)

/-- The whole image of a context: its length, and its bytes by their offsets; every other byte is 0. -/
def imageOf (s : State) (x : Nat) (faulted : Bool) : Nat × List Host.Cell :=
  let c := s.ctx x
  let r := layOut 1 320 (sectionsOf s x) []
  (r.1, writeBytes r.2 0 (leBytes 0x58544E43 4 ++ leBytes 1 2 ++ leBytes 1 2 ++ leBytes x 2 ++ leBytes (imageFlags c faulted) 2 ++
    leBytes 8 4 ++ leBytes r.1 8 ++ leBytes c.image.manifest.toNat 32))

/-! ### SAVE and DUMP (19 R411, R412, R416, R418; 20 R440) -/

/-- SAVE (19 R411, R416; 20 R440): a RUNNING context is halted first; that is deferred while a collective of it is open. A halt
replaces a pending pre-emption, which stands again should the image not be written; one of HALT goes on. -/
def execSave (f x out limit : Nat) (s : State) : Host.Outcome State Fault Refusal :=
  .next (s.ctxCommand f x (fun st => st == .running || st == .preempted || st == .quiesced) fun c =>
    if 2 ^ 64 ≤ out || !hostReach s f then .err 2
    else
      let d := { c with haltKind := .save, saveArgs := (out, limit) }
      if c.st ≠ .running then .begun (s.setCtx x d)
      else if c.haltKind = .halt then .begun (s.setCtx x { d with halted := true })
      else
        let d1 := { d with repend := c.pending, pending := false, forced := false, deferred := collectiveOpen s x }
        if collectiveOpen s x then .begun ((s.setCtx x d1).startWatch x) else .begun ((s.setCtx x d1).askHalt x .halt))

/-- DUMP (19 R411, R418). -/
def execDump (f x out limit : Nat) (s : State) : Host.Outcome State Fault Refusal :=
  .next (s.ctxCommand f x (fun st => st == .faulted) fun c =>
    if 2 ^ 64 ≤ out || !hostReach s f then .err 2
    else .begun (s.setCtx x { c with haltKind := .save, saveArgs := (out, limit) }))

/-- A context whose SAVE has failed goes on where it was halted; a pending pre-emption stands again, and a HALT that the SAVE met is
complete (19 R416). -/
def State.letGo (s : State) (x : Nat) : State :=
  let c := s.ctx x
  if c.halted then
    let s1 := (s.stow x .quiesced).startWatch x
    s1.setCtx x { s1.ctx x with paused := .host }
  else
    let ids := coresOf s x
    let s1 := ids.foldl (fun q n => q.modCore n fun k =>
      { k with status := awoken k.status, haltReq := .none, cycle0 := s.now, readyAt := s.now }) s
    let s2 := ids.foldl (fun q n => if (q.core n).status = .idle then q else q.reenter n) (s1.setCtx x { c with repend := false })
    if c.repend then s2.preemptCtx x c.paused else s2

/-- Whether the image of a context can be taken: it has stopped, every report is written (18 R401; 19 R413). -/
def imageReady (s : State) (x : Nat) : Bool :=
  let c := s.ctx x
  c.haltKind == .save && !owesReports s x &&
    (c.st == .preempted || c.st == .quiesced || (c.st == .faulted && allRest s x) || haltDone s x)

/-- The last harvest of a SAVE (10 R263; 19 R428), into what its limit leaves behind an image of `n` bytes: the dirty units as by HARVEST,
then a word of ones. DESIGN CHOICE, unsafe: the spec gives SAVE a last harvest and no place for it; bits that find no room stay set (log
70). -/
def State.lastHarvest (s : State) (x out limit n : Nat) : State :=
  let room := (limit - n) / 8
  if room = 0 then s
  else
    let r := s.harvestTo x (out + n) (room - 1)
    { r.1 with hostMem := writeBytes r.1.hostMem (out + n + 8 * r.2) (List.replicate 8 0xFF#8) }

/-- SAVE_COMPLETE of context `x` (19 R412, R425, R428): after a last harvest the image is written, once every core has halted and no
memory of the context is in retention (08 R215), nor the host's link (20 R433). Beyond the limit, or where the host is out of reach, the command fails and the context is as before. -/
def execSaveComplete (x : Nat) (s : State) : Host.Outcome State Fault Refusal :=
  let c := s.ctx x
  let dump := c.st == .faulted
  let running := c.st == .running
  if !imageReady s x || hostHeld s c.func then .next s
  else if !memoriesAwake s x then .next (s.rouseCores x)
  else
    let s1 := s.setCtx x { c with haltKind := .none }
    let s2 := s.setCtx x { c with haltKind := .none, halted := c.halted || running }
    let im := imageOf s2 x dump
    if c.saveArgs.2 < im.1 || !hostReach s c.func then
      .next ((if running then s1.letGo x else s1).finish c.func (if hostReach s c.func then 5 else 2) [])
    else
      let s0 := if dump then s2 else s2.lastHarvest x c.saveArgs.1 c.saveArgs.2 im.1
      let s3 : State := { s0 with hostMem := copyRange s0.hostMem c.saveArgs.1 im.2 0 im.1 }
      let s4 := if running then (s3.stow x .saved).startWatch x
        else if dump then s3
        else s3.setCtx x { s3.ctx x with st := .saved, resuming := false }
      .next ((s4.setCtx x { s4.ctx x with paused := .host, repend := false }).finish c.func 0 (twoWords 1 im.1))

/-! ### RESTORE (19 R411, R427) -/

/-- A section of the image at an address: the number of its records and the address of the first; none where there is none. -/
def sectionAt (m : List Host.Cell) (a kind : Nat) : Nat × Nat :=
  let n (o k : Nat) : Nat := leNat (readBytes m (a + o) k)
  match (List.range (n 12 4)).find? fun i => n (64 + 32 * i) 4 == kind with
  | none => (0, a)
  | some i => (n (68 + 32 * i) 4, a + n (80 + 32 * i) 8)

/-- The records of one size of a section. -/
def recordsOf {α : Type} (m : List Host.Cell) (a kind size : Nat) (read : Nat → α) : List α :=
  let t := sectionAt m a kind
  (List.range t.1).map fun i => read (t.2 + size * i)

/-- Whether the reserved fields of an image's records are 0: those of the system registers, the launch records, the tree records and the
queue descriptors (00 R9; 05 R136; 08 R194; 17 R377; 18 R398; 19 R427). -/
def recordsClean (m : List Host.Cell) (a : Nat) : Bool :=
  let regs (b : Nat) : Bool := (List.range 64).all fun n => readWord m (b + 0x8700 + 4 * n) &&& sysReserved n == 0
  let tree (b : Nat) : Bool :=
    let r := leNat (readBytes m b 32)
    r == 0 || (treeOf (BitVec.ofNat 256 r)).isSome
  let desc (b : Nat) : Bool :=
    let d := leNat (readBytes m b 32)
    bitsOf d 64 64 == 0 && bitsOf d 0 32 == 0
  let ctxs := sectionAt m a 1
  let ls := sectionAt m a 3
  (recordsOf m a 2 49152 regs).all (· == true) &&
    (ctxs.1 == 0 || (List.range 256).all fun h => tree (ctxs.2 + 32 * h)) &&
    ((readLaunches m ls.1 ls.2).all fun p => p.2.record.ok) && (recordsOf m a 8 64 desc).all (· == true)

/-- The first check of an image's header that fails, by its error; none where all pass (19 R427). -/
def headerError (s : State) (x a : Nat) : Option Nat :=
  let m := s.hostMem
  let n (o k : Nat) : Nat := leNat (readBytes m (a + o) k)
  let reserved := n 56 8 == 0 && bitsOf (n 10 2) 3 13 == 0 &&
    ((List.range 8).all fun i => n (64 + 32 * i + 24) 8 == 0)
  if n 0 4 ≠ 0x58544E43 || !reserved || !recordsClean m a then some 6
  else if n 6 2 ≠ 1 || n 4 2 ≠ 1 then some 7
  else if bitsOf (n 10 2) 1 1 = 1 || BitVec.ofNat 256 (n 24 32) ≠ (s.ctx x).image.manifest then some 6
  else none

/-- The record of a continuation in a context of another number: its CTX and its CHECK (17 R380, R382). -/
def renumber (x : Nat) (bs : List Byte) : List Byte :=
  if contOk bs then
    let fl := (wordAt bs 1).toNat
    contBytes (wordAt bs 0) (BitVec.ofNat 32 (fl / 4096 * 4096 + x % 4096)) ((List.range 12).map fun i => wordAt bs (i + 2))
      (wordAt bs 14)
  else bs

/-- Whether a page is to be on demand after RESTORE: recorded so, or a code page (19 R427). -/
def wantsDemand (s : State) (x va e : Nat) : Bool := bitsOf e 6 1 == 1 || (codePage s x va).isSome

/-- Installs a recorded page (19 R427; 10 R245, R253); none without a frame. -/
def installPage (x : Nat) (p : Nat × BitVec 64) (s : State) : Option State :=
  let va := p.1
  let e := p.2.toNat
  let k := leafK e
  let c := s.ctx x
  let bit (i : Nat) : Bool := bitsOf e i 1 == 1
  let here := c.mapped.any fun q => q.1 == va && q.2 == k
  let old := if here then entryOf s x va else 0
  let resident := here && bitsOf old 6 1 == 0
  if wantsDemand s x va e then
    let kept := c.backings.filter fun b => b.1 == va
    let s1 := if here then s.unmapPage x va k else s
    let s2 := s1.setCtx x { s1.ctx x with backings := kept.foldl (fun t b => put b.1 b.2 t) (s1.ctx x).backings }
    s2.writeLeaf x va k (leafEntry k 0 (bit 2) (bit 3) (bit 4) true false false (bitsOf e 53 1) c.tag)
  else
    let was := resident && leafState old == some .replicated
    let want := leafState e == some .replicated
    match if resident then some (leafFrame old) else pickFrame s k with
    | none => none
    | some frame =>
      let s1 := if resident then s else s.zeroPhys frame (pageSize k)
      let others := (framesOf frame true).filter (· != frame)
      if want && !was && !(others.all fun a => rangeFree s1 a (pageSize k)) then none
      else
        let s2 := if want && !was then
            others.foldl (fun q a => q.copyFrame frame a (pageSize k)) s1
          else s1
        let d : Shootdown := { ctx := x, va := va, size := pageSize k, frame := frame, free := false, copies := true, back := none }
        let s3 : State := if was && !want then { s2 with shoot := s2.shoot ++ [d] } else s2
        s3.writeLeaf x va k
          (setBit (leafEntry k frame (bit 2) (bit 3) (bit 4) false false false (bitsOf e 53 1) c.tag) 5 (if want then 1 else 0))

/-- The pages of a context that an image does not record, unmapped. -/
def State.dropUnrecorded (s : State) (x : Nat) (ps : List (Nat × BitVec 64)) : State :=
  ((s.ctx x).mapped.filter fun p => !(ps.any fun r => r.1 == p.1 && leafK r.2.toNat == p.2)).foldl
    (fun q p => q.unmapPage x p.1 p.2) s

/-- The numbers that `n` queues of an image take: the lowest that the function has free, in order (log 9); none where too few are
left. -/
def queueNumbers (s : State) (f n : Nat) : Option (List Nat) :=
  let free := (List.range 1024).filter fun q => (s.queue f q).st == .absent
  if n ≤ free.length then some (free.take n) else none

/-- A launch of an image in its new context: its queues, its place in the order of admission, its groups' members. -/
def adopted (s : State) (f x : Nat) (qs : List Nat) (p : Nat × Launch) : Nat × Launch :=
  let r := { p.2.record with image := x }
  let formed := (((s.ctx x).image.kernels.find? fun k => k.1 == r.kernel).map fun k => formGroups s x k.2 r).getD []
  let members (g : Group) : List Nat := ((formed.find? fun h => h.channel == g.channel).map Group.members).getD []
  (p.1, { p.2 with record := r, origin := p.2.origin.map fun o => (f, qs.getD o.2.1 0, o.2.2),
                   report := p.2.report.map fun o => (f, qs.getD o.2 0), order := s.launchSeq + p.2.order,
                   groups := p.2.groups.map fun g => { g with members := members g } })

/-- A launch with the states of its groups and what they have counted of their members. -/
def countedLaunch (gs : List GroupRec) (cs : List CoreRec) (p : Nat × Launch) : Nat × Launch :=
  let state (i : Nat) (g : Group) : Group :=
    let h := ((gs.find? fun r => r.slot == p.1 && r.place == i).map GroupRec.group).getD g
    let mine := cs.filter fun r => r.core.lslot == p.1 && r.core.group == some i
    { h with channel := g.channel, members := g.members, entries := g.entries,
             arrived := mine.filterMap fun r => r.arrived.map fun a => (r.core.lcore, a),
             nextArr := mine.filterMap fun r => r.nextArr.map fun a => (r.core.lcore, a),
             inX := (mine.filter CoreRec.inX).map fun r => r.core.lcore }
  (p.1, { p.2 with groups := ((List.range p.2.groups.length).zip p.2.groups).map fun q => state q.1 q.2 })

/-- A core of an image in context `x` of function `f`. -/
def adoptedCore (f x tag : Nat) (c : Core) : Core :=
  let fl := c.flagsWord.toNat / 4096 * 4096 + x % 4096
  { c with ctx := some x, tag := tag, flagsWord := BitVec.ofNat 32 fl, transfers := c.transfers.map fun t => { t with func := f } }

/-- A context image as read. -/
structure Parsed where
  flags    : Nat
  context  : CtxRec
  cores    : List CoreRec
  launches : List (Nat × Launch)
  lanes    : List (Nat × Lane)
  pool     : List (List Byte)
  pages    : List (Nat × BitVec 64)
  queues   : List HQueue
  deriving DecidableEq, Repr

/-- Reads the image at an address of host memory for context `x` of function `f`; its queues take the numbers `qs`. -/
def readImageAt (s : State) (f x a : Nat) (qs : List Nat) : Parsed :=
  let m := s.hostMem
  let cores := recordsOf m a 2 49152 (readCore m)
  let groups := recordsOf m a 4 64 fun b => readParts groupParts m b
    { slot := 0, place := 0, group := Group.blank }
  let ls := sectionAt m a 3
  { flags := leNat (readBytes m (a + 10) 2),
    context := readParts contextParts m (sectionAt m a 1).2 CtxRec.blank,
    cores := cores,
    launches := ((readLaunches m ls.1 ls.2).map (adopted s f x qs)).map (countedLaunch groups cores),
    lanes := recordsOf m a 5 2048 fun b => readParts (laneParts s.now) m b (0, { Lane.reset with owner := some x }),
    pool := recordsOf m a 6 64 fun b => readBytes m b 64,
    pages := recordsOf m a 7 32 (readPage m),
    queues := recordsOf m a 8 64 (readQueue m x s.now) }

/-- The forage pool of an image: records by their places, those that a waiting core has reserved marked; the executive puts them
into the share of one die (log 9). -/
def adoptedPool (s : State) (x die : Nat) (im : Parsed) : List PoolRec :=
  ((List.range im.pool.length).zip im.pool).map fun p =>
    { id := p.1, bytes := renumber x p.2, reserved := im.cores.any fun r => r.core.wait == .reserved p.1, die := die, since := s.now }

/-- Whether a lane of a context is still in use: it is not IDLE, or an entry is on its way to it (14 R322). -/
def laneBusy (s : State) (x n : Nat) : Bool :=
  let l := s.lane n
  l.owner == some x && (l.st != .idle || !l.sent.isEmpty || (s.cores.any fun p => p.2.ctx == some x && (p.2.holder n).st == .pending))

/-- Installs an image in a context whose checks have passed; none where frames run out. The lanes granted before are given back
(14 R322; log 86). -/
def State.installImage (s : State) (f x : Nat) (im : Parsed) (qs : List Nat) : Option State :=
  (each (installPage x) im.pages (s.dropUnrecorded x im.pages)).map fun s1 =>
    let c := s1.ctx x
    let o := im.context
    let held := im.cores.filter fun r => r.core.ctx.isSome
    let die := ((held.head?.bind fun r => grantedCore s1 x r.core.lcore).map dieOf).getD 0
    let c1 := { c with
      st := .saved, trees := o.trees, laneMask := o.laneMask, weight := o.weight, pass := o.pass,
      launches := im.launches.foldl (fun t p => put p.1 p.2 t) [], pool := adoptedPool s1 x die im, poolSeq := im.pool.length,
      lastQ := o.lastQ.map fun p => (p.1, qs.getD p.2 0), forced := bitsOf im.flags 0 1 == 1, halted := bitsOf im.flags 2 1 == 1,
      suspended := o.suspended, paused := .host, resuming := false, tracking := false,
      saveArea := held.foldl (fun t r => put r.core.lcore (adoptedCore f x c.tag r.core) t) [] }
    let s2 := (s1.setCtx x c1).setFunc f { s1.func f with sliceUs := o.sliceUs, waitMs := o.waitMs }
    let s3 := ((qs.zip im.queues).foldl (fun q p => q.setQueue f p.1 p.2) s2).mapLanes x fun _ => Lane.reset
    let s4 := im.lanes.foldl (fun q p => q.setLane p.1 p.2) s3
    { s4 with launchSeq := s4.launchSeq + im.launches.length }

/-- RESTORE (19 R411, R412, R427): the image may come from any place and any module. Lanes of the context still in use are not free (14
R322; log 86). -/
def execRestore (f x image : Nat) (s : State) : Host.Outcome State Fault Refusal :=
  .next (s.ctxCommand f x (fun st => st == .ready) fun c =>
    if 2 ^ 64 ≤ image || !hostReach s f || !c.launches.isEmpty then .err 2
    else match headerError s x image with
      | some e => .err e
      | none =>
        let qs := queueNumbers s f (sectionAt s.hostMem image 8).1
        let im := readImageAt s f x image (qs.getD [])
        if im.cores.any fun r => (grantedCore s x r.core.lcore).isNone then .err 2
        else if qs.isNone || (im.lanes.any fun p => (s.lane p.1).owner.any (· != x)) || ((List.range 32).any (laneBusy s x)) ||
            !rootsApart s (im.launches.flatMap fun p => p.2.groups.map (resumedGroup s x)) then .err 5
        else match s.installImage f x im (qs.getD []) with
          | none => .err 5
          | some q => .ok q [])

end Sys2Proof.Machine
end

