-- ==== Sys2Proof/Machine/Registers.lean ====
section
/-!
DEFINITION. The registers of BAR0 as the host reads and writes them (00 R8; 18 R400; 19 R410, R411, R420; 20 R436, R442): each
under its access code, and those with a behaviour of their own, whose behaviour is that of their events.
-/

namespace Sys2Proof.Machine

/-! ### Windows and queues word by word (18 R400; 20 R436) -/

/-- One half of a 64-bit field replaced. -/
def halfWord (old i v : Nat) : Nat := if i = 0 then old / 2 ^ 32 * 2 ^ 32 + v else old % 2 ^ 32 + v * 2 ^ 32

/-- A descriptor after a write of word `i`, its read-only fields and EN as they were. -/
def Window.write (d : Window) (i v : Nat) : Window :=
  match i with
  | 0 => { d with kind := bitsOf v 2 1 == 1 }
  | 8 => { d with lctx := bitsOf v 0 12, rctx := bitsOf v 12 12, home := bitsOf v 24 6,
                  wdog := d.wdog / 4 * 4 + bitsOf v 30 2 }
  | 9 => { d with wdog := d.wdog % 4 + bitsOf v 0 8 * 4, len := bitsOf v 8 24 }
  | 10 => { d with members := BitVec.ofNat 64 (halfWord d.members.toNat 0 v) }
  | 11 => { d with members := BitVec.ofNat 64 (halfWord d.members.toNat 1 v) }
  | 12 => { d with ctr := halfWord d.ctr 0 v }
  | 13 => { d with ctr := halfWord d.ctr 1 v }
  | 14 => { d with base := halfWord d.base 0 v }
  | 15 => { d with base := halfWord d.base 1 v }
  | _ => d

/-- QSTAT after a write: SIGERR and CHILDREJ are cleared by ones. -/
def HQueue.writeStat (q : HQueue) (v : Word) : HQueue :=
  { q with sigErr := q.sigErr && !v.getLsbD 28, childRej := q.childRej - (q.childRej &&& bitsOf v.toNat 16 8) }

/-- Word `i` of a window's descriptor. -/
def Window.word (d : Window) (i : Nat) : Word :=
  BitVec.ofNat 32 (match i with
    | 0 => d.en.toNat + 4 * d.kind.toNat + 8 * d.isOpen.toNat + 16 * (d.errc % 16) + 65536 * d.epoch.toNat
    | 8 => d.lctx % 4096 + d.rctx % 4096 * 2 ^ 12 + d.home % 64 * 2 ^ 24 + d.wdog % 4 * 2 ^ 30
    | 9 => d.wdog / 4 % 256 + d.len % 2 ^ 24 * 2 ^ 8
    | 10 => d.members.toNat
    | 11 => d.members.toNat / 2 ^ 32
    | 12 => d.ctr
    | 13 => d.ctr / 2 ^ 32
    | 14 => d.base
    | 15 => d.base / 2 ^ 32
    | _ => 0)

/-! ### Reads (00 R8; 19 R410, R420) -/

/-- The word of MBSTAT (19 R410). -/
def mbstatWord (r : Func) : Word := BitVec.ofNat 32 (r.busy.toNat * 2 ^ 31 + r.done.toNat * 2 ^ 30 + r.err % 256 * 2 ^ 16)

/-- The 32 bytes of MBNOTE (19 R420). -/
def noteBytes (n : Note) : List Byte :=
  leBytes n.seq.toNat 4 ++ leBytes n.kind 2 ++ leBytes n.ctx 2 ++ leBytes n.lcore.toNat 4 ++ leBytes n.cause.toNat 4 ++
    leBytes n.tpc.toNat 4 ++ leBytes n.t0.toNat 4 ++ leBytes n.t1.toNat 4 ++ leBytes n.t2.toNat 4

/-- What the host reads at offset `off` of BAR0 of function `f`: MBCMD and QDOOR are write-only and read zero, as does every place
that holds no register (00 R8; 18 R400; 19 R410; 20 R436). -/
def registerRead (s : State) (f off : Nat) : Word :=
  let r := s.func f
  if off % 4 ≠ 0 then 0
  else if off = 4 then mbstatWord r
  else if 0x40 ≤ off && off < 0xC0 then r.args.toList.getD ((off - 0x40) / 4) 0
  else if 0x100 ≤ off && off < 0x120 then wordAt (noteBytes r.note) ((off - 0x100) / 4)
  else if 0x100000 ≤ off && off < 0x104000 && off % 16 = 4 then
    let q := s.queue f ((off - 0x100000) / 16)
    if q.st = .absent then 0 else qstatWord q
  else if 0x200000 ≤ off && off < 0x201000 then (r.window ((off - 0x200000) / 64)).word (off % 64 / 4)
  else 0

/-! ### Commands (19 R410, R411) -/

/-- An argument word of a function, as a number. -/
def argOf (s : State) (f i : Nat) : Nat := ((s.func f).args.toList.getD i 0).toNat

/-- An argument of two words. -/
def argPair (s : State) (f i : Nat) : Nat := argOf s f i + 2 ^ 32 * argOf s f (i + 1)

/-- A command on a context with an argument value that means nothing (19 R411). -/
def badArgument (f x : Nat) (s : State) : Host.Outcome State Fault Refusal :=
  .next (s.ctxCommand f x (fun _ => true) fun _ => .err 2)

/-- MAP from its argument words: flags R, W, X, DEMAND in bits 0 to 3; a source that is not 0 lies in host memory. DESIGN CHOICE (log
88). -/
def mapCommand (f x : Nat) (s : State) : Host.Outcome State Fault Refusal :=
  let k := argOf s f 3
  let fl := argOf s f 4
  let src := argPair s f 5
  if 16 ≤ fl then badArgument f x s
  else execMap f x (argPair s f 1) k (bitsOf fl 0 1 == 1) (bitsOf fl 1 1 == 1) (bitsOf fl 2 1 == 1) (bitsOf fl 3 1 == 1)
    (if src = 0 then none else some (.host src)) ((pickFrame s (min k 8)).getD 0) s

/-- QUEUE from its argument words: MBARG1 to MBARG8 hold the descriptor of R398, lowest word first. DESIGN CHOICE (log 88). -/
def queueCommand (f x : Nat) (s : State) : Host.Outcome State Fault Refusal :=
  let d := argOf s f 2
  execQueue f x (argPair s f 5) (argPair s f 7) (bitsOf d 30 1 == 1) (bitsOf d 27 3) (bitsOf d 22 5) s

/-- QCTL from its argument words. -/
def qctlCommand (f x : Nat) (s : State) : Host.Outcome State Fault Refusal :=
  let q := argOf s f 1
  match argOf s f 2 with
  | 0 => execQctlDisable f x q s
  | 1 => execQctlEnable f x q s
  | 2 => execQctlReset f x q s
  | _ => badArgument f x s

/-- SETPARM from its argument words. -/
def setparmCommand (f x : Nat) (s : State) : Host.Outcome State Fault Refusal :=
  let v := argOf s f 2
  match argOf s f 1 with
  | 0 => execSetparmWeight f x v s
  | 1 => execSetparmSlice f x v s
  | 2 => execSetparmBoundaryWait f x v s
  | 3 => execSetparmLaneRequest f x (BitVec.ofNat 32 v) s
  | 4 => execSetparmPageQuota f x v s
  | _ => badArgument f x s

/-- The command of a code, its context in MBARG0 and its arguments after it (19 R411); a slice and a wait are in microseconds and in
milliseconds (log 88). -/
def startCommand (f code : Nat) (s : State) : Host.Outcome State Fault Refusal :=
  let x := argOf s f 0
  let a := argOf s f 1
  match code with
  | 0x01 => execCreate f (argPair s f 1) (argPair s f 3) (argPair s f 5) s
  | 0x02 => execTerminate f x s
  | 0x03 => mapCommand f x s
  | 0x04 => execUnmap f x (argPair s f 1) s
  | 0x05 => queueCommand f x s
  | 0x06 => qctlCommand f x s
  | 0x07 => execPreempt f x s
  | 0x08 => execResume f x s
  | 0x09 => if 65536 ≤ a then badArgument f x s else execSignal f x (BitVec.ofNat 16 a) s
  | 0x0A => execHalt f x s
  | 0x0B => if a = 1 then execTrackStart f x s else if a = 0 then execTrackStop f x s else badArgument f x s
  | 0x0C => execHarvest f x (argPair s f 1) (argOf s f 3) s
  | 0x0D => execSave f x (argPair s f 1) (argPair s f 3) s
  | 0x0E => execRestore f x (argPair s f 1) s
  | 0x0F => execDump f x (argPair s f 1) (argPair s f 3) s
  | 0x10 => setparmCommand f x s
  | 0x11 => execDbggo f x a s
  | 0x12 => execEvict f x (argPair s f 1) s
  | 0x20 => execPartset f a (argPair s f 2) s
  | 0x21 => execPartdrop f a s
  | 0x22 => execPartfunc f a (argOf s f 2) s
  | _ => execMbcmdUnknownCode f (BitVec.ofNat 8 code) s

/-! ### Writes (00 R8) -/

/-- A write of word `i` of a window: EN is checked at once or put out of force, and the other fields take it while EN is 0 (20
R436). -/
def writeWindow (f w i : Nat) (value : Word) (s : State) : Host.Outcome State Fault Refusal :=
  let d := (s.func f).window w
  if i ≠ 0 then .next (if d.en then s else s.setWindow f w (d.write i value.toNat))
  else if d.en then (if value.getLsbD 0 then .next s else execWindowDisable f w s)
  else
    let s1 := s.setWindow f w (d.write 0 value.toNat)
    if value.getLsbD 0 then execWindowEnable f w s1 else .next s1

/-- REGISTER_WRITE at offset `off` of BAR0 of function `f`, by its access code (00 R8): argument words, MBSTAT.DONE, QSTAT, and
window fields while EN is 0; MBCMD starts its command, QDOOR and EN act as DOORBELL, WINDOW_ENABLE and WINDOW_DISABLE. A write to a
read-only register, or to none, is ignored. -/
def execRegisterWrite (f off : Nat) (value : Word) (s : State) : Host.Outcome State Fault Refusal :=
  let r := s.func f
  let q := (off - 0x100000) / 16
  if adminFunc < f || off % 4 ≠ 0 || r.resetting || closedTo s f then .next s
  else if off = 0 then startCommand f (value.toNat % 256) s
  else if off = 4 then .next (s.setFunc f { r with done := r.done && !value.getLsbD 30 })
  else if 0x40 ≤ off && off < 0xC0 then .next (s.setFunc f { r with args := setArg r.args ((off - 0x40) / 4) value })
  else if 0x100000 ≤ off && off < 0x104000 && off % 16 = 0 then execDoorbell f q value s
  else if 0x100000 ≤ off && off < 0x104000 && off % 16 = 4 then .next (s.setQueue f q ((s.queue f q).writeStat value))
  else if 0x200000 ≤ off && off < 0x201000 then writeWindow f ((off - 0x200000) / 64) (off % 64 / 4) value s
  else .next s

end Sys2Proof.Machine
end

