-- ==== Sys2Proof/Machine/Service.lean ====
section
/-!
DEFINITION. Reliability and service (01 R14, R24; 16 R365; 20 R432; 21 R444 to R452): errors and lasting faults, retirement,
the module's mode, CXL.mem, boot, attestation, power and temperature.
-/

namespace Sys2Proof.Machine

/-! ### Errors (21 R444, R446) -/

/-- The row of a cluster, as a unit. -/
def rowUnit (c : Nat) : HwUnit := .row (dieOf c) (rowOf c)

/-- A unit with the units that contain it (21 R446): a word of HBM lies in a pseudo-channel, a cluster's caches in its row, its copy
buffers in its copy unit. -/
def unitAndOver (u : HwUnit) : List HwUnit :=
  match u with
  | .core c => [u, rowUnit c]
  | .macRow c => [u, rowUnit c]
  | .laneGroup k _ => [u, rowUnit (8 * k)]
  | .copyUnit k => [u, rowUnit (8 * k)]
  | .combBuilder k => [u, rowUnit (8 * k)]
  | .controlStore k => [u, rowUnit (8 * k)]
  | .row _ _ => [u]
  | .channel _ _ => [u]
  | .hbmWord pa => [u, .channel (pa / 2 ^ 36) (Config.channelOf pa)]
  | .parcel pa => [u, .channel (pa / 2 ^ 36) (Config.channelOf pa)]
  | .xlateCache k => [u, rowUnit (8 * k)]
  | .treeCache k => [u, rowUnit (8 * k)]
  | .copyBuffer k => [u, .copyUnit k, rowUnit (8 * k)]
  | .dieXlate _ => [u]
  | .retryBuffer _ => [u]

/-- T of a kind of unit (21 R446); none for a place in HBM and for the caches and buffers, which are no units of its table. -/
def errorLimit (u : HwUnit) : Option Nat :=
  match u with
  | .row _ _ => some 64
  | .channel _ _ => some 256
  | .hbmWord _ => none
  | .parcel _ => none
  | .xlateCache _ => none
  | .treeCache _ => none
  | .copyBuffer _ => none
  | .dieXlate _ => none
  | .retryBuffer _ => none
  | _ => some 16

/-- The errors of the last 10 ms that count towards a unit. -/
def errorsOf (s : State) (u : HwUnit) : Nat :=
  (s.errors.filter fun e => (unitAndOver e.1).contains u && decide (s.time ≤ e.2 + timeOf 10000)).length

/-- A unit declared to have a lasting fault, once until it is retired, a pseudo-channel for good; the fault is logged for the next boot
(21 R446, R450). -/
def State.declare (s : State) (u : HwUnit) : State :=
  let again : Bool := match u with
    | .channel _ _ => s.logged.contains u
    | _ => false
  if s.lasting.contains u || again then s else { s with lasting := s.lasting ++ [u], logged := s.logged ++ [u] }

/-- The smallest unit of R446's table that holds an uncorrectable error, declared at once (21 R446). -/
def State.declareOver (s : State) (u : HwUnit) : State :=
  match (unitAndOver u).find? fun v => (errorLimit v).isSome with
  | some v => s.declare v
  | none => s

/-- A cache or a buffer marked: it holds an uncorrectable word, which its next read meets (21 R444). -/
def State.mark (s : State) (u : HwUnit) : State := if s.marks.contains u then s else { s with marks := s.marks ++ [u] }

/-- CORRECTED_ERROR of a unit (21 R444, R446). -/
def execCorrectedError (u : HwUnit) (s : State) : Host.Outcome State Fault Refusal :=
  let recent := s.errors.filter fun e => decide (s.time ≤ e.2 + timeOf 10000)
  let s1 : State := { s with errors := recent ++ [(u, s.time)] }
  .next ((unitAndOver u).foldl (fun q v => match errorLimit v with
    | none => q
    | some t => if t < errorsOf s1 v then q.declare v else q) s1)

/-- UNCORRECTABLE_ERROR of a unit at a place in it (07 R184; 21 R444, R446): of a core a byte of its local memory, or under 32768
the ring latch of its slice and under 32769 its staged piece; a control-store slot; a word of HBM; a parcel whose check value no
longer holds; a cache or a buffer. -/
def execUncorrectableError (u : HwUnit) (place : Nat) (s : State) : Host.Outcome State Fault Refusal :=
  .next (match u with
    | .core c =>
      (if place < 32768 then s.memoryError c place
       else if place = 32768 then s.latchError c
       else if place = 32769 then s.stageError c
       else s).declare u
    | .controlStore k => (s.setCluster k { s.cluster k with slotsBad := insertNat place (s.cluster k).slotsBad }).declare u
    | .channel _ _ => ({ s with hbmBad := insertNat (place / 4) s.hbmBad } : State).declare u
    | .hbmWord pa => ({ s with hbmBad := insertNat (pa / 4) s.hbmBad } : State).declareOver u
    | .parcel pa => ({ s with parcelBad := insertNat (pa / 256) s.parcelBad } : State).declareOver u
    | _ => if (errorLimit u).isSome then s.declare u else (s.mark u).declareOver u)

/-! ### Retirement (01 R14; 07 R192; 19 R421; 21 R447) -/

/-- The row that is retired with a unit (21 R447). -/
def retiredRow (u : HwUnit) : Option (Nat × Nat) :=
  match u with
  | .core c => some (dieOf c, rowOf c)
  | .row d r => some (d, r)
  | .laneGroup k _ => some (dieOf (8 * k), rowOf (8 * k))
  | .copyUnit k => some (dieOf (8 * k), rowOf (8 * k))
  | .combBuilder k => some (dieOf (8 * k), rowOf (8 * k))
  | .controlStore k => some (dieOf (8 * k), rowOf (8 * k))
  | _ => none

/-- Whether a context has a page in a stack. -/
def usesStack (s : State) (x st : Nat) : Bool := (rangesOf s x).any fun r => r.1 / 2 ^ 36 == st

/-- Whether a context uses a unit: of a row, whether it has a core in it or in a row whose rank changes with it (01 R14). -/
def usesUnit (s : State) (x : Nat) (u : HwUnit) : Bool :=
  match u with
  | .macRow c => tableNames s x c
  | .channel st _ => usesStack s x st
  | _ => match retiredRow u with
    | none => false
    | some (d, r) => s.tags.any fun p => dieOf p.1 == d && decide (min r 256 ≤ rowOf p.1) && tableNames s x p.1

/-- The contexts that use a unit. -/
def usersOf (s : State) (u : HwUnit) : List Nat :=
  (s.contexts.filter fun p => p.2.st != .free && usesUnit s p.1 u).map Prod.fst

/-- The spare row that stands in for a retired one: the one named, where it is free, else the lowest (01 R14). -/
def spareFor (s : State) (die named : Nat) : Option Nat :=
  let free (r : Nat) : Bool := decide (256 ≤ r) && decide (r < 264) && !(look [] die s.spareRows).contains r && !s.retired.contains (die, r)
  if free named then some named else ((List.range 264).find? free)

/-- The enabled rows of a die, rising. -/
def enabledRows (s : State) (die : Nat) : List Nat := (List.range 264).filter (rowEnabled s die)

/-- The core to which a core of a die moves with its row; none where its row has no place any more. -/
def movedCore (die : Nat) (rows : List (Nat × Nat)) (c : Nat) : Option Nat :=
  if dieOf c ≠ die then some c
  else (rows.find? fun p => p.1 == rowOf c).map fun p => c - rowOf c * 256 + p.2 * 256

/-- The cores of a die moved from row to row, all at once: what a core holds, its local memory with it, and its tag (21 R447); the
combs of the clusters that move go. Retention stays where it is. -/
def State.moveRows (s : State) (die : Nat) (rows : List (Nat × Nat)) : State :=
  let here := s.cores.filter fun p => dieOf p.1 == die
  let empty := here.foldl (fun t p => put p.1 p.2.vacant t) s.cores
  let cores := here.foldl (fun t p => match movedCore die rows p.1 with
    | none => t
    | some b => put b { p.2 with retention := (s.core b).retention } t) empty
  let tags := s.tags.foldl (fun t p => match movedCore die rows p.1 with
    | none => t
    | some b => put b p.2 t) []
  let pend := s.pendTags.map fun p => (p.1.filterMap (movedCore die rows), p.2)
  let moved := here.filter fun p => movedCore die rows p.1 != some p.1
  (clustersOf (moved.map Prod.fst)).foldl (fun q k => q.dropCombs k fun _ => true)
    { s with cores := cores, tags := tags, pendTags := pend }

/-- An explicit core table with its entries following their cores; one whose core has no place any more is not valid. -/
def movedTable (die : Nat) (rows : List (Nat × Nat)) (t : Table Word) : Table Word :=
  t.map fun p => (p.1, match movedCore die rows (bitsOf p.2.toNat 0 21) with
    | some b => BitVec.ofNat 32 (p.2.toNat / 2 ^ 21 * 2 ^ 21 + b)
    | none => 0)

/-- A row retired and, where one is left, a spare row enabled in its place: the ranks are recomputed in physical order, and what
stands at each rank moves to the row that has the rank now, so that no logical core changes (01 R14, R18; 21 R447). Without a spare
the last rank has no place, and the contexts that use the unit are SUSPENDED (19 R421). -/
def State.retireRow (s : State) (die row named : Nat) (users : List Nat) : State :=
  let spare := spareFor s die named
  let kept := (look [] die s.spareRows).filter (· != row)
  let s1 : State := { s with retired := (die, row) :: s.retired,
                             spareRows := put die (match spare with
                               | some sp => insertNat sp kept
                               | none => kept) s.spareRows }
  let rows := (enabledRows s die).zip (enabledRows s1 die)
  let s2 := s1.moveRows die rows
  let s3 := s2.contexts.foldl (fun q p => q.setCtx p.1 { p.2 with table := p.2.table.map (movedTable die rows) }) s2
  if spare.isSome then s3
  else users.foldl (fun q x =>
    if (q.ctx x).st = .preempted || (q.ctx x).st = .quiesced || (q.ctx x).st = .saved then q.suspend x else q) s3

/-- MAXROWS of a slice lowered (07 R192; 21 R447). -/
def State.lowerRows (s : State) (c named : Nat) : State :=
  let old := look 8 c s.macRows
  let new := if (named == 2 || named == 4 || named == 6) && decide (named < old) then named else max 2 (old - 2)
  { s with macRows := put c new s.macRows }

/-- A page of a context moved out of a stack, each copy from its own frame (21 R447); left where it is without a frame. -/
def State.movePage (s0 : State) (x st : Nat) (p : Nat × Nat) : State :=
  let s := s0.landLate s0.late.length
  let e := entryOf s x p.1
  let repl := leafState e == some .replicated
  let old := leafFrame e
  if e % 2 = 0 || bitsOf e 6 1 = 1 || !((framesOf old repl).any fun a => a / 2 ^ 36 == st) then s
  else match if repl then pickReplicated s p.2 else pickFrame s p.2 with
    | none => s
    | some new =>
      let s1 := ((framesOf old repl).zip (framesOf new repl)).foldl (fun q a => q.copyFrame a.1 a.2 (pageSize p.2)) s
      let s2 := s1.editLeaf x p.1 fun e => e - leafFrame e + new
      { s2 with shoot := s2.shoot ++ [{ ctx := x, va := p.1, size := pageSize p.2, frame := old, free := true,
                                        copies := repl, back := none }] }

/-- A declared unit repaired (21 R447). -/
def State.repair (s : State) (u : HwUnit) (named : Nat) (users : List Nat) : State :=
  match u with
  | .macRow c => s.lowerRows c named
  | .channel st _ => users.foldl (fun q x => (q.ctx x).mapped.foldl (fun r p => r.movePage x st p) q) s
  | _ => match retiredRow u with
    | none => s
    | some (d, r) => if rowEnabled s d r then s.retireRow d r named users else s

/-- Whether a slice is at work: lowering its MAXROWS waits (07 R192; 15 R352). -/
def sliceAtWork (s : State) (u : HwUnit) : Bool :=
  match u with
  | .macRow c => (s.core c).slice.st == .rotating || (s.core c).slice.st == .draining || (s.core c).sparse.isSome
  | _ => false

/-- A declared unit is done with; a channel stays in the log, so that its stack takes no page any more. -/
def State.settleUnit (s : State) (u : HwUnit) : State := { s with lasting := s.lasting.erase u }

/-- The word that names a unit in TINFO0 of a notification of kind 7: its kind in bits 31:28, its numbers below. DESIGN CHOICE, unsafe: R447
has TINFO0 name the unit and gives no code (log 106). -/
def unitWord (u : HwUnit) : Word :=
  let word (kind n : Nat) : Word := BitVec.ofNat 32 (kind * 2 ^ 28 + n % 2 ^ 28)
  match u with
  | .core c => word 0 c
  | .row d r => word 1 (512 * d + r)
  | .macRow c => word 2 c
  | .laneGroup k g => word 3 (2 * k + g)
  | .copyUnit k => word 4 k
  | .combBuilder k => word 5 k
  | .controlStore k => word 6 k
  | .channel t n => word 7 (256 * t + n % 256)
  | .hbmWord _ => word 8 0
  | .parcel _ => word 9 0
  | .xlateCache k => word 10 k
  | .dieXlate d => word 11 d
  | .treeCache k => word 12 k
  | .copyBuffer k => word 13 k
  | .retryBuffer p => word 14 p

/-- UNIT_RETIRE of a declared unit (21 R447): the contexts that use it are pre-empted; once they have stopped it is repaired, and
they come back. `named` is the spare row or the MAXROWS the executive chooses. -/
def execUnitRetire (u : HwUnit) (named : Nat) (s : State) : Host.Outcome State Fault Refusal :=
  let users := usersOf s u
  if !s.lasting.contains u || sliceAtWork s u then .next s
  else if users.any fun x => (s.ctx x).st == .running then .next (users.foldl (fun q x => q.preemptCtx x .repair) s)
  else if users.any fun x => holdsCores (s.ctx x).st then .next s
  else
    let s1 := s.repair u named users
    let back (q : State) (x : Nat) : State :=
      let c := q.ctx x
      if c.st = .preempted && c.paused = .repair && !c.suspended then q.setCtx x { c with resuming := true } else q
    .next (((users.foldl back s1).settleUnit u).notify adminFunc 7 0 0xFFFFFFFF 0 0 (unitWord u) 0 0)

/-! ### The module's mode and CXL.mem (16 R365; 20 R432) -/

/-- The module's mode changed and the change reported to the host; every replica agrees by then (16 R365). -/
def State.toMode (s : State) (m : Mode) : State :=
  if s.mode = m then s
  else
    let q := s.landLate s.late.length
    { q with mode := m, modeLog := q.modeLog ++ [m] }

/-- MODE_CHANGE (16 R365): maintenance mode runs no context, so the running ones are pre-empted first; a module that has refused its image
stays in it (21 R450). -/
def execModeChange (service : Bool) (s : State) : Host.Outcome State Fault Refusal :=
  let running := (s.contexts.filter fun p => p.2.st == .running).map Prod.fst
  if service then .next (if s.refused then s else s.toMode .service)
  else if running.isEmpty then .next (s.toMode .maintenance)
  else
    let s1 := running.foldl (fun q x => q.preemptCtx x .host) s
    .next { s1 with inputs := (s.now + 1, .modeChange false) :: s1.inputs }

/-- CXL_MEM_ACCESS by the host (20 R432): a store into the reserved range; a load changes nothing here. -/
def execCxlMemAccess (write : Bool) (addr : Nat) (data : List Byte) (s : State) : Host.Outcome State Fault Refusal :=
  .next (if !write || !hostReach s adminFunc then s
    else match writePlace s adminFunc 0 (.hdm addr) data.length (pieceOf data) with
      | .done q => q
      | _ => s)

/-! ### Boot and attestation (20 R432; 21 R450, R451) -/

/-- The spare rows of a die that stand in for harvested ones (01 R14). -/
def bootSpares (harvested : List (Nat × Nat)) (die : Nat) : List Nat :=
  let lost := ((List.range 256).filter fun r => harvested.contains (die, r)).length
  (((List.range 264).filter fun r => decide (256 ≤ r) && !harvested.contains (die, r)).take lost)

/-- The rows that a boot harvests: those of the fuses and of the logged lasting faults (21 R450). -/
def bootRows (fuses : List (Nat × Nat)) (logged : List HwUnit) : List (Nat × Nat) :=
  (logged.filterMap retiredRow).foldl (fun l r => if l.contains r then l else l ++ [r]) fuses

/-- The slices whose MAC rows a boot harvests, one for each logged fault (21 R450). -/
def bootSlices (logged : List HwUnit) : List Nat :=
  logged.filterMap fun u => match u with
    | .macRow c => some c
    | _ => none

/-- BOOT with an executive image of a hash and a security version, which is refused where its signature does not verify or the version
is below the fused minimum (21 R450); an image refused leaves the host ports closed and the module in maintenance mode. Host memory, the
fuses, the log of lasting faults and what is on its way from outside stand. -/
def execBoot (image version hdm : Nat) (harvested macRows : List (Nat × Nat)) (s : State) :
    Host.Outcome State Fault Refusal :=
  let h := BitVec.ofNat 256 image
  let fresh : State := { State.reset with now := s.now, time := s.time, inputs := s.inputs, hostMem := s.hostMem, draws := s.draws,
                                          logged := s.logged, minVer := s.minVer }
  if version < s.minVer || !Config.firmwareAccepts h version then .next { fresh.toMode .maintenance with refused := true }
  else
    let rows := bootRows harvested s.logged
    let ports := (List.range 68).map fun p => (p, { Port.reset with st := .training, since := s.time })
    let size := if hdm % 2 ^ 22 = 0 && hdm ≤ 2 ^ 36 then hdm else 0
    let up : State := { fresh with firmware := h, secVer := version, hdm := size, retired := rows,
                                   spareRows := (List.range 16).map (fun d => (d, bootSpares rows d)),
                                   macRows := macRows.foldl (fun t p => put p.1 p.2 t) [], ports := ports }
    .next ((bootSlices s.logged).foldl (fun q c => q.lowerRows c 0) up)

/-- The measurements of the module: the boot ROM, the executive, its security version, and the partitions and power (21 R451). -/
def measurements (s : State) : BitVec 256 :=
  sha256 (leBytes Config.romHash.toNat 32 ++ leBytes s.firmware.toNat 32 ++ leBytes s.secVer 8 ++ leBytes s.mhz 4 ++
    s.tags.flatMap fun p => leBytes p.1 4 ++ leBytes p.2 2)

/-- ATTESTATION_REQUEST over a nonce (21 R451): the report is signed by the identity key. -/
def execAttestationRequest (nonce : Nat) (s : State) : Host.Outcome State Fault Refusal :=
  .next { s with attested := Config.attestSignature (measurements s) s.secVer nonce }

/-! ### Power and temperature (01 R24; 21 R452) -/

/-- Whether the clock may be raised: one active partition, power below 7.0 kW, no die too hot (01 R24; 21 R452). -/
def mayBoost (s : State) (milliwatts : Nat) : Bool :=
  (activeTags s).length == 1 && decide (milliwatts < 7000000) && !s.overTemp

/-- POWER_SAMPLE, every 1 ms (21 R452). -/
def execPowerSample (milliwatts : Nat) (s : State) : Host.Outcome State Fault Refusal :=
  .next { s with power := milliwatts, mhz := if mayBoost s milliwatts then 1500 else 1250 }

/-- Whether a number names a die: sixteen compute dies and two I/O dies (01 R10). -/
def namesDie (d : Nat) : Bool := decide (d < 18)

/-- OVER_TEMPERATURE of die `die` (21 R452). -/
def execOverTemperature (die : Nat) (s : State) : Host.Outcome State Fault Refusal :=
  let running := (s.contexts.filter fun p => p.2.st == .running).map Prod.fst
  if !namesDie die then .next s
  else
  let s1 := running.foldl (fun q x => q.preemptCtx x .host) { s with mhz := 1250, overTemp := true }
  .next (s1.notify adminFunc 11 0 0xFFFFFFFF 0 0 (BitVec.ofNat 32 die) 0 0)

/-- THERMAL_TRIP of die `die` (21 R452): the clocks stop; what is not in HBM is lost. -/
def execThermalTrip (die : Nat) (s : State) : Host.Outcome State Fault Refusal :=
  .next (if !namesDie die then s
    else { State.reset with now := s.now, time := s.time, hbm := s.hbm, hbmBad := s.hbmBad, parcelBad := s.parcelBad,
                            hostMem := s.hostMem, draws := s.draws, clockOff := true, logged := s.logged, minVer := s.minVer })

end Sys2Proof.Machine
end

