-- ==== Sys2Proof/Machine/Dispatch.lean ====
section
/-!
DEFINITION. The meaning of every instruction: one arm per constructor, each a direct call.
-/

namespace Sys2Proof.Machine

def exec (i : Instr) (s : State) : Host.Outcome State Fault Refusal :=
  match i with
  | .add d a b => Sys2Proof.Machine.execAdd d a b s
  | .sub d a b => Sys2Proof.Machine.execSub d a b s
  | .and d a b => Sys2Proof.Machine.execAnd d a b s
  | .or d a b => Sys2Proof.Machine.execOr d a b s
  | .xor d a b => Sys2Proof.Machine.execXor d a b s
  | .andn d a b => Sys2Proof.Machine.execAndn d a b s
  | .shl d a b => Sys2Proof.Machine.execShl d a b s
  | .shr d a b => Sys2Proof.Machine.execShr d a b s
  | .sra d a b => Sys2Proof.Machine.execSra d a b s
  | .slt d a b => Sys2Proof.Machine.execSlt d a b s
  | .sltu d a b => Sys2Proof.Machine.execSltu d a b s
  | .seq d a b => Sys2Proof.Machine.execSeq d a b s
  | .sne d a b => Sys2Proof.Machine.execSne d a b s
  | .min d a b => Sys2Proof.Machine.execMin d a b s
  | .max d a b => Sys2Proof.Machine.execMax d a b s
  | .minu d a b => Sys2Proof.Machine.execMinu d a b s
  | .maxu d a b => Sys2Proof.Machine.execMaxu d a b s
  | .sel d a b => Sys2Proof.Machine.execSel d a b s
  | .clz d a => Sys2Proof.Machine.execClz d a s
  | .popc d a => Sys2Proof.Machine.execPopc d a s
  | .brev d a => Sys2Proof.Machine.execBrev d a s
  | .addi d a im => Sys2Proof.Machine.execAddi d a im s
  | .andi d a im => Sys2Proof.Machine.execAndi d a im s
  | .ori d a im => Sys2Proof.Machine.execOri d a im s
  | .xori d a im => Sys2Proof.Machine.execXori d a im s
  | .slti d a im => Sys2Proof.Machine.execSlti d a im s
  | .sltiu d a im => Sys2Proof.Machine.execSltiu d a im s
  | .shli d a n => Sys2Proof.Machine.execShli d a n s
  | .shri d a n => Sys2Proof.Machine.execShri d a n s
  | .srai d a n => Sys2Proof.Machine.execSrai d a n s
  | .lui d im => Sys2Proof.Machine.execLui d im s
  | .mul d a b => Sys2Proof.Machine.execMul d a b s
  | .mulh d a b => Sys2Proof.Machine.execMulh d a b s
  | .mulhu d a b => Sys2Proof.Machine.execMulhu d a b s
  | .div d a b => Sys2Proof.Machine.execDiv d a b s
  | .divu d a b => Sys2Proof.Machine.execDivu d a b s
  | .rem d a b => Sys2Proof.Machine.execRem d a b s
  | .remu d a b => Sys2Proof.Machine.execRemu d a b s
  | .beqz h a o => Sys2Proof.Machine.execBeqz h a o s
  | .bnez h a o => Sys2Proof.Machine.execBnez h a o s
  | .bltz h a o => Sys2Proof.Machine.execBltz h a o s
  | .bgez h a o => Sys2Proof.Machine.execBgez h a o s
  | .bgtz h a o => Sys2Proof.Machine.execBgtz h a o s
  | .blez h a o => Sys2Proof.Machine.execBlez h a o s
  | .jal d o => Sys2Proof.Machine.execJal d o s
  | .jalr d a im => Sys2Proof.Machine.execJalr d a im s
  | .loop c l => Sys2Proof.Machine.execLoop c l s
  | .loopi c l => Sys2Proof.Machine.execLoopi c l s
  | .repf n c d a b => Sys2Proof.Machine.execRepf n c d a b s
  | .mcall m p q r st => Sys2Proof.Machine.execMcall m p q r st s
  | .ldB d b o => Sys2Proof.Machine.execLdB d b o s
  | .ldBu d b o => Sys2Proof.Machine.execLdBu d b o s
  | .ldH d b o => Sys2Proof.Machine.execLdH d b o s
  | .ldHu d b o => Sys2Proof.Machine.execLdHu d b o s
  | .ldW d b o => Sys2Proof.Machine.execLdW d b o s
  | .stB d b o => Sys2Proof.Machine.execStB d b o s
  | .stH d b o => Sys2Proof.Machine.execStH d b o s
  | .stW d b o => Sys2Proof.Machine.execStW d b o s
  | .pset d a b => Sys2Proof.Machine.execPset d a b s
  | .pchild d a b => Sys2Proof.Machine.execPchild d a b s
  | .pparent d a => Sys2Proof.Machine.execPparent d a s
  | .pnext d a => Sys2Proof.Machine.execPnext d a s
  | .pmort d a b => Sys2Proof.Machine.execPmort d a b s
  | .prow d a => Sys2Proof.Machine.execProw d a s
  | .pcol d a => Sys2Proof.Machine.execPcol d a s
  | .pdepth d a => Sys2Proof.Machine.execPdepth d a s
  | .ptrunc d a b => Sys2Proof.Machine.execPtrunc d a b s
  | .pgetlo d a => Sys2Proof.Machine.execPgetlo d a s
  | .pgethi d a => Sys2Proof.Machine.execPgethi d a s
  | .psetlo d a => Sys2Proof.Machine.execPsetlo d a s
  | .psethi d a => Sys2Proof.Machine.execPsethi d a s
  | .vadd d a b m => Sys2Proof.Machine.execVadd d a b m s
  | .vsub d a b m => Sys2Proof.Machine.execVsub d a b m s
  | .vmul d a b m => Sys2Proof.Machine.execVmul d a b m s
  | .vfma d a b m => Sys2Proof.Machine.execVfma d a b m s
  | .vfms d a b m => Sys2Proof.Machine.execVfms d a b m s
  | .vfnma d a b m => Sys2Proof.Machine.execVfnma d a b m s
  | .vmin d a b m => Sys2Proof.Machine.execVmin d a b m s
  | .vmax d a b m => Sys2Proof.Machine.execVmax d a b m s
  | .vaddBf d a b m => Sys2Proof.Machine.execVaddBf d a b m s
  | .vsubBf d a b m => Sys2Proof.Machine.execVsubBf d a b m s
  | .vmulBf d a b m => Sys2Proof.Machine.execVmulBf d a b m s
  | .vfmaBf d a b m => Sys2Proof.Machine.execVfmaBf d a b m s
  | .vfmsBf d a b m => Sys2Proof.Machine.execVfmsBf d a b m s
  | .vfnmaBf d a b m => Sys2Proof.Machine.execVfnmaBf d a b m s
  | .vminBf d a b m => Sys2Proof.Machine.execVminBf d a b m s
  | .vmaxBf d a b m => Sys2Proof.Machine.execVmaxBf d a b m s
  | .viadd d a b m w => Sys2Proof.Machine.execViadd d a b m w s
  | .visub d a b m w => Sys2Proof.Machine.execVisub d a b m w s
  | .vimul d a b m w => Sys2Proof.Machine.execVimul d a b m w s
  | .vimulh d a b m w => Sys2Proof.Machine.execVimulh d a b m w s
  | .vand d a b m w => Sys2Proof.Machine.execVand d a b m w s
  | .vor d a b m w => Sys2Proof.Machine.execVor d a b m w s
  | .vxor d a b m w => Sys2Proof.Machine.execVxor d a b m w s
  | .vshl d a b m w => Sys2Proof.Machine.execVshl d a b m w s
  | .vshr d a b m w => Sys2Proof.Machine.execVshr d a b m w s
  | .vsra d a b m w => Sys2Proof.Machine.execVsra d a b m w s
  | .vimin d a b m w => Sys2Proof.Machine.execVimin d a b m w s
  | .vimax d a b m w => Sys2Proof.Machine.execVimax d a b m w s
  | .vcmpeq d a b m => Sys2Proof.Machine.execVcmpeq d a b m s
  | .vcmpne d a b m => Sys2Proof.Machine.execVcmpne d a b m s
  | .vcmplt d a b m => Sys2Proof.Machine.execVcmplt d a b m s
  | .vcmple d a b m => Sys2Proof.Machine.execVcmple d a b m s
  | .vicmpeq d a b m => Sys2Proof.Machine.execVicmpeq d a b m s
  | .vicmplt d a b m => Sys2Proof.Machine.execVicmplt d a b m s
  | .vicmpltu d a b m => Sys2Proof.Machine.execVicmpltu d a b m s
  | .vsel d a b m => Sys2Proof.Machine.execVsel d a b m s
  | .vperm d a b m => Sys2Proof.Machine.execVperm d a b m s
  | .vbcast d a m => Sys2Proof.Machine.execVbcast d a m s
  | .vmovs d a n => Sys2Proof.Machine.execVmovs d a n s
  | .vins d a n => Sys2Proof.Machine.execVins d a n s
  | .vmand d a b => Sys2Proof.Machine.execVmand d a b s
  | .vmor d a b => Sys2Proof.Machine.execVmor d a b s
  | .vmnot d a => Sys2Proof.Machine.execVmnot d a s
  | .vredadd d a m => Sys2Proof.Machine.execVredadd d a m s
  | .vredmax d a m => Sys2Proof.Machine.execVredmax d a m s
  | .vredmin d a m => Sys2Proof.Machine.execVredmin d a m s
  | .vrediadd d a m => Sys2Proof.Machine.execVrediadd d a m s
  | .vmov d a m => Sys2Proof.Machine.execVmov d a m s
  | .vld d b o => Sys2Proof.Machine.execVld d b o s
  | .vst d b o => Sys2Proof.Machine.execVst d b o s
  | .vlds d b st => Sys2Proof.Machine.execVlds d b st s
  | .vsts d b st => Sys2Proof.Machine.execVsts d b st s
  | .vgth d b x m => Sys2Proof.Machine.execVgth d b x m s
  | .vsct d b x m => Sys2Proof.Machine.execVsct d b x m s
  | .vcvtfb d a b m => Sys2Proof.Machine.execVcvtfb d a b m s
  | .vcvtbf d a q m => Sys2Proof.Machine.execVcvtbf d a q m s
  | .vcvtfh d a b m => Sys2Proof.Machine.execVcvtfh d a b m s
  | .vcvthf d a q m => Sys2Proof.Machine.execVcvthf d a q m s
  | .vcvtfi d a m => Sys2Proof.Machine.execVcvtfi d a m s
  | .vcvtif d a m => Sys2Proof.Machine.execVcvtif d a m s
  | .vfxenc d a => Sys2Proof.Machine.execVfxenc d a s
  | .vfxdec d a j => Sys2Proof.Machine.execVfxdec d a j s
  | .vexp2 d a m => Sys2Proof.Machine.execVexp2 d a m s
  | .vlog2 d a m => Sys2Proof.Machine.execVlog2 d a m s
  | .vrcp d a m => Sys2Proof.Machine.execVrcp d a m s
  | .vrsq d a m => Sys2Proof.Machine.execVrsq d a m s
  | .vtanh d a m => Sys2Proof.Machine.execVtanh d a m s
  | .gang c => Sys2Proof.Machine.execGang c s
  | .ungang => Sys2Proof.Machine.execUngang s
  | .gangid d => Sys2Proof.Machine.execGangid d s
  | .mzero z => Sys2Proof.Machine.execMzero z s
  | .mbinda r a f => Sys2Proof.Machine.execMbinda r a f s
  | .mldb a f => Sys2Proof.Machine.execMldb a f s
  | .gissue z => Sys2Proof.Machine.execGissue z s
  | .mrd d z r => Sys2Proof.Machine.execMrd d z r s
  | .mwm d => Sys2Proof.Machine.execMwm d s
  | .mcap d => Sys2Proof.Machine.execMcap d s
  | .mwait z => Sys2Proof.Machine.execMwait z s
  | .cpy d a b st r o => Sys2Proof.Machine.execCpy d a b st r o s
  | .cpyr d a b => Sys2Proof.Machine.execCpyr d a b s
  | .cpyq d a st => Sys2Proof.Machine.execCpyq d a st s
  | .cpyx a => Sys2Proof.Machine.execCpyx a s
  | .cpat a => Sys2Proof.Machine.execCpat a s
  | .deal d a b r => Sys2Proof.Machine.execDeal d a b r s
  | .gath d a b c => Sys2Proof.Machine.execGath d a b c s
  | .scat d a b c => Sys2Proof.Machine.execScat d a b c s
  | .gwait d a => Sys2Proof.Machine.execGwait d a s
  | .aadd d a b st o => Sys2Proof.Machine.execAadd d a b st o s
  | .aand d a b st o => Sys2Proof.Machine.execAand d a b st o s
  | .aor d a b st o => Sys2Proof.Machine.execAor d a b st o s
  | .axor d a b st o => Sys2Proof.Machine.execAxor d a b st o s
  | .amin d a b st o => Sys2Proof.Machine.execAmin d a b st o s
  | .amax d a b st o => Sys2Proof.Machine.execAmax d a b st o s
  | .aminu d a b st o => Sys2Proof.Machine.execAminu d a b st o s
  | .amaxu d a b st o => Sys2Proof.Machine.execAmaxu d a b st o s
  | .axchg d a b st o => Sys2Proof.Machine.execAxchg d a b st o s
  | .acas d a b st o => Sys2Proof.Machine.execAcas d a b st o s
  | .afadd d a b st o => Sys2Proof.Machine.execAfadd d a b st o s
  | .vaadd d a b st o => Sys2Proof.Machine.execVaadd d a b st o s
  | .vaand d a b st o => Sys2Proof.Machine.execVaand d a b st o s
  | .vaor d a b st o => Sys2Proof.Machine.execVaor d a b st o s
  | .vaxor d a b st o => Sys2Proof.Machine.execVaxor d a b st o s
  | .vamin d a b st o => Sys2Proof.Machine.execVamin d a b st o s
  | .vamax d a b st o => Sys2Proof.Machine.execVamax d a b st o s
  | .vaminu d a b st o => Sys2Proof.Machine.execVaminu d a b st o s
  | .vamaxu d a b st o => Sys2Proof.Machine.execVamaxu d a b st o s
  | .vafadd d a b st o => Sys2Proof.Machine.execVafadd d a b st o s
  | .vawait => Sys2Proof.Machine.execVawait s
  | .barr d c => Sys2Proof.Machine.execBarr d c s
  | .bwait a c => Sys2Proof.Machine.execBwait a c s
  | .btest d a c => Sys2Proof.Machine.execBtest d a c s
  | .bph d c => Sys2Proof.Machine.execBph d c s
  | .bmsk d a => Sys2Proof.Machine.execBmsk d a s
  | .vote d a c => Sys2Proof.Machine.execVote d a c s
  | .xsync d => Sys2Proof.Machine.execXsync d s
  | .xsend a b => Sys2Proof.Machine.execXsend a b s
  | .xdone => Sys2Proof.Machine.execXdone s
  | .xslot d a st => Sys2Proof.Machine.execXslot d a st s
  | .qapp d a b n => Sys2Proof.Machine.execQapp d a b n s
  | .qget d => Sys2Proof.Machine.execQget d s
  | .qfree d a => Sys2Proof.Machine.execQfree d a s
  | .qfreeOpen d a b => Sys2Proof.Machine.execQfreeOpen d a b s
  | .qcnt d => Sys2Proof.Machine.execQcnt d s
  | .wgent a l => Sys2Proof.Machine.execWgent a l s
  | .wgentL l => Sys2Proof.Machine.execWgentL l s
  | .wgres d st l => Sys2Proof.Machine.execWgres d st l s
  | .wgwait d l => Sys2Proof.Machine.execWgwait d l s
  | .wgcan l => Sys2Proof.Machine.execWgcan l s
  | .spld a b f => Sys2Proof.Machine.execSpld a b f s
  | .spmm z a f => Sys2Proof.Machine.execSpmm z a f s
  | .cbq d => Sys2Proof.Machine.execCbq d s
  | .cbinv b => Sys2Proof.Machine.execCbinv b s
  | .cbinvAll => Sys2Proof.Machine.execCbinvAll s
  | .cbwait d => Sys2Proof.Machine.execCbwait d s
  | .fpost d a => Sys2Proof.Machine.execFpost d a s
  | .forage d => Sys2Proof.Machine.execForage d s
  | .yield a => Sys2Proof.Machine.execYield a s
  | .cend => Sys2Proof.Machine.execCend s
  | .fquiet d => Sys2Proof.Machine.execFquiet d s
  | .launch d a => Sys2Proof.Machine.execLaunch d a s
  | .patchi d im => Sys2Proof.Machine.execPatchi d im s
  | .trap c => Sys2Proof.Machine.execTrap c s
  | .rft => Sys2Proof.Machine.execRft s
  | .gsr d st => Sys2Proof.Machine.execGsr d st s
  | .ssr a st => Sys2Proof.Machine.execSsr a st s
  | .fence st => Sys2Proof.Machine.execFence st s
  | .bkpt c => Sys2Proof.Machine.execBkpt c s
  | .wfe => Sys2Proof.Machine.execWfe s
  | .ident d => Sys2Proof.Machine.execIdent d s
  | .modifierWord n a c st e k => Sys2Proof.Machine.execModifierWord n a c st e k s
  | .repfVectorFeed c => Sys2Proof.Machine.execRepfVectorFeed c s
  | .vectorDispatch k => Sys2Proof.Machine.execVectorDispatch k s
  | .vectorComplete c => Sys2Proof.Machine.execVectorComplete c s
  | .gangRendezvousComplete k j => Sys2Proof.Machine.execGangRendezvousComplete k j s
  | .mldbStagingComplete c => Sys2Proof.Machine.execMldbStagingComplete c s
  | .jointRendezvousComplete k => Sys2Proof.Machine.execJointRendezvousComplete k s
  | .ringStepBegin k => Sys2Proof.Machine.execRingStepBegin k s
  | .rowPairComplete c => Sys2Proof.Machine.execRowPairComplete c s
  | .treeRecordFill k x h => Sys2Proof.Machine.execTreeRecordFill k x h s
  | .bankhashRehashComplete c => Sys2Proof.Machine.execBankhashRehashComplete c s
  | .bankReplayRetry c => Sys2Proof.Machine.execBankReplayRetry c s
  | .retentionEntry c => Sys2Proof.Machine.execRetentionEntry c s
  | .retentionEntryComplete c => Sys2Proof.Machine.execRetentionEntryComplete c s
  | .retentionExit c => Sys2Proof.Machine.execRetentionExit c s
  | .retentionExitComplete c => Sys2Proof.Machine.execRetentionExitComplete c s
  | .copyBeat c ch => Sys2Proof.Machine.execCopyBeat c ch s
  | .gatherEntry c t j => Sys2Proof.Machine.execGatherEntry c t j s
  | .packageCopyMove f x src dst len sig amt => Sys2Proof.Machine.execPackageCopyMove f x src dst len sig amt s
  | .pageRequestAdmit die => Sys2Proof.Machine.execPageRequestAdmit die s
  | .pageRequestComplete x va frame => Sys2Proof.Machine.execPageRequestComplete x va frame s
  | .pageRequestRefuse x va => Sys2Proof.Machine.execPageRequestRefuse x va s
  | .shootdownComplete x va => Sys2Proof.Machine.execShootdownComplete x va s
  | .pageReplicate x va => Sys2Proof.Machine.execPageReplicate x va s
  | .pageEndReplication x va => Sys2Proof.Machine.execPageEndReplication x va s
  | .pagePermissionChange x va r w e part tag => Sys2Proof.Machine.execPagePermissionChange x va r w e part tag s
  | .instructionFetch c => Sys2Proof.Machine.execInstructionFetch c s
  | .atomicApply a => Sys2Proof.Machine.execAtomicApply a s
  | .atomicResultReturn c n => Sys2Proof.Machine.execAtomicResultReturn c n s
  | .arrivalEntersTree c ch => Sys2Proof.Machine.execArrivalEntersTree c ch s
  | .barrierRelease x l g => Sys2Proof.Machine.execBarrierRelease x l g s
  | .exchangeSlotClose x l g => Sys2Proof.Machine.execExchangeSlotClose x l g s
  | .exchangeBeatLands c => Sys2Proof.Machine.execExchangeBeatLands c s
  | .queueEntryLands c => Sys2Proof.Machine.execQueueEntryLands c s
  | .waggleEntryRegister c n => Sys2Proof.Machine.execWaggleEntryRegister c n s
  | .frameStart n => Sys2Proof.Machine.execFrameStart n s
  | .resolutionSlot n => Sys2Proof.Machine.execResolutionSlot n s
  | .waggleWithdrawal c n => Sys2Proof.Machine.execWaggleWithdrawal c n s
  | .frameEnd n => Sys2Proof.Machine.execFrameEnd n s
  | .buildStart k => Sys2Proof.Machine.execBuildStart k s
  | .buildEnd k => Sys2Proof.Machine.execBuildEnd k s
  | .sparseOpEnd c => Sys2Proof.Machine.execSparseOpEnd c s
  | .resultLands c => Sys2Proof.Machine.execResultLands c s
  | .trapEntry c cause tpc t0 t1 t2 t3 => Sys2Proof.Machine.execTrapEntry c cause tpc t0 t1 t2 t3 s
  | .poolTakeIdle c n => Sys2Proof.Machine.execPoolTakeIdle c n s
  | .groupQuiescent x l g => Sys2Proof.Machine.execGroupQuiescent x l g s
  | .launchLoad x l => Sys2Proof.Machine.execLaunchLoad x l s
  | .launchStart x l => Sys2Proof.Machine.execLaunchStart x l s
  | .launchEnd x l => Sys2Proof.Machine.execLaunchEnd x l s
  | .doorbell f q tail => Sys2Proof.Machine.execDoorbell f q tail s
  | .eventCounterPoll f q => Sys2Proof.Machine.execEventCounterPoll f q s
  | .queueTake tag => Sys2Proof.Machine.execQueueTake tag s
  | .sliceExpiry tag => Sys2Proof.Machine.execSliceExpiry tag s
  | .preemptionComplete x => Sys2Proof.Machine.execPreemptionComplete x s
  | .boundaryWaitExpiry x => Sys2Proof.Machine.execBoundaryWaitExpiry x s
  | .haltComplete x => Sys2Proof.Machine.execHaltComplete x s
  | .saveComplete x => Sys2Proof.Machine.execSaveComplete x s
  | .contextLoadComplete x => Sys2Proof.Machine.execContextLoadComplete x s
  | .create f image key table => Sys2Proof.Machine.execCreate f image key table s
  | .terminate f x => Sys2Proof.Machine.execTerminate f x s
  | .map f x va k r w e demand source frame => Sys2Proof.Machine.execMap f x va k r w e demand source frame s
  | .unmap f x va => Sys2Proof.Machine.execUnmap f x va s
  | .queue f x ringBase repBase hostMem prio log2n => Sys2Proof.Machine.execQueue f x ringBase repBase hostMem prio log2n s
  | .qctlDisable f x q => Sys2Proof.Machine.execQctlDisable f x q s
  | .qctlEnable f x q => Sys2Proof.Machine.execQctlEnable f x q s
  | .qctlReset f x q => Sys2Proof.Machine.execQctlReset f x q s
  | .preempt f x => Sys2Proof.Machine.execPreempt f x s
  | .resume f x => Sys2Proof.Machine.execResume f x s
  | .signal f x code => Sys2Proof.Machine.execSignal f x code s
  | .halt f x => Sys2Proof.Machine.execHalt f x s
  | .trackStart f x => Sys2Proof.Machine.execTrackStart f x s
  | .trackStop f x => Sys2Proof.Machine.execTrackStop f x s
  | .harvest f x out limit => Sys2Proof.Machine.execHarvest f x out limit s
  | .save f x out limit => Sys2Proof.Machine.execSave f x out limit s
  | .restore f x image => Sys2Proof.Machine.execRestore f x image s
  | .dump f x out limit => Sys2Proof.Machine.execDump f x out limit s
  | .setparmWeight f x value => Sys2Proof.Machine.execSetparmWeight f x value s
  | .setparmSlice f x value => Sys2Proof.Machine.execSetparmSlice f x value s
  | .setparmBoundaryWait f x value => Sys2Proof.Machine.execSetparmBoundaryWait f x value s
  | .setparmLaneRequest f x mask => Sys2Proof.Machine.execSetparmLaneRequest f x mask s
  | .setparmPageQuota f x value => Sys2Proof.Machine.execSetparmPageQuota f x value s
  | .dbggo f x lcore => Sys2Proof.Machine.execDbggo f x lcore s
  | .evict f x va => Sys2Proof.Machine.execEvict f x va s
  | .partset f tag bitmap => Sys2Proof.Machine.execPartset f tag bitmap s
  | .partdrop f tag => Sys2Proof.Machine.execPartdrop f tag s
  | .partfunc f g tag => Sys2Proof.Machine.execPartfunc f g tag s
  | .registerWrite f off value => Sys2Proof.Machine.execRegisterWrite f off value s
  | .windowEnable f w => Sys2Proof.Machine.execWindowEnable f w s
  | .windowDisable f w => Sys2Proof.Machine.execWindowDisable f w s
  | .contributionAccept x w part => Sys2Proof.Machine.execContributionAccept x w part s
  | .epochDeliver x w => Sys2Proof.Machine.execEpochDeliver x w s
  | .collectiveWatchdogExpiry x w => Sys2Proof.Machine.execCollectiveWatchdogExpiry x w s
  | .portEnable p => Sys2Proof.Machine.execPortEnable p s
  | .trainingComplete p full number peers => Sys2Proof.Machine.execTrainingComplete p full number peers s
  | .trainingFailure p => Sys2Proof.Machine.execTrainingFailure p s
  | .flitCrcFail p replay => Sys2Proof.Machine.execFlitCrcFail p replay s
  | .retrainingComplete p full => Sys2Proof.Machine.execRetrainingComplete p full s
  | .retrainingTimeout p => Sys2Proof.Machine.execRetrainingTimeout p s
  | .portDisable p => Sys2Proof.Machine.execPortDisable p s
  | .functionLevelReset f => Sys2Proof.Machine.execFunctionLevelReset f s
  | .flrComplete f => Sys2Proof.Machine.execFlrComplete f s
  | .correctedError u => Sys2Proof.Machine.execCorrectedError u s
  | .uncorrectableError u place => Sys2Proof.Machine.execUncorrectableError u place s
  | .unitRetire u repair => Sys2Proof.Machine.execUnitRetire u repair s
  | .zeroingComplete x => Sys2Proof.Machine.execZeroingComplete x s
  | .modeChange service => Sys2Proof.Machine.execModeChange service s
  | .cxlMemAccess write addr data => Sys2Proof.Machine.execCxlMemAccess write addr data s
  | .boot image version hdm harvested macRows => Sys2Proof.Machine.execBoot image version hdm harvested macRows s
  | .attestationRequest nonce => Sys2Proof.Machine.execAttestationRequest nonce s
  | .powerSample milliwatts => Sys2Proof.Machine.execPowerSample milliwatts s
  | .overTemperature die => Sys2Proof.Machine.execOverTemperature die s
  | .thermalTrip die => Sys2Proof.Machine.execThermalTrip die s
  | .mbcmdUnknownCode f code => Sys2Proof.Machine.execMbcmdUnknownCode f code s

end Sys2Proof.Machine
end

