-- ==== Sys2Proof/Machine/Due.lean ====
section
/-!
DEFINITION. What is due in a cycle (01 R22; log 1, log 4): the steps of the engines and of the executive that the state enables,
in the order in which they are taken, and what follows once every core has issued.
-/

namespace Sys2Proof.Machine

/-! ### Units -/

/-- The clusters of the cores that are listed. -/
def listedClusters (s : State) : List Nat := clustersOf (s.cores.map Prod.fst)

/-- Events of each core, in order of the cores. -/
def perCore (s : State) (f : Nat → Core → List Event) : List Event := s.cores.flatMap fun p => f p.1 p.2

/-- Events of each cluster. -/
def perCluster (s : State) (f : Nat → List Event) : List Event := (listedClusters s).flatMap f

/-- Events of each context that is not FREE. -/
def perContext (s : State) (f : Nat → Context → List Event) : List Event :=
  (s.contexts.filter fun p => p.2.st != .free).flatMap fun p => f p.1 p.2

/-- An event that is due under a condition. -/
def dueIf (b : Bool) (e : Event) : List Event := if b then [e] else []

/-! ### The engines of a core and of a cluster -/

/-- Scalar and vector results, a trap that stops the core, retention, a bank move (05 R105, R130; 06 R145; 08 R206, R214,
R215). -/
def coreDue (s : State) (c : Nat) (k : Core) : List Event :=
  dueIf (k.pend.any fun p => decide (p.landAt ≤ s.now)) (.resultLands c) ++
  dueIf (!k.vfly.isEmpty) (.vectorComplete c) ++
  dueIf k.rehashAt.isSome (.bankhashRehashComplete c) ++
  (match k.fatal with
   | some (t, pc) => dueIf (k.status == .running && k.mayEnd) (.trapEntry c t.cause pc t.t0 t.t1 t.t2 t.t3)
   | none => []) ++
  (match k.retention with
   | .entering _ => [.retentionEntryComplete c]
   | .exiting _ => [.retentionExitComplete c]
   | _ => [])

/-- The joint array, sparse operations and the comb builders, each of which starts a build in the cycle after it fell idle (07 R180,
R186; 15 R345, R353; 19 R423). -/
def matrixDue (s : State) (k : Nat) : List Event :=
  let cl := s.cluster k
  let cores (f : Nat → Core → Bool) (e : Nat → Event) : List Event :=
    ((clusterCores k).filter fun c => f c (s.core c)).map e
  cores (fun _ c => c.slice.stagedAt != 0 && decide (c.slice.stagedAt ≤ s.now)) .mldbStagingComplete ++
  dueIf (cl.jointAt.any fun g => decide (g ≤ s.now)) (.jointRendezvousComplete k) ++
  dueIf (cl.joint.any fun o => decide (o.step < 8) && decide (o.start + o.step * stepLen o ≤ s.now)) (.ringStepBegin k) ++
  cores (fun _ c => c.slice.st == .draining && cl.joint.any fun o => decide (pairDue o (c.slice.wm / 2) ≤ s.now)) .rowPairComplete ++
  cores (fun _ c => c.sparse.any fun o => decide (o.endAt ≤ s.now)) .sparseOpEnd ++
  dueIf (cl.building.any (endedBuild s.now cl)) (.buildEnd k) ++ dueIf (nextBuild s k).isSome (.buildStart k)

/-- The beats a cluster's copy unit moves in one direction in a cycle: four, or in a shared cluster half of a partition's cores
(09 R218; 19 R423). -/
def beatBudget (s : State) (k tag : Nat) : Nat :=
  if sharedCluster s k then
    let c := tagCount s k tag
    (s.now + 1) * c / 2 - s.now * c / 2
  else 4

/-- A list turned round by `n` places. -/
def rotate' {α : Type} (n : Nat) (l : List α) : List α :=
  let k := if l.isEmpty then 0 else n % l.length
  l.drop k ++ l.take k

/-- `n` members of a list taken round by round. -/
def takeRound {α : Type} (n : Nat) (l : List α) : List α :=
  if l.isEmpty then [] else (List.range n).filterMap fun i => l[i % l.length]?

/-- The channels of a cluster's cores that carry a tag and satisfy a test: core and channel. -/
def channelsOf (s : State) (k tag : Nat) (f : Channel → Bool) : List (Nat × Nat) :=
  ((clusterCores k).filter fun c => tagOf s c == tag && !(s.core c).still).flatMap fun c =>
    ((s.core c).channels.filter fun p => f p.2).map fun p => (c, p.1)

/-- The beats of a cluster's copy unit (09 R218, R222): copies that wait look at their edges; those that move share the unit in
turn, and the banks serve what they move in channel order (08 R207). -/
def copyDue (s : State) (k : Nat) : List Event :=
  let tags := (clusterCores k).foldl (fun l c => insertNat (tagOf s c) l) []
  tags.flatMap fun tag =>
    let moving (dir : Bool) (x : Channel) : Bool :=
      (x.st == .moving || x.st == .stalled) && x.dir == dir && decide (x.readyAt ≤ s.now)
    let beats (dir : Bool) : List (Nat × Nat) :=
      takeRound (beatBudget s k tag) (rotate' s.now (channelsOf s k tag (moving dir)))
    let moved := beats false ++ beats true
    ((channelsOf s k tag fun x => x.st == .waiting) ++
      (channelsOf s k tag fun _ => true).flatMap fun p => moved.filter (· == p)).map fun p => .copyBeat p.1 p.2

/-- One entry of each ticket of a core in a cycle, turned so that an entry that waits for its page holds no other; the first comes
after the crossings of its request, and for a gather of the granule on its way back (01 R12; 09 R235). -/
def gatherDue (s : State) (c : Nat) (k : Core) : List Event :=
  k.tickets.flatMap fun p =>
    match rotate' s.now p.2.todo with
    | [] => []
    | j :: _ =>
      let way := (if p.2.scat then 12 else 24) * crossingsTo s c (k.ctx.getD 0) (granuleSpan s k p.2 j).1 p.2.scat
      dueIf (!k.still && decide (p.2.sentAt + way ≤ s.now))
        (.gatherEntry c p.1 j)

/-! ### Atomics and contributions (11; 20 R438; log 4) -/

/-- The module that an atomic of context `x` goes to; none where its home is here and it is not merged (20 R437, R438). -/
def awayTo (s : State) (x : Nat) (a : Atom) : Option Nat :=
  match a.place with
  | .peer => some (homeModule s x a.va)
  | .switch w => some (((s.func (s.ctx x).func).window w).home)
  | _ => none

/-- The cycles an atomic of context `x` takes to its home, or out of the package (01 R12; log 4). -/
def wayThere (s : State) (c x : Nat) (a : Atom) : Nat :=
  match a.place with
  | .home pa _ => 20 + 12 * crossings (dieOf c) (homeDie pa)
  | _ => 20 + 12 * ((awayTo s x a).map (outCrossings s c)).getD 0

/-- What the switch is sent for an atomic of a core: a contribution, or a close. -/
def partOf (s : State) (c : Nat) (d : Window) (a : Atom) : Contribution :=
  if a.sysRel && decide (d.ctr ≤ a.va) && decide (a.va < d.ctr + 4) then .close s.modNum a.op a.operand a.compare
  else .value s.modNum c a.seq a.op a.va a.operand

/-- The atomics of a core that reach their homes or return; a link that retrains holds its traffic (20 R433). -/
def atomicDue (s : State) (c : Nat) (k : Core) : List Event :=
  let x := k.ctx.getD 0
  k.atoms.flatMap fun a =>
    let way := wayThere s c x a
    if a.applied then dueIf (!a.returned && decide (a.sentAt + 2 * way ≤ s.now)) (.atomicResultReturn c a.seq)
    else if s.now < a.sentAt + way || !k.firstAt a || (awayTo s x a).any (linkHeld s) then []
    else match a.place with
      | .switch w => [.contributionAccept x w (partOf s c ((s.func (s.ctx x).func).window w) a)]
      | _ => [.atomicApply (.own c a.seq)]

/-! ### Exchange, queues, barriers (12 R285; 13 R299, R300, R314) -/

/-- Deliveries into and out of a core. -/
def deliveryDue (s : State) (c : Nat) (k : Core) : List Event :=
  dueIf (dueTransfer k s.now).isSome (.exchangeBeatLands c) ++ dueIf (!k.ring.inflight.isEmpty) (.queueEntryLands c)

/-- The events of the groups of a context's launches. -/
def groupDue (s : State) (x : Nat) (r : Context) : List Event :=
  if r.st ≠ .running && r.st ≠ .faulted then []
  else r.launches.flatMap fun p =>
    ((List.range p.2.groups.length).zip p.2.groups).flatMap fun q =>
      dueIf (q.2.st == .exchange) (.exchangeSlotClose x p.1 q.1) ++
      dueIf (q.2.st == .releasing && decide (q.2.releaseAt ≤ s.now)) (.barrierRelease x p.1 q.1) ++
      dueIf (q.2.members.any fun n => (memberCore s x n).any fun c => (s.core c).quiet) (.groupQuiescent x p.1 q.1)

/-! ### Waggle lanes (14 R326 to R329) -/

/-- The events of a lane at a slot boundary: withdrawals, the end of a frame, entries, the start of a frame, a slot. -/
def laneDue (s : State) (n : Nat) (l : Lane) : List Event :=
  ((l.withdraw.filter fun p => decide (p.2 ≤ s.now)).map fun p => .waggleWithdrawal p.1 n) ++
  dueIf (l.st == .running && decide (l.start + 224 ≤ s.now)) (.frameEnd n) ++
  ((l.sent.filter fun p => decide (p.2 ≤ s.now)).map fun p => .waggleEntryRegister p.1.core n) ++
  dueIf (l.st == .gathering && decide (l.start ≤ s.now)) (.frameStart n) ++
  dueIf (l.st == .running && decide (l.slot < 53) && decide (l.start + 4 * (l.slot + 1) ≤ s.now)) (.resolutionSlot n)

/-! ### Continuations, launches, queues (17 R379, R384; 18 R403, R405, R407) -/

/-- Idle cores that find a record: 32 cycles after it was posted, and 12 for each die crossing (01 R12; 17 R384). -/
def poolDue (s : State) (c : Nat) (k : Core) : List Event :=
  if k.status ≠ .idle then []
  else match (s.ctx (k.ctx.getD 0)).pool.find? fun r =>
      eligible' k r && decide (r.since + 32 + 12 * crossings (dieOf c) r.die ≤ s.now) with
    | none => []
    | some r => dueIf k.ctx.isSome (.poolTakeIdle c r.id)

/-- The steps of a context's launches. -/
def launchDue (s : State) (x : Nat) (r : Context) : List Event :=
  if r.st ≠ .running then []
  else r.launches.flatMap fun p => match p.2.st with
    | .placing => dueIf (!r.pending && r.haltKind == .none) (.launchLoad x p.1)
    | .loading => [.launchStart x p.1]
    | .running => dueIf (launchDone s x p.1) (.launchEnd x p.1)
    | .faulted => []

/-- The polls of the queues that wait. -/
def pollDue (s : State) : List Event :=
  (s.queues.filter fun p => p.2.st == .waiting && decide (p.2.pollAt ≤ s.time)).map fun p =>
    .eventCounterPoll (p.1 / 1024) (p.1 % 1024)

/-- Arbitration and slices of each partition. -/
def rotationDue (s : State) : List Event :=
  s.rotations.flatMap fun p => [.queueTake p.1] ++ dueIf (sliceOver s p.1) (.sliceExpiry p.1)

/-! ### The executive (10; 19; 20; 21) -/

/-- The steps of a context's life that have come about. -/
def lifeDue (s : State) (x : Nat) (r : Context) : List Event :=
  match r.st with
  | .loading => [.contextLoadComplete x]
  | .running =>
    dueIf (r.stopping && !r.forced && decide (r.pendingAt + boundaryWait s x ≤ s.time)) (.boundaryWaitExpiry x) ++
    dueIf (r.stopping && r.haltKind == .none && allRest s x) (.preemptionComplete x) ++
    dueIf (r.haltKind == .halt && haltDone s x) (.haltComplete x) ++ dueIf (imageReady s x) (.saveComplete x)
  | .terminated => dueIf (!(s.shoot.any fun d => d.ctx == x) && !owesReports s x) (.zeroingComplete x)
  | _ => dueIf (imageReady s x) (.saveComplete x)

/-- Page requests that enter, are refused, and shootdowns that end. -/
def pageDue (s : State) : List Event :=
  let refused := s.requests.filter fun r => match (s.ctx r.ctx).mapped.find? fun p => p.1 == r.va with
    | none => false
    | some (_, k) => servedNext s r.ctx r.va && refusable s r.ctx r.va k
  ([16, 17].filter fun d => s.waiting.any fun r => reqDie r.func == d).map Event.pageRequestAdmit ++
  (refused.map fun r => .pageRequestRefuse r.ctx r.va) ++ s.shoot.map fun d => .shootdownComplete d.ctx d.va

/-- Collectives that deliver or whose watchdog has run out, and functions whose reset is complete. -/
def funcDue (s : State) : List Event :=
  s.funcs.flatMap fun p =>
    (p.2.windows.flatMap fun w =>
      dueIf (w.2.en && w.2.isOpen && epochClosed w.2 (s.epochOf p.1 w.1)) (.epochDeliver w.2.lctx w.1) ++
      dueIf ((s.epochOf p.1 w.1).watchAt.any fun t => decide (t + watchTime w.2 ≤ s.time))
        (.collectiveWatchdogExpiry w.2.lctx w.1)) ++
    dueIf p.2.resetting (.flrComplete p.1)

/-- Links whose retraining has taken too long. -/
def portDue (s : State) : List Event :=
  (s.ports.filter fun p => p.2.st == .retraining && decide (p.2.since + timeOf 10000 ≤ s.time)).map fun p =>
    .retrainingTimeout p.1

/-- Declared units that are to be retired. -/
def unitDue (s : State) : List Event := s.lasting.map fun u => .unitRetire u 0

/-! ### A cycle -/

/-- Everything due at the start of a cycle, in order: results, engines, the exchange clocks, which close a slot in the cycle after
its last transfer landed (13 R299), accesses that are retried before new ones (08 R208), the executive. -/
def due (s : State) : List Event :=
  perCore s (coreDue s) ++ perCluster s (matrixDue s) ++
  (perCluster s fun k => (s.cluster k).fills.map fun p => .treeRecordFill k p.1 p.2) ++
  perCore s (atomicDue s) ++ perContext s (groupDue s) ++
  (perCore s fun c k => dueIf (!k.replay.isEmpty) (.bankReplayRetry c)) ++
  (perCluster s fun k => dueIf ((clusterCores k).any fun c => !(s.core c).vq.isEmpty) (.vectorDispatch k)) ++
  (perCore s fun c k => dueIf k.feeds (.repfVectorFeed c)) ++
  (perCluster s fun k => ((List.range 8).filter fun j => (gangAsked (s.core (8 * k + j))).any fun n =>
      gangReady s (8 * k + j) n).map fun j => .gangRendezvousComplete k j) ++
  (s.lanes.flatMap fun p => laneDue s p.1 p.2) ++ perCore s (poolDue s) ++ perContext s (launchDue s) ++ pollDue s ++
  rotationDue s ++ perContext s (lifeDue s) ++ pageDue s ++ funcDue s ++ portDue s ++ unitDue s

/-- What the banks serve after the cores' own accesses of a cycle, when every core has issued: MLDB staging, then deliveries (08
R207; 15 R351). -/
def State.stageAll (s : State) : State :=
  (s.cores.filter fun p => p.2.slice.stagedAt != 0).foldl
    (fun q p => q.modCore p.1 fun c => c.stageWords s.now (panelReads s p.1 s.now)) s

/-- The deliveries of a cycle: copies and gathers, exchange and queues (08 R207). -/
def sweepDue (s : State) : List Event :=
  perCluster s (copyDue s) ++ perCore s (gatherDue s) ++ perCore s (deliveryDue s)

/-- The arrivals that enter their trees in the cycle that ends (12 R287, R288): none while a write is late (16 R365). -/
def arrivalsDue (s : State) : List Event :=
  if !s.late.isEmpty then []
  else perCore s fun c k => (k.arrivals.filter k.mayEnter).map fun a => .arrivalEntersTree c a.channel

/-- The page requests of a FAULTED context withdrawn once it has stopped (19 R413, R418). -/
def State.settleFault (s : State) (x : Nat) : State :=
  if (s.ctx x).st = .faulted && allRest s x then s.withdrawRequests x else s

/-- What the executive and the cores settle at the end of a cycle: cores halt, deferred stops proceed, stopped contexts come
back, tags change, reports and late writes go on, epochs whose members are out of reach are aborted. -/
def State.settle (s : State) : State :=
  let xs := s.contexts.map Prod.fst
  let s1 := xs.foldl State.settleFault (xs.foldl State.proceed s.abortLost.haltCores)
  let s2 := xs.foldl (fun q x => (q.readmit x).tryResume x) s1.settleTags
  s2.settleMail.settleWatch.settleReports.settleLate

/-- The function through whose port an input comes from its host: doorbells, register writes, commands, stores to the reserved
range (18 R401; 19 R410; 20 R432, R442). -/
def Event.sender : Event → Option Nat
  | .doorbell f _ _ | .registerWrite f _ _ | .functionLevelReset f | .mbcmdUnknownCode f _ | .create f _ _ _ | .terminate f _
  | .map f _ _ _ _ _ _ _ _ _ | .unmap f _ _ | .queue f _ _ _ _ _ _ | .qctlDisable f _ _ | .qctlEnable f _ _ | .qctlReset f _ _
  | .preempt f _ | .resume f _ | .signal f _ _ | .halt f _ | .trackStart f _ | .trackStop f _ | .harvest f _ _ _ | .save f _ _ _
  | .restore f _ _ | .dump f _ _ _ | .setparmWeight f _ _ | .setparmSlice f _ _ | .setparmBoundaryWait f _ _
  | .setparmLaneRequest f _ _ | .setparmPageQuota f _ _ | .dbggo f _ _ | .evict f _ _ | .partset f _ _ | .partdrop f _
  | .partfunc f _ _ => some f
  | .cxlMemAccess _ _ _ => some adminFunc
  | _ => none

/-- Whether an input arrives: its time has come, and no link that retrains holds it (20 R433). -/
def arrives (s : State) (p : Nat × Event) : Bool := decide (p.1 ≤ s.now) && !p.2.sender.any (hostHeld s)

/-- The next cycle, with what arrives from outside and what is due in it. -/
def State.nextCycle (s : State) : State :=
  let s1 : State := { s.settle with now := s.now + 1, time := s.time + cycleTime s.mhz }
  { s1 with inputs := s1.inputs.filter (fun p => !arrives s1 p), swept := false,
            agenda := (s1.inputs.filter (arrives s1)).map Prod.snd ++ due s1 }

/-- A cycle in which no core issues any more: deliveries land, arrivals enter their trees, then the next cycle begins. -/
def State.tick (s : State) : State :=
  if !s.swept then
    let s1 := s.stageAll
    { s1 with swept := true, agenda := sweepDue s1 }
  else match arrivalsDue s with
    | [] => s.nextCycle
    | es => { s with agenda := es }

end Sys2Proof.Machine
end

