-- ==== Sys2Proof/Machine/Run.lean ====
section
/-!
DEFINITION. The meaning of a step of an engine, of the executive or of the host as it stands in the queue of events: that of
the constructor of Instr of the same name.
-/

namespace Sys2Proof.Machine

/-- Runs an event. -/
def runEvent (e : Event) (s : State) : Host.Outcome State Fault Refusal :=
  match e with
  | .repfVectorFeed c => execRepfVectorFeed c s
  | .vectorDispatch k => execVectorDispatch k s
  | .vectorComplete c => execVectorComplete c s
  | .gangRendezvousComplete k j => execGangRendezvousComplete k j s
  | .mldbStagingComplete c => execMldbStagingComplete c s
  | .jointRendezvousComplete k => execJointRendezvousComplete k s
  | .ringStepBegin k => execRingStepBegin k s
  | .rowPairComplete c => execRowPairComplete c s
  | .treeRecordFill k x h => execTreeRecordFill k x h s
  | .bankhashRehashComplete c => execBankhashRehashComplete c s
  | .bankReplayRetry c => execBankReplayRetry c s
  | .retentionEntry c => execRetentionEntry c s
  | .retentionEntryComplete c => execRetentionEntryComplete c s
  | .retentionExit c => execRetentionExit c s
  | .retentionExitComplete c => execRetentionExitComplete c s
  | .copyBeat c ch => execCopyBeat c ch s
  | .gatherEntry c t j => execGatherEntry c t j s
  | .packageCopyMove f x src dst len sig amt => execPackageCopyMove f x src dst len sig amt s
  | .pageRequestAdmit die => execPageRequestAdmit die s
  | .pageRequestComplete x va frame => execPageRequestComplete x va frame s
  | .pageRequestRefuse x va => execPageRequestRefuse x va s
  | .shootdownComplete x va => execShootdownComplete x va s
  | .pageReplicate x va => execPageReplicate x va s
  | .pageEndReplication x va => execPageEndReplication x va s
  | .pagePermissionChange x va r w e part tag => execPagePermissionChange x va r w e part tag s
  | .instructionFetch c => execInstructionFetch c s
  | .atomicApply a => execAtomicApply a s
  | .atomicResultReturn c n => execAtomicResultReturn c n s
  | .arrivalEntersTree c ch => execArrivalEntersTree c ch s
  | .barrierRelease x l g => execBarrierRelease x l g s
  | .exchangeSlotClose x l g => execExchangeSlotClose x l g s
  | .exchangeBeatLands c => execExchangeBeatLands c s
  | .queueEntryLands c => execQueueEntryLands c s
  | .waggleEntryRegister c n => execWaggleEntryRegister c n s
  | .frameStart n => execFrameStart n s
  | .resolutionSlot n => execResolutionSlot n s
  | .waggleWithdrawal c n => execWaggleWithdrawal c n s
  | .frameEnd n => execFrameEnd n s
  | .buildStart k => execBuildStart k s
  | .buildEnd k => execBuildEnd k s
  | .sparseOpEnd c => execSparseOpEnd c s
  | .resultLands c => execResultLands c s
  | .trapEntry c cause tpc t0 t1 t2 t3 => execTrapEntry c cause tpc t0 t1 t2 t3 s
  | .poolTakeIdle c n => execPoolTakeIdle c n s
  | .groupQuiescent x l g => execGroupQuiescent x l g s
  | .launchLoad x l => execLaunchLoad x l s
  | .launchStart x l => execLaunchStart x l s
  | .launchEnd x l => execLaunchEnd x l s
  | .doorbell f q tail => execDoorbell f q tail s
  | .eventCounterPoll f q => execEventCounterPoll f q s
  | .queueTake tag => execQueueTake tag s
  | .sliceExpiry tag => execSliceExpiry tag s
  | .preemptionComplete x => execPreemptionComplete x s
  | .boundaryWaitExpiry x => execBoundaryWaitExpiry x s
  | .haltComplete x => execHaltComplete x s
  | .saveComplete x => execSaveComplete x s
  | .contextLoadComplete x => execContextLoadComplete x s
  | .create f image key table => execCreate f image key table s
  | .terminate f x => execTerminate f x s
  | .map f x va k r w e demand source frame => execMap f x va k r w e demand source frame s
  | .unmap f x va => execUnmap f x va s
  | .queue f x ringBase repBase hostMem prio log2n => execQueue f x ringBase repBase hostMem prio log2n s
  | .qctlDisable f x q => execQctlDisable f x q s
  | .qctlEnable f x q => execQctlEnable f x q s
  | .qctlReset f x q => execQctlReset f x q s
  | .preempt f x => execPreempt f x s
  | .resume f x => execResume f x s
  | .signal f x code => execSignal f x code s
  | .halt f x => execHalt f x s
  | .trackStart f x => execTrackStart f x s
  | .trackStop f x => execTrackStop f x s
  | .harvest f x out limit => execHarvest f x out limit s
  | .save f x out limit => execSave f x out limit s
  | .restore f x image => execRestore f x image s
  | .dump f x out limit => execDump f x out limit s
  | .setparmWeight f x value => execSetparmWeight f x value s
  | .setparmSlice f x value => execSetparmSlice f x value s
  | .setparmBoundaryWait f x value => execSetparmBoundaryWait f x value s
  | .setparmLaneRequest f x mask => execSetparmLaneRequest f x mask s
  | .setparmPageQuota f x value => execSetparmPageQuota f x value s
  | .dbggo f x lcore => execDbggo f x lcore s
  | .evict f x va => execEvict f x va s
  | .partset f tag bitmap => execPartset f tag bitmap s
  | .partdrop f tag => execPartdrop f tag s
  | .partfunc f g tag => execPartfunc f g tag s
  | .registerWrite f off value => execRegisterWrite f off value s
  | .windowEnable f w => execWindowEnable f w s
  | .windowDisable f w => execWindowDisable f w s
  | .contributionAccept x w part => execContributionAccept x w part s
  | .epochDeliver x w => execEpochDeliver x w s
  | .collectiveWatchdogExpiry x w => execCollectiveWatchdogExpiry x w s
  | .portEnable p => execPortEnable p s
  | .trainingComplete p full number peers => execTrainingComplete p full number peers s
  | .trainingFailure p => execTrainingFailure p s
  | .flitCrcFail p replay => execFlitCrcFail p replay s
  | .retrainingComplete p full => execRetrainingComplete p full s
  | .retrainingTimeout p => execRetrainingTimeout p s
  | .portDisable p => execPortDisable p s
  | .functionLevelReset f => execFunctionLevelReset f s
  | .flrComplete f => execFlrComplete f s
  | .correctedError u => execCorrectedError u s
  | .uncorrectableError u place => execUncorrectableError u place s
  | .unitRetire u repair => execUnitRetire u repair s
  | .zeroingComplete x => execZeroingComplete x s
  | .modeChange service => execModeChange service s
  | .cxlMemAccess write addr data => execCxlMemAccess write addr data s
  | .boot image version hdm harvested macRows => execBoot image version hdm harvested macRows s
  | .attestationRequest nonce => execAttestationRequest nonce s
  | .powerSample milliwatts => execPowerSample milliwatts s
  | .overTemperature die => execOverTemperature die s
  | .thermalTrip die => execThermalTrip die s
  | .mbcmdUnknownCode f code => execMbcmdUnknownCode f code s
  | .peerAccess x va n data => execPeerAccess x va n data s
  | .memberStop x w m stopped => execMemberStop x w m stopped s
  | .memberAbort x w m reason => execMemberAbort x w m reason s

end Sys2Proof.Machine
end

