-- ==== Sys2Proof/Machine/Enter.lean ====
section
/-!
DEFINITION. What a step of the module runs: the event at hand, a trap at a boundary, the instruction of the next core, or the
passing of a cycle (01 R22, R23; log 1); and a state that runs a given word as its first instruction (log 19).
-/

namespace Sys2Proof.Machine

/-- The trap that a member of the gang of core `id` takes before the next instruction, with the member (05 R130). -/
def trapDue (s : State) (id : Nat) : Option (Nat × Trap × Word) :=
  (gangCores s id).findSome? fun m => (boundaryNow s m).map fun t => (m, t)

/-- What is next in a state: an event, a trap, the turn of a core, or the end of the cycle. -/
inductive Work where
  | event (e : Event) (s : State)
  | trap (c : Nat) (t : Trap) (pc : Word)
  | turn (id : Nat) (t : Turn)
  | cycle
  deriving DecidableEq, Repr

/-- The work at hand in a state. -/
def workOf (s : State) : Work :=
  match s.agenda with
  | e :: rest => .event e { s with agenda := rest }
  | [] =>
    match nextCore s with
    | none => .cycle
    | some id =>
      match trapDue s id with
      | some (c, t, pc) => .trap c t pc
      | none => .turn id (turnOf s id)

/-! ### A program in place (log 19) -/

/-- A kernel of one code page at address 0. -/
def pageKernel : Kernel :=
  { header := { handler := none, codeLen := 131072, patchLen := 0, macros := 64, localLen := 32768, bars := 16, vregs := 32,
                ok := true },
    code := [], codeVa := 0, hashes := [], nLaunch := 1, groups := [], patch := [], macros := [], runs := [] }

/-- A launch of one core of that kernel, running. -/
def pageLaunch : Launch :=
  { st := .running,
    record := { ok := true, image := 0, kernel := 0, lindex := 0, entry := 0, row0 := 0, col0 := 0, rows := 1, cols := 1,
                povr := false, debug := false, levels := [], args := [], patchPtr := 0, waitAddr := 0, waitVal := 0,
                sigAddr := 0, sigAmt := 0 },
    patch := [], groups := [], origin := none, report := none, order := 0 }

/-- Context 0 with that launch, of partition 1. -/
def pageContext : Context :=
  { Context.reset with
    st := .running, tag := 1, image := { Image.reset with kernels := [(0, pageKernel)] }, launches := [(0, pageLaunch)],
    mapped := [(0, 0)] }

/-- Core 0 about to issue the word at address 0, all else as it was. -/
def Core.atZero (c : Core) (now : Nat) : Core :=
  { c with ctx := some 0, lslot := 0, group := none, lcore := 0, tag := 1, status := .running, haltReq := .none, signal := none,
           abort := none, dataErr := none, wait := .none, held := none, readyAt := now, pc := 0, md := none, frame := none,
           trapFeed := false, ops := [], rehashAt := none, gangstat := 0, leader := 0, resVregs := 32, resBars := 16,
           resLocal := 32768, resMacros := 64, retention := .awake, fatal := none }

/-- The frame of the code page. -/
def pageFrame : Nat := 2 ^ 30

/-- Tables at address 0 that map address 0 to the frame, executable and checked. -/
def pageTables (s : State) : State :=
  let s1 := (List.range 5).foldl (fun q l => writeEntry q (512 * l) (512 * (l + 1) + 1)) s
  writeEntry s1 2560 (leafEntry 0 pageFrame false false true false true false 1 1)

end Sys2Proof.Machine
end

