-- ==== Sys2Proof/Machine/Step.lean ====
section
/-!
DEFINITION. One step of the module (log 1), and the state in which a step runs a given word.
-/

namespace Sys2Proof.Machine

/-- One step: after a thermal trip nothing runs; else the event at hand, a trap at a boundary, an instruction of the next core
that issues in this cycle, or the passing of the cycle. -/
def step (s : State) : Host.Outcome State Fault Refusal :=
  if s.clockOff then .fault .clocksStopped
  else match workOf s with
    | .event e q => runEvent e q
    | .trap c t pc => execTrapEntry c t.cause pc t.t0 t.t1 t.t2 t.t3 s
    | .turn _ (.run i q) => exec i q
    | .turn _ (.settled q) => .next q
    | .turn id (.fetch _ _) => execInstructionFetch id s
    | .cycle => .next s.tick

/-- The state with a word as the first instruction of core 0 (log 19): context 0 runs a kernel whose code page holds it. -/
def State.withFetchWord (s : State) (nbits w : Nat) : State :=
  let s1 := pageTables s
  { s1 with
    agenda := [], swept := false, clockOff := false, cores := put 0 ((s.core 0).atZero s.now) s1.cores, contexts := put 0 pageContext s1.contexts,
    tags := put 0 1 s1.tags, freeTable := max 3072 s1.freeTable,
    hbm := writeWord s1.hbm pageFrame (BitVec.ofNat 32 (w % 2 ^ nbits)) }

end Sys2Proof.Machine
end

