-- ==== Sys2Proof/Safety.lean ====
section
/-!
DEFINITION. What counts as a safe run, and the conditions under which an instruction completes, in the terms the statements
use.
-/

namespace Sys2Proof.Machine

/-- Every memory of a state is in its canonical form: HBM, host memory, and the local memory of every core, also where a
context that is saved or being restored keeps it. -/
def memoryWf (s : State) : Bool :=
  memWf s.hbm && memWf s.hostMem && s.cores.all (fun p => memWf p.2.mem) &&
    s.contexts.all (fun p => p.2.saveArea.all fun q => memWf q.2.mem)

/-- A run of `n` steps is safe: each answers a next state whose memories are canonical. -/
def Safe : Nat → State → Prop
  | 0, s => memoryWf s = true
  | n + 1, s => memoryWf s = true ∧ ∃ t, step s = .next t ∧ Safe n t

/-- Core `c` has the turn, issues in this cycle and stands outside a gang (05 R103; 06 R170). -/
structure Issues (s : State) (c : Core) : Prop where
  turn  : s.core s.cur = c
  may   : c.mayIssue s.now = true
  alone : c.inGang = false

/-- Core `c` issues an instruction that no modifier prefixes and no frame captures (04 R96; 05 R122). -/
structure IssuesPlain (s : State) (c : Core) : Prop extends Issues s c where
  plain : c.md = none
  whole : c.capturing = false

/-- Core `c` issues instruction `i`, and no check of modifiers and captures stops it (04 R96, R100; 05 R122, R123): the state
in which every instruction, arithmetic or not, prefixed or captured or not, goes on to its own meaning. -/
structure Takes (s : State) (c : Core) (i : Instr) : Prop extends Issues s c where
  fits    : preTrap c i = none
  checked : captureTrap c i = none

/-- The state in which the core that has the turn has completed an instruction, `c` being the core with the instruction's
own effect (05 R103, R120, R122, R126). -/
def State.completed (s : State) (c : Core) (i : Instr) (ctl : Ctl) : State := s.setCore s.cur (c.finish s.now i ctl)

/-- Core `c` stands at an instruction of its own: no macro operation is under way, and no frame but one whose vector passes
feed (05 R124, R125). -/
def Core.single (c : Core) : Prop := c.ops = [] ∧ ∀ f, c.frame = some f → f.feeding = true

/-- The core after an instruction outside macros and frames: it issues again in cycle `at'`, and nothing prefixes it (05
R103). -/
def Core.settled (c : Core) (at' : Nat) : Core := { c with wait := .none, held := none, readyAt := at', alaneOn := false, md := none }

/-- A scalar result with its exact value `e`: it passes the modifier's stages, its flags are ORed, and it stands for every
instruction from the next cycle on (05 R104, R105, R110). -/
def Core.result (c : Core) (now : Nat) (d : BitVec 5) (signed : Bool) (e : Int) : Core :=
  (c.orFlags (deliverInt c.md signed 32 e).2).landG now d (deliverInt c.md signed 32 e).1

/-- A scalar result with its exact value `e` that lands in cycle `t` (05 R104, R105, R110). -/
def Core.laterResult (c : Core) (t : Nat) (d : BitVec 5) (signed : Bool) (e : Int) : Core :=
  (c.orFlags (deliverInt c.md signed 32 e).2).queueG d (deliverInt c.md signed 32 e).1 t

/-- The core with an entry at the tail of its vector queue (06 R143, R149): the instruction with the values it takes at
issue; a queue that was empty takes up the smallest pass value of the cluster. -/
def Core.queued (c : Core) (s : State) (i : Instr) (fill : VEntry → VEntry) : Core :=
  { c with
    vq := c.vq ++ [{ fill { instr := i, addr := c.issueAddr, rmode := roundingOf c.rmode, md := c.md, scalar := 0, lanes := [],
                            bind := none, data := 0, lane0 := 0, laneN := 8, seqs := [], stamp := 0, take := false } with
                     stamp := c.serial + 1 }]
    serial := c.serial + 1
    pass := if c.vq.isEmpty then max c.pass ((minPass s s.cur).getD 0) else c.pass }

/-- Function `f` takes a command (19 R410; 20 R442; 21 R450). -/
structure Accepts (s : State) (f : Nat) : Prop where
  named    : f ≤ 512
  idle     : (s.func f).busy = false
  steady   : (s.func f).resetting = false
  portOpen : closedTo s f = false

/-- Function `f` takes a command on its context `x` (19 R410, R411). -/
structure Owns (s : State) (f x : Nat) : Prop extends Accepts s f where
  number : x < 4096
  made   : (s.ctx x).st ≠ .free
  mine   : (s.ctx x).func = f

end Sys2Proof.Machine
end

