-- ==== Sys2Proof/Certificates/Slice0/Obligations.lean ====
section
/-!
DEFINITION. The statements for the provers. Each docstring names the rules of spec/ that it formalises.
-/

section
open Sys2Proof Sys2Proof.Machine

/-- 05 R111 (by 05 R104, R110): each ALU minor decodes to its instruction, and each instruction completes with its exact result,
outside a gang, in every capture, replay and macro. 05 R111: CLZ counts the zero bits above the highest one, POPC the one
bits, BREV reverses. -/
def Obligations.AluResults : Prop :=
  ((∀ d a b : BitVec 5, ∀ p ∈ [(0, Instr.add d a b), (1, .sub d a b), (2, .and d a b), (3, .or d a b), (4, .xor d a b),
     (5, .andn d a b), (6, .shl d a b), (7, .shr d a b), (8, .sra d a b), (9, .slt d a b), (10, .sltu d a b), (11, .seq d a b),
     (12, .sne d a b), (13, .min d a b), (14, .max d a b), (15, .minu d a b), (16, .maxu d a b), (17, .sel d a b)],
     decodeWord (1#6 ++ d ++ a ++ b ++ BitVec.ofNat 11 p.1) = .ok p.2) ∧
   (∀ d a : BitVec 5, ∀ p ∈ [(18, Instr.clz d a), (19, .popc d a), (20, .brev d a)],
     decodeWord (1#6 ++ d ++ a ++ 0#5 ++ BitVec.ofNat 11 p.1) = .ok p.2) ∧
   ∀ (s : State) (c : Core) (d a b : BitVec 5), Issues s c →
     let x := c.readG a
     let y := c.readG b
     ∀ p ∈ [
       (Instr.add d a b, true, x.toInt + y.toInt),
       (.sub d a b, true, x.toInt - y.toInt),
       (.and d a b, true, (x &&& y).toInt),
       (.or d a b, true, (x ||| y).toInt),
       (.xor d a b, true, (x ^^^ y).toInt),
       (.andn d a b, true, (x &&& ~~~y).toInt),
       (.shl d a b, true, if 32 ≤ y.toNat then 0 else x.toInt * 2 ^ y.toNat),
       (.shr d a b, false, if 32 ≤ y.toNat then 0 else (x.toNat : Int) / 2 ^ y.toNat),
       (.sra d a b, true, if 32 ≤ y.toNat then (if x.toInt < 0 then -1 else 0) else x.toInt / 2 ^ y.toNat),
       (.slt d a b, true, if x.toInt < y.toInt then 1 else 0),
       (.sltu d a b, false, if x.toNat < y.toNat then 1 else 0),
       (.seq d a b, true, if x = y then 1 else 0),
       (.sne d a b, true, if x = y then 0 else 1),
       (.min d a b, true, min x.toInt y.toInt),
       (.max d a b, true, max x.toInt y.toInt),
       (.minu d a b, false, min (x.toNat : Int) y.toNat),
       (.maxu d a b, false, max (x.toNat : Int) y.toNat),
       (.sel d a b, true, if c.readG d ≠ 0 then x.toInt else y.toInt),
       (.clz d a, true, (clzNat x : Int)),
       (.popc d a, true, (popcNat x : Int)),
       (.brev d a, true, (brevWord x).toInt)],
     exec p.1 s = .next (s.completed (c.result s.now d p.2.1 p.2.2) p.1 .next)) ∧
  (∀ x : Word, clzNat x ≤ 32 ∧ (∀ i < 32, 32 - clzNat x ≤ i → x.getLsbD i = false) ∧
     (clzNat x < 32 → x.getLsbD (31 - clzNat x) = true) ∧
     popcNat x = ((List.range 32).map fun i => (x.getLsbD i).toNat).sum ∧
     ∀ i < 32, (brevWord x).getLsbD i = x.getLsbD (31 - i))

/-- 05 R104, R110, R112; 02 R53: the immediate and shift-immediate instructions, and LUI, which takes no modifier. -/
def Obligations.ImmediateResults : Prop :=
  ∀ (s : State) (c : Core) (d a : BitVec 5) (i : BitVec 16) (n : BitVec 6),
    (Issues s c →
      let x := c.readG a
      ∀ p ∈ [
        (Instr.addi d a i, true, x.toInt + i.toInt),
        (.andi d a i, true, (x &&& i.zeroExtend 32).toInt),
        (.ori d a i, true, (x ||| i.zeroExtend 32).toInt),
        (.xori d a i, true, (x ^^^ i.zeroExtend 32).toInt),
        (.slti d a i, true, if x.toInt < i.toInt then 1 else 0),
        (.sltiu d a i, false, if x.toNat < (i.signExtend 32).toNat then 1 else 0),
        (.shli d a n, true, if 32 ≤ n.toNat then 0 else x.toInt * 2 ^ n.toNat),
        (.shri d a n, false, if 32 ≤ n.toNat then 0 else (x.toNat : Int) / 2 ^ n.toNat),
        (.srai d a n, true, if 32 ≤ n.toNat then (if x.toInt < 0 then -1 else 0) else x.toInt / 2 ^ n.toNat)],
      exec p.1 s = .next (s.completed (c.result s.now d p.2.1 p.2.2) p.1 .next)) ∧
    (IssuesPlain s c →
      exec (.lui d i) s = .next (s.completed (c.landG s.now d (BitVec.ofNat 32 (i.toNat * 2 ^ 16))) (.lui d i) .next))

/-- 05 R104, R107, R110, R113; 02 R52: a multiplication lands 3 cycles after its issue, a division 18, and a division that finds
the divider busy stalls. That the flags of a modifier are ORed at issue is the model's choice (log 34). -/
def Obligations.MultiplyDivideResults : Prop :=
  (∀ d a b : BitVec 5, ∀ p ∈ [(0, Instr.mul d a b), (1, .mulh d a b), (2, .mulhu d a b), (3, .div d a b), (4, .divu d a b),
    (5, .rem d a b), (6, .remu d a b)], decodeWord (0x0A#6 ++ d ++ a ++ b ++ BitVec.ofNat 11 p.1) = .ok p.2) ∧
  deliverInt none true 32 ((-2 ^ 31 : Int).tdiv (-1)) = (0x80000000, 0) ∧
  deliverInt (some ⟨false, false, 0, true, false, 0⟩) true 32 ((-2 ^ 31 : Int).tdiv (-1)) = (0x7FFFFFFF, 0x80) ∧
  ∀ (s : State) (c : Core) (d a b : BitVec 5), Issues s c →
    let x := c.readG a
    let y := c.readG b
    let q : Int := if y = 0 then -1 else x.toInt.tdiv y.toInt
    let qu : Int := if y = 0 then 2 ^ 32 - 1 else (x.toNat : Int) / y.toNat
    (∀ p ∈ [
      (Instr.mul d a b, true, x.toInt * y.toInt),
      (.mulh d a b, true, x.toInt * y.toInt / 2 ^ 32),
      (.mulhu d a b, false, (x.toNat : Int) * y.toNat / 2 ^ 32)],
      exec p.1 s = .next (s.completed (c.laterResult (s.now + 3) d p.2.1 p.2.2) p.1 .next)) ∧
    ∀ p ∈ [
      (Instr.div d a b, true, q),
      (.divu d a b, false, qu),
      (.rem d a b, true, if y = 0 then x.toInt else x.toInt - y.toInt * q),
      (.remu d a b, false, if y = 0 then (x.toNat : Int) else (x.toNat : Int) - y.toNat * qu)],
      (c.divFree ≤ s.now → exec p.1 s =
        .next (s.completed { c.laterResult (s.now + 18) d p.2.1 p.2.2 with divFree := s.now + 18 } p.1 .next)) ∧
      (s.now < c.divFree → exec p.1 s =
        .next (s.setCore s.cur { c with wait := .stall, held := some p.1, readyAt := s.now + 1 }))

/-- 02 R50, R51, R54: what a modifier word does to an exact integer result, at every lane width. Without one the low bits are
delivered; the scale stage multiplies by a power of two or gives the nearest integer, ties to even; then come absolute value,
negation and clamp, in this order; saturation replaces a value outside the destination's range by the nearest end and sets
SAT, and only then. -/
def Obligations.IntegerModifierStages : Prop :=
  (∀ w ∈ [8, 16, 32], ∀ (signed : Bool) (e : Int), deliverInt none signed w e = (BitVec.ofInt w e, 0)) ∧
  (∀ (k : Nat) (e : Int), scaleInt k e = e * 2 ^ k) ∧
  (∀ (k : Nat) (e : Int),
    let q := scaleInt (-(k : Int)) e
    2 * (e - q * 2 ^ k).natAbs ≤ 2 ^ k ∧ (k ≠ 0 → 2 * (e - q * 2 ^ k).natAbs = 2 ^ k → q % 2 = 0)) ∧
  (∀ (m : Modifier) (x : Int),
    let y : Int := if m.abs then x.natAbs else x
    let z := if m.neg then -y else y
    (m.clamp = 0 → stagesInt m x = z) ∧
    (m.clamp = 1 → stagesInt m x = if z < 0 then 0 else if 1 < z then 1 else z) ∧
    (m.clamp = 2 → stagesInt m x = if z < -1 then -1 else if 1 < z then 1 else z) ∧
    (m.clamp = 3 → stagesInt m x = if z < 0 then 0 else z)) ∧
  (∀ w ∈ [8, 16, 32], ∀ (m : Modifier) (signed : Bool) (e : Int),
    let y := stagesInt m (scaleInt m.scale e)
    let lo : Int := if signed then -2 ^ (w - 1) else 0
    let hi : Int := if signed then 2 ^ (w - 1) - 1 else 2 ^ w - 1
    (m.sat = false → deliverInt (some m) signed w e = (BitVec.ofInt w y, 0)) ∧
    (m.sat = true → lo ≤ y → y ≤ hi → deliverInt (some m) signed w e = (BitVec.ofInt w y, 0)) ∧
    (m.sat = true → y < lo → deliverInt (some m) signed w e = (BitVec.ofInt w lo, 0x80)) ∧
    (m.sat = true → hi < y → deliverInt (some m) signed w e = (BitVec.ofInt w hi, 0x80)))

/-- 05 R105, R106: a reader before the landing sees the register as it was, a reader from the landing on the new value; of two
writes that land together the later in program order stands; g0 takes no write. -/
def Obligations.ResultsLandLate : Prop :=
  ∀ (c : Core) (d r : BitVec 5) (v w : Word) (t now : Nat),
    (now < t → ((c.queueG d v t).landDue now).readG r = (c.landDue now).readG r) ∧
    (d ≠ 0 → ((c.queueG d v t).landDue t).readG d = v) ∧
    (d ≠ 0 → (((c.queueG d v t).queueG d w t).landDue t).readG d = w) ∧
    (r ≠ d → ((c.queueG d v t).landDue now).readG r = (c.landDue now).readG r) ∧
    (d ≠ 0 → (c.landG now d v).readG d = v) ∧
    (d ≠ 0 → (((c.queueG d v (now + 1)).landG now d w).landDue (now + 1)).readG d = w) ∧
    (d ≠ 0 → now + 1 < t → (((c.queueG d v t).landG now d w).landDue (now + 1)).readG d = w ∧
      (((c.queueG d v t).landG now d w).landDue t).readG d = v) ∧
    (c.writeG 0 v).readG r = c.readG r ∧ c.readG 0 = 0

/-- 05 R104 to R106, 06 R142 (the frame of a scalar result): an ALU, immediate, multiply or divide instruction leaves every other
register, every byte of local memory and all else of the module as it was. -/
def Obligations.ScalarFrame : Prop :=
  ∀ (s t : State) (c : Core) (d a b : BitVec 5) (i : BitVec 16) (n : BitVec 6), Issues s c → c.single → c.md = none →
    ∀ p ∈ [Instr.add d a b, .sub d a b, .and d a b, .or d a b, .xor d a b, .andn d a b, .shl d a b, .shr d a b, .sra d a b,
      .slt d a b, .sltu d a b, .seq d a b, .sne d a b, .min d a b, .max d a b, .minu d a b, .maxu d a b, .sel d a b,
      .clz d a, .popc d a, .brev d a, .addi d a i, .andi d a i, .ori d a i, .xori d a i, .slti d a i, .sltiu d a i,
      .shli d a n, .shri d a n, .srai d a n, .mul d a b, .mulh d a b, .mulhu d a b, .div d a b, .divu d a b, .rem d a b,
      .remu d a b], exec p s = .next t →
    let k := t.core s.cur
    (∀ r, r ≠ d → k.readG r = c.readG r) ∧ k.a = c.a ∧ k.v = c.v ∧ k.m = c.m ∧ k.z = c.z ∧
    (∀ x, readByte k.mem x = readByte c.mem x) ∧ k.fpflags = c.fpflags ∧ k.rmode = c.rmode ∧ k.handler = c.handler ∧
    k.tpc = c.tpc ∧ k.tinfo = c.tinfo ∧ k.cause = c.cause ∧ k.vq = c.vq ∧ k.gangstat = c.gangstat ∧
    (∀ m, m ≠ s.cur → t.core m = s.core m) ∧ (∀ x, readByte t.hbm x = readByte s.hbm x) ∧
    (∀ x, readByte t.hostMem x = readByte s.hostMem x) ∧ t.contexts = s.contexts ∧ t.clusters = s.clusters ∧
    t.lanes = s.lanes ∧ t.queues = s.queues ∧ t.funcs = s.funcs

/-- 05 R114 (by 05 R109, R120): a branch goes to pc + 4 × offset when its test holds and to the next address (through the loops
that end here) when it does not; a wrong prediction costs 2 cycles. No register changes; hint 3 is illegal. -/
def Obligations.BranchesDecide : Prop :=
  (∀ (h : BitVec 2) (a : BitVec 5) (o : BitVec 19), ∀ p ∈ [(0x0B#6, Instr.beqz h a o), (0x0C#6, .bnez h a o),
    (0x0D#6, .bltz h a o), (0x0E#6, .bgez h a o), (0x0F#6, .bgtz h a o), (0x10#6, .blez h a o)],
    decodeWord (p.1 ++ h ++ a ++ o) = if h = 3 then .error .badHint else .ok p.2) ∧
  ∀ (s : State) (c : Core) (h : BitVec 2) (a : BitVec 5) (o : BitVec 19), IssuesPlain s c → c.single →
    let x := (c.readG a).toInt
    ∀ p ∈ [
      (Instr.beqz h a o, decide (x = 0)), (.bnez h a o, decide (x ≠ 0)), (.bltz h a o, decide (x < 0)),
      (.bgez h a o, decide (0 ≤ x)), (.bgtz h a o, decide (0 < x)), (.blez h a o, decide (x ≤ 0))],
    let guess := h = 1 ∨ h = 0 ∧ o.toInt ≤ 0
    exec p.1 s = .next (s.setCore s.cur
      ((if p.2 then c.transfer (c.pc + 4 * o.signExtend 32) else c.fall c.pc).settled
        (s.now + 1 + if (p.2 = true ↔ guess) then 0 else 2)))

/-- 05 R115 (by 05 R109, R121): JAL links and jumps at no cost; JALR reads its base before the link is written, costs 2 cycles,
and takes MISALIGNED, writing nothing, where the target is no multiple of 4. -/
def Obligations.JumpsAndLinks : Prop :=
  (∀ (d a : BitVec 5) (o : BitVec 21) (i : BitVec 16), decodeWord (0x11#6 ++ d ++ o) = .ok (.jal d o) ∧
    decodeWord (0x12#6 ++ d ++ a ++ i) = .ok (.jalr d a i)) ∧
  ∀ (s : State) (c : Core) (d a : BitVec 5) (o : BitVec 21) (i : BitVec 16), IssuesPlain s c → c.single →
    let t := c.readG a + i.signExtend 32
    exec (.jal d o) s = .next (s.setCore s.cur
      (((c.landG s.now d (c.pc + 4)).transfer (c.pc + 4 * o.signExtend 32)).settled (s.now + 1))) ∧
    (t.toNat % 4 = 0 → exec (.jalr d a i) s = .next (s.setCore s.cur
      (((c.landG s.now d (c.pc + 4)).transfer t).settled (s.now + 3)))) ∧
    (t.toNat % 4 ≠ 0 → exec (.jalr d a i) s =
      .next (s.takeTrap s.cur { cause := 0x03, t0 := t, t1 := 4, t2 := 0, t3 := 0 } c.pc))

/-- 05 R119, R120: a loop word pushes its body with the count, skips it when the count is 0, and takes RESOURCE_OVERRUN where two
loops are active or the body ends beyond the active loop. 05 R120, R121: where control goes after the word at `p`: back to
the body's first word while passes remain, out of the loop on the last pass, with every enclosing loop that ends here tested
in turn; a transfer pops every loop whose body does not hold its target, and moves no count. -/
def Obligations.LoopsIterate : Prop :=
  (∀ (s : State) (c : Core) (r : BitVec 5) (l : BitVec 16) (n : BitVec 16) (l' : BitVec 10), IssuesPlain s c → c.single →
     ∀ p ∈ [(Instr.loop r l, (c.readG r).toNat, l.toNat), (.loopi n l', n.toNat, l'.toNat)],
     let last := c.pc + BitVec.ofNat 32 (4 * p.2.2)
     let beyond := 2 ≤ c.loops.length ∨ ∃ k ks, c.loops = k :: ks ∧ k.last.toNat < c.pc.toNat + 4 * p.2.2
     (beyond → exec p.1 s = .next (s.takeTrap s.cur { cause := 0x02, t0 := 5, t1 := c.pc, t2 := 2, t3 := 0 } c.pc)) ∧
     (¬beyond → p.2.1 = 0 → exec p.1 s = .next (s.setCore s.cur ((c.fall last).settled (s.now + 1)))) ∧
     (¬beyond → p.2.1 ≠ 0 → exec p.1 s = .next (s.setCore s.cur
       ((({ c with loops := { first := c.pc + 4, last := last, remaining := p.2.1 } :: c.loops } : Core).fall c.pc).settled
         (s.now + 1))))) ∧
  (∀ (c : Core) (p t : Word) (l : LoopRec) (ls : List LoopRec),
     (c.loops = [] → c.fall p = { c with pc := p + 4 }) ∧
     (c.loops = l :: ls → l.last ≠ p → c.fall p = { c with pc := p + 4 }) ∧
     (c.loops = l :: ls → l.last = p → 1 < l.remaining →
       c.fall p = { c with pc := l.first, loops := { l with remaining := l.remaining - 1 } :: ls }) ∧
     (c.loops = l :: ls → l.last = p → l.remaining ≤ 1 → c.fall p = ({ c with loops := ls } : Core).fall p) ∧
     (c.transfer t).pc = t ∧
     (c.loops = l :: ls → (t.toNat < l.first.toNat ∨ l.last.toNat < t.toNat) →
       (c.transfer t).loops = (({ c with loops := ls } : Core).transfer t).loops) ∧
     (c.loops = l :: ls → l.first.toNat ≤ t.toNat → t.toNat ≤ l.last.toNat → (c.transfer t).loops = c.loops) ∧
     (c.loops = [] → (c.transfer t).loops = []))

/-- 05 R122, R123: REPF opens a frame in capture and moves on; it stalls while the sequencer holds an earlier frame, and takes
RESOURCE_OVERRUN where the block, prefixed pairs counting as one instruction, ends beyond the innermost loop; a word of the
block that must be fetched to tell stalls it while its page is on demand. That a capture holds the rounding mode of its issue
is the model's choice (log 17). 05 R122, R124: the course of a frame. Captured instructions execute as pass 0; then a frame
of vector instructions alone feeds its passes while the core goes on, and any other replays them, its pc standing still,
until the last pass. 05 R122, R125: what a core issues while a scalar frame replays or a macro runs: the captured instruction
with its register fields moved on by pass × stagger modulo 32 and its modifier again, or the macro's next operation; neither
is fetched. -/
def Obligations.RepeatFramesReplay : Prop :=
  (∀ (s : State) (c : Core) (n : BitVec 4) (k : BitVec 6) (sd sa sb : BitVec 4), IssuesPlain s c → c.ops = [] →
     let fits (l : LoopRec) := blockFits s s.cur l.last.toNat (n.toNat + 1) (c.pc + 4)
     (c.frame = none → (∀ l ls, c.loops = l :: ls → fits l = .ok true) → exec (.repf n k sd sa sb) s = .next (s.setCore s.cur
       ((({ c with frame := some { addr := c.pc, n := n.toNat + 1, count := k.toNat + 1, sd := sd.toNat, sa := sa.toNat,
                                   sb := sb.toNat, captured := [], pass := 0, pos := 0, feeding := false } } : Core).fall
         c.pc).settled (s.now + 1)))) ∧
     (∀ l ls, c.frame = none → c.loops = l :: ls → fits l = .ok false → exec (.repf n k sd sa sb) s =
       .next (s.takeTrap s.cur { cause := 0x02, t0 := 5, t1 := c.pc, t2 := 2, t3 := 0 } c.pc)) ∧
     (∀ l ls page st, c.frame = none → c.loops = l :: ls → fits l = .error (page, st) → exec (.repf n k sd sa sb) s =
       .next ((s.requestFrom (dieOf s.cur) (c.ctx.getD 0) page st).hold s.cur (.repf n k sd sa sb) .stall)) ∧
     (∀ (last m : Nat) (pc w : Word), blockFits s s.cur last 0 pc = .ok (decide (pc.toNat ≤ last + 4)) ∧
       (pc.toNat ≤ last → fetchAt s s.cur pc = .word w →
         blockFits s s.cur last (m + 1) pc = blockFits s s.cur last m (if w.toNat / 2 ^ 26 = 0x3E then pc + 8 else pc + 4))) ∧
     (c.frame ≠ none → exec (.repf n k sd sa sb) s = .next (s.setCore s.cur
       { c with wait := .stall, held := some (.repf n k sd sa sb), readyAt := s.now + 1 }))) ∧
  (∀ (c : Core) (f : Frame) (now : Nat) (i : Instr), c.ops = [] → c.frame = some f → f.feeding = false →
     let cap := f.captured ++ [{ md := c.md, instr := i, rmode := roundingOf c.rmode }]
     let k := c.finish now i .next
     (f.pass = 0 → cap.length < f.n → k.frame = some { f with captured := cap } ∧ k.pc = (c.fall c.pc).pc) ∧
     (f.pass = 0 → f.n ≤ cap.length → f.count ≤ 1 → k.frame = none ∧ k.pc = (c.fall c.pc).pc) ∧
     (f.pass = 0 → f.n ≤ cap.length → 1 < f.count → (∀ e ∈ cap, isVector e.instr = true) →
       k.frame = some { f with captured := cap, pass := 1, pos := 0, feeding := true } ∧ k.pc = (c.fall c.pc).pc) ∧
     (f.pass = 0 → f.n ≤ cap.length → 1 < f.count → (∃ e ∈ cap, isVector e.instr = false) →
       k.frame = some { f with captured := cap, pass := 1, pos := 0 } ∧ k.pc = c.pc) ∧
     (f.pass ≠ 0 → f.pos + 1 < f.n → k.frame = some { f with pos := f.pos + 1 } ∧ k.pc = c.pc) ∧
     (f.pass ≠ 0 → f.n ≤ f.pos + 1 → f.pass + 1 < f.count →
       k.frame = some { f with pos := 0, pass := f.pass + 1 } ∧ k.pc = c.pc) ∧
     (f.pass ≠ 0 → f.n ≤ f.pos + 1 → f.count ≤ f.pass + 1 → k.frame = none ∧ k.pc = (c.fall c.pc).pc)) ∧
  (∀ (s : State) (id : Nat) (c : Core) (f : Frame) (e : Captured) (md : Option Modifier) (i : Instr)
     (rest : List (Option Modifier × Instr)), s.core id = c → c.held = none →
     (c.ops = [] → c.frame = some f → f.pass ≠ 0 → f.feeding = false → f.captured[f.pos]? = some e →
       turnOf s id = .run
         (shiftRegs (BitVec.ofNat 5 (f.pass * f.sd)) (BitVec.ofNat 5 (f.pass * f.sa)) (BitVec.ofNat 5 (f.pass * f.sb)) e.instr)
         (({ s with cur := id } : State).setCore id { c with md := e.md, mdAt := c.pc })) ∧
     (c.ops = (md, i) :: rest →
       turnOf s id = .run i (({ s with cur := id } : State).setCore id { c with md := md, mdAt := c.pc })) ∧
     ∀ (d a b dd da db : BitVec 5) (m : BitVec 3) (im : BitVec 16),
       shiftRegs dd da db (.add d a b) = .add (d + dd) (a + da) (b + db) ∧
       shiftRegs dd da db (.addi d a im) = .addi (d + dd) (a + da) im ∧
       shiftRegs dd da db (.clz d a) = .clz (d + dd) (a + da) ∧
       shiftRegs dd da db (.vfma d a b m) = .vfma (d + dd) (a + da) (b + db) m ∧
       shiftRegs dd da db (.vrcp d a m) = .vrcp (d + dd) (a + da) m)

/-- 05 R125, R126: MCALL hands the macro's operations, their marked fields replaced, to the core, which issues them from the
second cycle on, its pc at the MCALL until the last; a macro the kernel does not define has none; the limits of the kernel
are checked before any operation issues. 04 R94 to R96, R98: a modifier word before an arithmetic word prefixes it, in the
same cycle; before any other word, or as the last word of a loop's body, it takes ILLEGAL_INSTRUCTION reason 5 at its own
address, with both words. -/
def Obligations.MacrosAndPrefixes : Prop :=
  (∀ (s : State) (c : Core) (m : BitVec 6) (p q r t : BitVec 5) (l : Launch) (base : Nat) (ms : MacroSet)
     (ops : List (Option Modifier × Instr)), IssuesPlain s c → c.single →
     let cl := s.cluster (clusterOf s.cur)
     let words := look [] m.toNat ms.ops
     let first := base + macroStart ms m.toNat
     (c.resMacros.toNat ≤ m.toNat → exec (.mcall m p q r t) s = .next (s.takeTrap s.cur
       { cause := 0x02, t0 := 4, t1 := m.zeroExtend 32, t2 := c.resMacros, t3 := 0 } c.pc)) ∧
     (m.toNat < c.resMacros.toNat → s.launchOf c = some l → macroSet cl (c.ctx.getD 0) l.record.kernel = some (base, ms) →
       (∀ b ∈ cl.slotsBad, b < first ∨ first + words.length ≤ b) → expand (macroParam p q r t) none words = .ok ops →
       (∀ o ∈ ops, ∀ v ∈ vregsNamed o.2, v.toNat < c.resVregs.toNat) → ops ≠ [] →
       exec (.mcall m p q r t) s = .next (s.setCore s.cur { (c.settled (s.now + 2)) with ops := ops })) ∧
     (m.toNat < c.resMacros.toNat → s.launchOf c = some l → macroSet cl (c.ctx.getD 0) l.record.kernel = none →
       exec (.mcall m p q r t) s = .next (s.setCore s.cur ((c.fall c.pc).settled (s.now + 1)))) ∧
     ∀ (k : Core) (o : Option Modifier × Instr) (rest : List (Option Modifier × Instr)) (now : Nat) (i : Instr),
       (k.ops = o :: rest → rest ≠ [] → (k.finish now i .next).pc = k.pc ∧ (k.finish now i .next).ops = rest) ∧
       (k.ops = [o] → (k.finish now i .next).pc = (k.fall k.pc).pc ∧ (k.finish now i .next).ops = [])) ∧
  (∀ (s : State) (c : Core) (n a : BitVec 1) (k : BitVec 2) (st e : BitVec 1) (x : BitVec 6) (w : Word) (i : Instr),
     IssuesPlain s c → fetchAt s s.cur (c.pc + 4) = .word w →
     let m : Modifier := { neg := n == 1, abs := a == 1, clamp := k, sat := st == 1, scen := e == 1,
                           scale := if e = 1 then x.toInt else 0 }
     let looping := ∃ l ∈ c.loops, l.last = c.pc
     (arithWord w = true → ¬looping → decodeWord w = .ok i →
       exec (.modifierWord n a k st e x) s =
         .next (s.setCore s.cur { c with md := some m, mdAt := c.pc, pc := c.pc + 4 })) ∧
     (arithWord w = false ∨ looping →
       exec (.modifierWord n a k st e x) s = .next (s.takeTrap s.cur
         { cause := 0x01, t0 := w, t1 := modifierBits m, t2 := 5, t3 := 0 } c.pc)) ∧
     (decodeWord w = .ok i → (arithWord w = true ↔ isArith i = true)))

/-- 05 R104, R117; 08 R208: each load reads its bytes at g[base] + offset, little-endian, extends them, and lands 3 cycles after
its issue; its word goes through the banks, and each replay cycle of its access puts its landing, and that of no other write,
off by one. 05 R117; 08 R208: each store writes the low bytes of g[d], little-endian, at g[base] + offset when it issues, and
no other byte of any memory; no register changes. 05 R117, R118, R128; 21 R445: the traps of a scalar access, in their order,
and its stall behind earlier vector accesses and while the replay queue is full (08 R208). An uncorrectable word is met once;
that a store meets it as a load does is the model's reading (log 95). -/
def Obligations.ScalarMemoryAccesses : Prop :=
  (∀ (s : State) (c : Core) (d b : BitVec 5) (o : BitVec 13), IssuesPlain s c → c.accessStalls = false →
     let a := (c.readG b + o.signExtend 32).toNat
     let panel := panelReads s s.cur s.now
     let byte (i : Nat) : Nat := (readByte c.mem (a + i)).toNat
     ∀ p ∈ [
       (Instr.ldB d b o, 1, (BitVec.ofNat 8 (byte 0)).signExtend 32),
       (.ldBu d b o, 1, BitVec.ofNat 32 (byte 0)),
       (.ldH d b o, 2, (BitVec.ofNat 16 (byte 0 + 256 * byte 1)).signExtend 32),
       (.ldHu d b o, 2, BitVec.ofNat 32 (byte 0 + 256 * byte 1)),
       (.ldW d b o, 4, BitVec.ofNat 32 (byte 0 + 256 * byte 1 + 65536 * byte 2 + 16777216 * byte 3))],
     a < 0x8000 → a < c.resLocal.toNat → a % p.2.1 = 0 → (∀ w ∈ c.memBad, a + p.2.1 ≤ 4 * w ∨ 4 * w + 4 ≤ a) →
     exec p.1 s = .next (s.completed
       (({ c with pend := c.pend ++ [{ reg := d, value := p.2.2, landAt := s.now + 3, load := some s.now }] } : Core).access s.now
         panel [a / 4] c.serial true none) p.1 .next) ∧
     ∀ (k : Core) (before after : List Pend) (e : BitVec 5) (t stamp : Nat) (v : Word),
       k.pend = before ++ [{ reg := e, value := v, landAt := t, load := some s.now }] ++ after →
       (∀ q ∈ before ++ after, q.load ≠ some s.now) →
       (k.replayOnce { words := [a / 4], since := s.now, stamp := stamp, load := true, lane := none }).pend =
         before ++ [{ reg := e, value := v, landAt := t + 1, load := some s.now }] ++ after) ∧
  (∀ (s : State) (c : Core) (d b : BitVec 5) (o : BitVec 13), IssuesPlain s c → c.single → c.accessStalls = false →
     let a := (c.readG b + o.signExtend 32).toNat
     ∀ p ∈ [(Instr.stB d b o, 1), (.stH d b o, 2), (.stW d b o, 4)],
     a < 0x8000 → a < c.resLocal.toNat → a % p.2 = 0 → c.locked a p.2 = false → a / 4 ∉ c.memBad → memWf c.mem = true →
     ∃ t, exec p.1 s = .next t ∧ ∃ m, t = s.completed
         ((c.store a m).access s.now (panelReads s s.cur s.now) [a / 4] c.serial false none) p.1 .next ∧
       m.length = p.2 ∧
       (∀ i < p.2, readByte (t.core s.cur).mem (a + i) = BitVec.ofNat 8 ((c.readG d).toNat / 256 ^ i)) ∧
       (∀ x, x < a ∨ a + p.2 ≤ x → readByte (t.core s.cur).mem x = readByte c.mem x) ∧
       (∀ x, readByte t.hbm x = readByte s.hbm x) ∧ (∀ x, readByte t.hostMem x = readByte s.hostMem x) ∧
       (∀ r, (t.core s.cur).readG r = c.readG r) ∧ (t.core s.cur).v = c.v ∧ (t.core s.cur).a = c.a ∧
       (t.core s.cur).m = c.m ∧ (t.core s.cur).z = c.z ∧ (t.core s.cur).fpflags = c.fpflags ∧ ∀ k, k ≠ s.cur → t.core k = s.core k) ∧
  (∀ (s : State) (c : Core) (d b : BitVec 5) (o : BitVec 13), IssuesPlain s c →
     let w := c.readG b + o.signExtend 32
     ∀ p ∈ [(Instr.ldB d b o, 1), (.ldBu d b o, 1), (.ldH d b o, 2), (.ldHu d b o, 2), (.ldW d b o, 4), (.stB d b o, 1),
       (.stH d b o, 2), (.stW d b o, 4)],
     (c.accessStalls = true → exec p.1 s = .next (s.setCore s.cur
       { c with wait := .stall, held := some p.1, readyAt := s.now + 1 })) ∧
     (c.accessStalls = false → 0x8000 ≤ w.toNat →
       exec p.1 s = .next (s.takeTrap s.cur { cause := 0x06, t0 := w, t1 := 2, t2 := 0, t3 := 0 } c.pc)) ∧
     (c.accessStalls = false → w.toNat < 0x8000 → c.resLocal.toNat ≤ w.toNat →
       exec p.1 s = .next (s.takeTrap s.cur { cause := 0x02, t0 := 3, t1 := w, t2 := c.resLocal, t3 := 0 } c.pc)) ∧
     (c.accessStalls = false → w.toNat < 0x8000 → w.toNat < c.resLocal.toNat → w.toNat % p.2 ≠ 0 →
       exec p.1 s = .next (s.takeTrap s.cur { cause := 0x03, t0 := w, t1 := BitVec.ofNat 32 p.2, t2 := 0, t3 := 0 } c.pc)) ∧
     (c.accessStalls = false → w.toNat < 0x8000 → w.toNat < c.resLocal.toNat → w.toNat % p.2 = 0 → w.toNat / 4 ∈ c.memBad →
       (c.locked w.toNat p.2 = false ∨ p.1 ∈ [.ldB d b o, .ldBu d b o, .ldH d b o, .ldHu d b o, .ldW d b o]) →
       exec p.1 s = .next ((s.setCore s.cur { c with memBad := c.memBad.filter (· != w.toNat / 4) }).takeTrap s.cur
         { cause := 0x0B, t0 := w, t1 := 6, t2 := 0, t3 := 0 } c.pc)))

/-- 08 R198; 00 R4: the checks of a path in their order, and the Morton order of elements. 08 R203: what each path instruction
writes when its source path is well-formed, the record cached; 1 cycle later. 08 R196, R198, R203: a path instruction whose
path fails a check, or that has no result, takes MALFORMED_PATH with the reason and the path examined and writes nothing; one
whose record is not cached asks for it and stalls. A fetch of the record that meets an uncorrectable word takes
DATA_INTEGRITY, whose TINFO is the model's choice (log 94). -/
def Obligations.PathInstructions : Prop :=
  ((∀ (s : State) (x : Nat) (p : Path) (t : Tree),
     let h := bitsOf p.toNat 56 8
     let d := bitsOf p.toNat 51 5
     let m := bitsOf p.toNat 0 48
     (treeAt s x h = none → checkPath s x p = .error 1) ∧
     (treeAt s x h = some t → bitsOf p.toNat 48 3 ≠ 0 → checkPath s x p = .error 2) ∧
     (treeAt s x h = some t → bitsOf p.toNat 48 3 = 0 → t.depth < d → checkPath s x p = .error 3) ∧
     (treeAt s x h = some t → bitsOf p.toNat 48 3 = 0 → d ≤ t.depth → 4 ^ t.depth ≤ m → checkPath s x p = .error 4) ∧
     (treeAt s x h = some t → bitsOf p.toNat 48 3 = 0 → d ≤ t.depth → m < 4 ^ t.depth → m % 4 ^ (t.depth - d) ≠ 0 →
       checkPath s x p = .error 5) ∧
     (treeAt s x h = some t → bitsOf p.toNat 48 3 = 0 → d ≤ t.depth → m < 4 ^ t.depth → m % 4 ^ (t.depth - d) = 0 →
       checkPath s x p = .ok t)) ∧
   ∀ r c : Nat, r < 2 ^ 24 → c < 2 ^ 24 → mortonRow (morton r c) = r ∧ mortonCol (morton r c) = c ∧ morton r c < 4 ^ 24 ∧
     ∀ i < 24, (morton r c).testBit (2 * i) = c.testBit i ∧ (morton r c).testBit (2 * i + 1) = r.testBit i) ∧
  (∀ (s : State) (c : Core) (d a : BitVec 3) (g r : BitVec 5) (e : BitVec 5) (t : Tree), IssuesPlain s c →
     let x := c.ctx.getD 0
     let p := c.readA a
     let h := bitsOf p.toNat 56 8
     let n := bitsOf p.toNat 51 5
     let m := bitsOf p.toNat 0 48
     let triple (h d m : Nat) : Path := BitVec.ofNat 64 (h * 2 ^ 56 + d * 2 ^ 51 + m)
     let writes (i : Instr) (v : Path) := exec i s = .next (s.completed (c.writeA d v) i .next)
     let lands (i : Instr) (v : Word) := exec i s = .next (s.completed (c.landG s.now e v) i .next)
     (∀ h', h' = (c.readG g).toNat % 256 → (x, h') ∈ (s.cluster (clusterOf s.cur)).cached → treeAt s x h' = some t →
       (c.readG r).toNat % 32 ≤ t.depth → writes (.pset d g r) (triple h' ((c.readG r).toNat % 32) 0)) ∧
     ((x, h) ∈ (s.cluster (clusterOf s.cur)).cached → checkPath s x p = .ok t →
       (n < t.depth → writes (.pchild d a g)
         (triple h (n + 1) (m + (c.readG g).toNat % 4 * 4 ^ (t.depth - n - 1)))) ∧
       (0 < n → writes (.pparent d a) (triple h (n - 1) (m - m % 4 ^ (t.depth - n + 1)))) ∧
       (m + 4 ^ (t.depth - n) < 4 ^ t.depth → writes (.pnext d a) (triple h n (m + 4 ^ (t.depth - n)))) ∧
       ((c.readG g).toNat % 32 ≤ n → writes (.ptrunc d a g)
         (triple h ((c.readG g).toNat % 32) (m - m % 4 ^ (t.depth - (c.readG g).toNat % 32)))) ∧
       (d = a → (c.readG g).toNat < 2 ^ t.depth → (c.readG r).toNat < 2 ^ t.depth →
         morton (c.readG g).toNat (c.readG r).toNat % 4 ^ (t.depth - n) = 0 →
         writes (.pmort d g r) (triple h n (morton (c.readG g).toNat (c.readG r).toNat))) ∧
       lands (.prow e a) (BitVec.ofNat 32 (mortonRow m)) ∧ lands (.pcol e a) (BitVec.ofNat 32 (mortonCol m)) ∧
       lands (.pdepth e a) (BitVec.ofNat 32 n)) ∧
     lands (.pgetlo e a) (p.setWidth 32) ∧ lands (.pgethi e a) ((p >>> 32).setWidth 32) ∧
     writes (.psetlo d g) ((c.readA d &&& 0xFFFFFFFF00000000) ||| (c.readG g).setWidth 64) ∧
     writes (.psethi d g) ((c.readA d &&& 0xFFFFFFFF) ||| ((c.readG g).setWidth 64 <<< 32))) ∧
  (∀ (s : State) (c : Core) (d a : BitVec 3) (g r e : BitVec 5) (t : Tree) (reason : Nat), IssuesPlain s c →
     let x := c.ctx.getD 0
     let p := c.readA a
     let n := bitsOf p.toNat 51 5
     let traps (i : Instr) (reason : Nat) := exec i s = .next (s.takeTrap s.cur
       { cause := 0x04, t0 := BitVec.ofNat 32 reason, t1 := p.setWidth 32, t2 := (p >>> 32).setWidth 32, t3 := 0 } c.pc)
     let all := [Instr.pchild d a g, .pparent d a, .pnext d a, .ptrunc d a g, .pmort a g r, .prow e a, .pcol e a, .pdepth e a]
     ((x, bitsOf p.toNat 56 8) ∈ (s.cluster (clusterOf s.cur)).cached →
       (checkPath s x p = .error reason → ∀ i ∈ all, traps i reason) ∧
       (checkPath s x p = .ok t →
         (n = t.depth → traps (.pchild d a g) 6) ∧ (n = 0 → traps (.pparent d a) 6) ∧
         (4 ^ t.depth ≤ bitsOf p.toNat 0 48 + 4 ^ (t.depth - n) → traps (.pnext d a) 6) ∧
         (n < (c.readG g).toNat % 32 → traps (.ptrunc d a g) 6))) ∧
     ((x, bitsOf p.toNat 56 8) ∉ (s.cluster (clusterOf s.cur)).cached → .treeCache (clusterOf s.cur) ∉ s.marks →
       ∀ i ∈ all, ∃ q, exec i s = .next q ∧ (x, bitsOf p.toNat 56 8) ∈ (q.cluster (clusterOf s.cur)).fills ∧
       q.core s.cur = { c with wait := .stall, held := some i, readyAt := s.now + 1 }) ∧
     ((x, bitsOf p.toNat 56 8) ∉ (s.cluster (clusterOf s.cur)).cached → .treeCache (clusterOf s.cur) ∈ s.marks →
       ∀ i ∈ all, exec i s = .next (({ s with marks := s.marks.erase (.treeCache (clusterOf s.cur)) } : State).takeTrap s.cur
         { cause := 0x0B, t0 := BitVec.ofNat 32 (bitsOf p.toNat 56 8), t1 := 0, t2 := 0, t3 := 0 } c.pc)))

/-- 06 R143: a vector instruction issues into the vector queue in one cycle, taking its modifier, the rounding mode and the
scalar register it reads; nothing else of the module changes. 05 R124, R128, R129; 06 R143: a vector instruction stalls while
the queue is full or a frame feeds, and one that names a register at or above RES_VREGS traps at issue and queues nothing.
That the destination is reported where it and a source are both beyond is the model's choice (log 22). 05 R107; 06 R145,
R154: VMOVS waits until its register's last writer has completed, then takes the lane. -/
def Obligations.VectorIssue : Prop :=
  (∀ (s : State) (c : Core) (d a b : BitVec 5) (x y z : BitVec 3) (m : BitVec 3) (w j : BitVec 2) (q : BitVec 1),
     c.vectorStall = false →
     let g := c.readG a
     ∀ p ∈ [
       (Instr.vadd d a b m, (0 : Word)), (.vsub d a b m, 0), (.vmul d a b m, 0), (.vfma d a b m, 0), (.vfms d a b m, 0),
       (.vfnma d a b m, 0), (.vmin d a b m, 0), (.vmax d a b m, 0), (.vaddBf d a b m, 0), (.vsubBf d a b m, 0),
       (.vmulBf d a b m, 0), (.vfmaBf d a b m, 0), (.vfmsBf d a b m, 0), (.vfnmaBf d a b m, 0), (.vminBf d a b m, 0),
       (.vmaxBf d a b m, 0), (.viadd d a b m w, 0), (.visub d a b m w, 0), (.vimul d a b m w, 0), (.vimulh d a b m w, 0),
       (.vand d a b m w, 0), (.vor d a b m w, 0), (.vxor d a b m w, 0), (.vshl d a b m w, 0), (.vshr d a b m w, 0),
       (.vsra d a b m w, 0), (.vimin d a b m w, 0), (.vimax d a b m w, 0), (.vcmpeq x a b m, 0), (.vcmpne x a b m, 0),
       (.vcmplt x a b m, 0), (.vcmple x a b m, 0), (.vicmpeq x a b m, 0), (.vicmplt x a b m, 0), (.vicmpltu x a b m, 0),
       (.vsel d a b m, 0), (.vperm d a b m, 0), (.vbcast d a m, g), (.vins d a x, g), (.vmand x y z, 0), (.vmor x y z, 0),
       (.vmnot x y, 0), (.vredadd d a m, 0), (.vredmax d a m, 0), (.vredmin d a m, 0), (.vrediadd d a m, 0), (.vmov d a m, 0),
       (.vcvtfb d a b m, 0), (.vcvtbf d a q m, 0), (.vcvtfh d a b m, 0), (.vcvthf d a q m, 0), (.vcvtfi d a m, 0),
       (.vcvtif d a m, 0), (.vfxdec d a j, 0), (.vexp2 d a m, 0), (.vlog2 d a m, 0), (.vrcp d a m, 0), (.vrsq d a m, 0),
       (.vtanh d a m, 0)],
     Takes s c p.1 → (∀ r ∈ vregsNamed p.1, r.toNat < c.resVregs.toNat) →
     exec p.1 s = .next (s.completed (c.queued s p.1 fun e => { e with scalar := p.2 }) p.1 .next)) ∧
  (∀ (s : State) (c : Core) (d a b : BitVec 5) (m : BitVec 3), IssuesPlain s c →
     ∀ i ∈ [Instr.vadd d a b m, .vfmaBf d a b m, .viadd d a b m 0, .vsel d a b m, .vmov d a m, .vfxdec d a 0, .vfxenc d a,
       .vexp2 d a m, .vld d a 0, .vsts d a 8, .vbcast d a m],
     (16 ≤ c.vq.length → exec i s = .next (s.setCore s.cur { c with wait := .stall, held := some i, readyAt := s.now + 1 })) ∧
     (c.vq.length < 16 → c.feeds = false → c.resVregs.toNat ≤ d.toNat →
       exec i s = .next (s.takeTrap s.cur
         { cause := 0x02, t0 := 1, t1 := d.zeroExtend 32, t2 := c.resVregs, t3 := 0 } c.pc))) ∧
  (∀ (s : State) (c : Core) (d a : BitVec 5) (n : BitVec 3), IssuesPlain s c → a.toNat < c.resVregs.toNat →
     (c.pendingV a = false → exec (.vmovs d a n) s =
       .next (s.completed (c.landG s.now d ((c.readV a).extractLsb' (32 * n.toNat) 32)) (.vmovs d a n) .next)) ∧
     (c.pendingV a = true → exec (.vmovs d a n) s = .next (s.setCore s.cur
       { c with wait := .stall, held := some (.vmovs d a n), readyAt := s.now + 1 })))

/-- 06 R142, R145, R151; 02 R32: what the FP32 and BF16 arithmetic instructions have written once they complete, element by
element: an element whose lane is not enabled keeps its value, and no other register changes. The exact value passes the
modifier's stages and is rounded once to FP32, or through FP32 to BF16; the flags of the enabled elements are ORed. 02 R26,
R27, R29, R30, R32, R54: what rounding to FP32, BF16 and FP16 is. With 2^ebits − 1 and above standing for infinity, the
nearest code is chosen, the even one of two; the directed modes take the next code toward zero or away from it; a magnitude
past the bound of its mode gives the infinity or, toward zero, the largest number; NX, OF and UF say how the result differs
from the exact value, where UF of a result that rounds to zero is the model's choice (log 79). Subnormals are numbers like
others. 02 R28, R32 to R35, R54; 06 R151: the exact value of each operation, with its NaN, its infinities and NV, before the
one rounding: sums, products and fused sums are those of the exact numbers, a zero sum having the sign of log 12; then a BF16
result is rounded through FP32; then come the sign stages and the clamp. -/
def Obligations.FloatVectorResults : Prop :=
  (∀ (c : Core) (e : VEntry) (d a b : BitVec 5) (m : BitVec 3) (t : Nat),
     let after (i : Instr) : Core := c.land (flyOf { e with instr := i } (vectorEffect c { e with instr := i }) t)
     let on (n : Nat) : Bool := m == 0 || (c.readM m).getLsbD n
     let r := e.rmode
     (∀ n < 8,
       let x := value32 (elem 32 (c.readV a) n)
       let y := value32 (elem 32 (c.readV b) n)
       let z := value32 (elem 32 (c.readV d) n)
       ∀ p ∈ [(Instr.vadd d a b m, fAdd r x y), (.vsub d a b m, fAdd r x y.negate), (.vmul d a b m, fMul x y),
         (.vfma d a b m, fFma r false false x y z), (.vfms d a b m, fFma r false true x y z),
         (.vfnma d a b m, fFma r true false x y z), (.vmin d a b m, fMin x y), (.vmax d a b m, fMax x y)],
         elem 32 ((after p.1).readV d) n = (if on n then (deliver32 e.md r p.2.1).1 else elem 32 (c.readV d) n) ∧
         ∀ v, v ≠ d → (after p.1).readV v = c.readV v) ∧
     (∀ n < 16,
       let x := valueBF (elem 16 (c.readV a) n)
       let y := valueBF (elem 16 (c.readV b) n)
       let z := valueBF (elem 16 (c.readV d) n)
       ∀ p ∈ [(Instr.vaddBf d a b m, fAdd r x y), (.vsubBf d a b m, fAdd r x y.negate), (.vmulBf d a b m, fMul x y),
         (.vfmaBf d a b m, fFma r false false x y z), (.vfmsBf d a b m, fFma r false true x y z),
         (.vfnmaBf d a b m, fFma r true false x y z), (.vminBf d a b m, fMin x y), (.vmaxBf d a b m, fMax x y)],
         elem 16 ((after p.1).readV d) n = (if on (n / 2) then (deliverBF e.md r p.2.1).1 else elem 16 (c.readV d) n) ∧
         ∀ v, v ≠ d → (after p.1).readV v = c.readV v) ∧
     let x (n : Nat) := value32 (elem 32 (c.readV a) n)
     let y (n : Nat) := value32 (elem 32 (c.readV b) n)
     let z (n : Nat) := value32 (elem 32 (c.readV d) n)
     let x' (n : Nat) := valueBF (elem 16 (c.readV a) n)
     let y' (n : Nat) := valueBF (elem 16 (c.readV b) n)
     let z' (n : Nat) := valueBF (elem 16 (c.readV d) n)
     let raised (flags : List Flags) (i : Instr) : Prop := (after i).fpflags = c.fpflags ||| (flags.foldl (· ||| ·) 0).zeroExtend 32
     (∀ p ∈ [(Instr.vadd d a b m, fun n => fAdd r (x n) (y n)), (.vsub d a b m, fun n => fAdd r (x n) (y n).negate),
       (.vmul d a b m, fun n => fMul (x n) (y n)), (.vfma d a b m, fun n => fFma r false false (x n) (y n) (z n)),
       (.vfms d a b m, fun n => fFma r false true (x n) (y n) (z n)), (.vfnma d a b m, fun n => fFma r true false (x n) (y n) (z n)),
       (.vmin d a b m, fun n => fMin (x n) (y n)), (.vmax d a b m, fun n => fMax (x n) (y n))],
       raised ((List.range 8).map fun n => if on n then (p.2 n).2 ||| (deliver32 e.md r (p.2 n).1).2 else 0) p.1) ∧
     (∀ p ∈ [(Instr.vaddBf d a b m, fun n => fAdd r (x' n) (y' n)), (.vsubBf d a b m, fun n => fAdd r (x' n) (y' n).negate),
       (.vmulBf d a b m, fun n => fMul (x' n) (y' n)), (.vfmaBf d a b m, fun n => fFma r false false (x' n) (y' n) (z' n)),
       (.vfmsBf d a b m, fun n => fFma r false true (x' n) (y' n) (z' n)),
       (.vfnmaBf d a b m, fun n => fFma r true false (x' n) (y' n) (z' n)),
       (.vminBf d a b m, fun n => fMin (x' n) (y' n)), (.vmaxBf d a b m, fun n => fMax (x' n) (y' n))],
       raised ((List.range 16).map fun n => if on (n / 2) then (p.2 n).2 ||| (deliverBF e.md r (p.2 n).1).2 else 0) p.1)) ∧
  (let at' (k : Nat) (q : Int) : ℚ := (k : ℚ) * (2 : ℚ) ^ q
   let val (f : FloatFmt) (c : Nat) : ℚ :=
     if c < 2 ^ f.mbits then at' c (1 - f.bias - f.mbits)
     else at' (2 ^ f.mbits + c % 2 ^ f.mbits) ((c / 2 ^ f.mbits : Nat) - f.bias - f.mbits)
   (∀ p ∈ [(fmtF32, 8, 23, 127), (fmtBF16, 8, 7, 127), (fmtF16, 5, 10, 15)], p.1 = ⟨p.2.1, p.2.2.1, p.2.2.2⟩) ∧
   (∀ f ∈ [fmtF32, fmtBF16, fmtF16], ∀ (mode : Rounding) (neg : Bool) (m : Nat) (e : Int),
     let x := at' m e
     let top := (2 ^ f.ebits - 1) * 2 ^ f.mbits
     let r := roundFin f mode neg m e
     let least := val f (2 ^ f.mbits)
     let away : Bool := (mode == .up && !neg) || (mode == .down && neg)
     let past : Bool :=
       if mode = .nearestEven then decide (val f (top - 1) + val f top ≤ 2 * x)
       else if away then decide (val f (top - 1) < x) else decide (val f top ≤ x)
     let tiny : Bool :=
       if mode = .nearestEven then decide (x < least - at' 1 (-1 - f.bias - f.mbits))
       else if away then decide (x ≤ least - at' 1 (-f.bias - f.mbits)) else decide (x < least)
     let inexact : Bool := past || decide (val f r.1 ≠ x)
     (mode = .nearestEven → past = true → r.1 = top) ∧
     (mode = .nearestEven → past = false → r.1 < top ∧ ∀ c < top, |x - val f r.1| ≤ |x - val f c| ∧
       (c ≠ r.1 → |x - val f r.1| = |x - val f c| → r.1 % 2 = 0)) ∧
     (away = true → past = true → r.1 = top) ∧
     (away = true → past = false → r.1 < top ∧ x ≤ val f r.1 ∧ ∀ c < top, x ≤ val f c → val f r.1 ≤ val f c) ∧
     (mode ≠ .nearestEven → away = false → r.1 < top ∧ val f r.1 ≤ x ∧ ∀ c < top, val f c ≤ x → val f c ≤ val f r.1) ∧
     r.2 = (if past then 4 else 0) ||| (if inexact then 1 else 0) ||| (if inexact && tiny then 2 else 0)) ∧
   (∀ (mode : Rounding) (n : Bool) (m : Nat) (e : Int) (b : Word) (sig : Bool),
     round32 mode (.fin n m e) =
       (BitVec.ofBool n ++ BitVec.ofNat 31 (roundFin fmtF32 mode n m e).1, (roundFin fmtF32 mode n m e).2) ∧
     roundBF mode (.fin n m e) =
       (BitVec.ofBool n ++ BitVec.ofNat 15 (roundFin fmtBF16 mode n m e).1, (roundFin fmtBF16 mode n m e).2) ∧
     roundF16 mode (.fin n m e) =
       (BitVec.ofBool n ++ BitVec.ofNat 15 (roundFin fmtF16 mode n m e).1, (roundFin fmtF16 mode n m e).2) ∧
     round32 mode (.inf n) = (BitVec.ofBool n ++ 0x7F800000#31, 0) ∧ roundBF mode (.inf n) = (BitVec.ofBool n ++ 0x7F80#15, 0) ∧
     roundF16 mode (.inf n) = (BitVec.ofBool n ++ 0x7C00#15, 0) ∧ round32 mode (.nan b sig) = (b, if sig then 0x10 else 0) ∧
     roundBF mode (.nan b sig) = (b.extractLsb' 16 16, if sig then 0x10 else 0) ∧
     roundF16 mode (.nan b sig) = (BitVec.ofBool (b.getLsbD 31) ++ 31#5 ++ b.extractLsb' 13 10, if sig then 0x10 else 0)) ∧
   (∀ (w : Word) (h : BitVec 16),
     (w.extractLsb' 23 8 ≠ 255 → ∃ k q, value32 w = .fin (w.getLsbD 31) k q ∧ at' k q = val fmtF32 (w.setWidth 31).toNat) ∧
     (w.extractLsb' 23 8 = 255 → value32 w = if w.extractLsb' 0 23 = 0 then .inf (w.getLsbD 31)
       else .nan (w ||| 0x00400000) (!w.getLsbD 22)) ∧
     valueBF h = value32 (h ++ 0#16) ∧
     (h.extractLsb' 10 5 ≠ 31 → ∃ k q, valueF16 h = .fin (h.getLsbD 15) k q ∧ at' k q = val fmtF16 (h.setWidth 15).toNat) ∧
     (h.extractLsb' 10 5 = 31 → valueF16 h = if h.extractLsb' 0 10 = 0 then .inf (h.getLsbD 15)
       else .nan (BitVec.ofBool (h.getLsbD 15) ++ 255#8 ++ 1#1 ++ h.extractLsb' 0 9 ++ 0#13) (!h.getLsbD 9)))) ∧
  (let q (n : Bool) (m : Nat) (e : Int) : ℚ := (if n then -1 else 1) * (m : ℚ) * (2 : ℚ) ^ e
   (∀ (mode : Rounding) (np nc n1 n2 n3 : Bool) (m1 m2 m3 : Nat) (e1 e2 e3 : Int),
     let a := Value.fin n1 m1 e1
     let b := Value.fin n2 m2 e2
     let c := Value.fin n3 m3 e3
     let x := q n1 m1 e1
     let y := q n2 m2 e2
     let z := q n3 m3 e3
     let s := (if np then -(x * y) else x * y) + (if nc then -z else z)
     (∃ n m e, fAdd mode a b = (.fin n m e, 0) ∧ q n m e = x + y ∧
       (x + y = 0 → n = if x = 0 ∧ n1 = n2 then n1 else mode == .down)) ∧
     (∃ m e, fMul a b = (.fin (n1 != n2) m e, 0) ∧ q (n1 != n2) m e = x * y) ∧
     (∃ n m e, fFma mode np nc a b c = (.fin n m e, 0) ∧ q n m e = s ∧
       (s = 0 → n = if x * y = 0 ∧ ((n1 != n2) != np) = (n3 != nc) then n3 != nc else mode == .down)) ∧
     fMin a b = (if y < x ∨ x = 0 ∧ y = 0 ∧ n2 = true ∧ n1 = false then b else a, 0) ∧
     fMax a b = (if x < y ∨ x = 0 ∧ y = 0 ∧ n1 = true ∧ n2 = false then b else a, 0)) ∧
   (∀ (mode : Rounding) (n1 n2 n3 s1 s2 : Bool) (m : Nat) (e : Int) (p r : Word) (v w : Value),
     fAdd mode (.inf n1) (.inf n2) = (if n1 = n2 then (.inf n1, 0) else (.nan 0x7FC00000 false, 0x10)) ∧
     fAdd mode (.inf n1) (.fin n2 m e) = (.inf n1, 0) ∧ fAdd mode (.fin n2 m e) (.inf n1) = (.inf n1, 0) ∧
     fMul (.inf n1) (.inf n2) = (.inf (n1 != n2), 0) ∧
     fMul (.inf n1) (.fin n2 m e) = (if m = 0 then (.nan 0x7FC00000 false, 0x10) else (.inf (n1 != n2), 0)) ∧
     fMul (.fin n1 m e) (.inf n2) = (if m = 0 then (.nan 0x7FC00000 false, 0x10) else (.inf (n1 != n2), 0)) ∧
     (∀ f ∈ [fAdd mode, fMul, fMin, fMax, fun x y => fFma mode n1 n2 x y w],
       (f (.nan p s1) v).1 = .nan p false ∧ (v.isNaN = false → (f v (.nan r s2)).1 = .nan r false) ∧
       ((f (.nan p s1) v).2 = 0x10 ∨ (f (.nan p s1) v).2 = 0) ∧ (s1 = true → (f (.nan p s1) v).2 = 0x10)) ∧
     (v.isNaN = false → w.isNaN = false → (fFma mode n1 n2 v w (.nan p s1)).1 = .nan p false ∧
       ((fMul v w).1.isNaN = true → (fFma mode n1 n2 v w (.nan p s1)).2 = 0x10)) ∧
     fFma mode n1 n2 (.inf n3) (.fin s1 0 e) (.fin s2 m e) = (.nan 0x7FC00000 false, 0x10)) ∧
   ∀ (mode : Rounding) (v : Value) (md : Modifier),
     let stages (w : Nat) (one top : Nat) (x y : BitVec w) : Prop :=
       let sgn := (x.getLsbD (w - 1) && !md.abs) != md.neg
       let mag := x.toNat % 2 ^ (w - 1)
       let z := BitVec.ofNat w ((if sgn then 2 ^ (w - 1) else 0) + mag)
       let i : Int := if sgn then -(mag : Int) else mag
       (top < mag ∨ md.clamp = 0 → y = z) ∧
       (mag ≤ top → md.clamp = 1 → y = if i < 0 then 0 else if (one : Int) < i then BitVec.ofNat w one else z) ∧
       (mag ≤ top → md.clamp = 2 → y = if i < -(one : Int) then BitVec.ofNat w (2 ^ (w - 1) + one)
         else if (one : Int) < i then BitVec.ofNat w one else z) ∧
       (mag ≤ top → md.clamp = 3 → y = if i < 0 then 0 else z)
     let scaled : Value := match v with
       | .fin n m e => .fin n m (e + md.scale)
       | u => u
     let r := round32 mode scaled
     let h := roundBF mode (value32 r.1)
     deliver32 none mode v = round32 mode v ∧
     deliverBF none mode v = ((roundBF mode (value32 (round32 mode v).1)).1,
       (round32 mode v).2 ||| (roundBF mode (value32 (round32 mode v).1)).2) ∧
     (deliver32 (some md) mode v).2 = r.2 ∧ stages 32 0x3F800000 0x7F800000 r.1 (deliver32 (some md) mode v).1 ∧
     (deliverBF (some md) mode v).2 = r.2 ||| h.2 ∧ stages 16 0x3F80 0x7F80 h.1 (deliverBF (some md) mode v).1)

/-- 06 R142, R152; 02 R50, R51, R53: what the integer vector instructions have written once they complete, at each of the three
widths; packed elements share their lane's mask bit and carry nothing between them, and bitwise results never saturate. -/
def Obligations.IntegerVectorResults : Prop :=
  ∀ (c : Core) (e : VEntry) (d a b : BitVec 5) (m : BitVec 3) (t : Nat),
    let after (i : Instr) : Core := c.land (flyOf { e with instr := i } (vectorEffect c { e with instr := i }) t)
    ∀ k ∈ [((0 : BitVec 2), 32), (1, 16), (2, 8)], ∀ n < 256 / k.2,
      let x := elem k.2 (c.readV a) n
      let y := elem k.2 (c.readV b) n
      let bits := e.md.map fun (k : Modifier) => { k with sat := false }
      let by' : Nat := if k.2 = 32 then y.toNat else y.toNat % 256
      ∀ p ∈ [
        (Instr.viadd d a b m k.1, e.md, true, x.toInt + y.toInt), (.visub d a b m k.1, e.md, true, x.toInt - y.toInt),
        (.vimul d a b m k.1, e.md, true, x.toInt * y.toInt), (.vimulh d a b m k.1, e.md, true, x.toInt * y.toInt / 2 ^ k.2),
        (.vand d a b m k.1, bits, true, (x &&& y).toInt), (.vor d a b m k.1, bits, true, (x ||| y).toInt),
        (.vxor d a b m k.1, bits, true, (x ^^^ y).toInt), (.vimin d a b m k.1, e.md, true, min x.toInt y.toInt),
        (.vimax d a b m k.1, e.md, true, max x.toInt y.toInt),
        (.vshl d a b m k.1, e.md, true, if k.2 ≤ by' then 0 else x.toInt * 2 ^ by'),
        (.vshr d a b m k.1, e.md, false, if k.2 ≤ by' then 0 else (x.toNat : Int) / 2 ^ by'),
        (.vsra d a b m k.1, e.md, true, if k.2 ≤ by' then (if x.toInt < 0 then -1 else 0) else x.toInt / 2 ^ by')],
      elem k.2 ((after p.1).readV d) n =
        (if m = 0 ∨ (c.readM m).getLsbD (n / (32 / k.2)) then (deliverInt p.2.1 p.2.2.1 k.2 p.2.2.2).1
         else elem k.2 (c.readV d) n) ∧
      ∀ v, v ≠ d → (after p.1).readV v = c.readV v

/-- 06 R142, R153 to R155, R157, R158: what compares, selections, moves, mask operations, conversions and special functions have
written once they complete. A mask register other than the destination does not change, nor m0. 06 R156: the reductions write
lane 0 and clear the others: the integer sum is exact before it is delivered, and the FP32 reductions combine in the fixed
tree, a lane that is not enabled counting as the identity. 02 R36, R37, R39, R41 to R43: the values of the narrow formats,
their decoding to FP32 under a block scale, and their encoding: the nearest value of the format, ties to even, then the
clamp, with the flags CLAMP, NX and NANBLK. FP16 has no scale, and its clamp holds for finite values (log 79). 02 R44 to R49;
06 R159, R160: the FX8 block: its tokens, the choice of mode and base, and the codes that decoding an encoded block gives
back, with what raw mode flushes; a malformed block is NaN. VFXENC takes the smallest scale under which every finite value
stays within the bound, VFXDEC gives eight elements of a block. -/
def Obligations.OtherVectorResults : Prop :=
  (∀ (c : Core) (e : VEntry) (d a b : BitVec 5) (x y z m : BitVec 3) (q : BitVec 1) (t : Nat),
     let after (i : Instr) : Core := c.land (flyOf { e with instr := i } (vectorEffect c { e with instr := i }) t)
     let on (n : Nat) : Bool := m == 0 || (c.readM m).getLsbD n
     (∀ n < 8,
       let u := elem 32 (c.readV a) n
       let v := elem 32 (c.readV b) n
       (x ≠ 0 → ∀ p ∈ [(Instr.vcmpeq x a b m, (cmpEq u v).1), (.vcmpne x a b m, !(cmpEq u v).1),
         (.vcmplt x a b m, (cmpLess false u v).1), (.vcmple x a b m, (cmpLess true u v).1), (.vicmpeq x a b m, u == v),
         (.vicmplt x a b m, decide (u.toInt < v.toInt)), (.vicmpltu x a b m, decide (u.toNat < v.toNat))],
         ((after p.1).readM x).getLsbD n = (on n && p.2) ∧ ∀ k, k ≠ x → (after p.1).readM k = c.readM k) ∧
       (∀ p ∈ [(Instr.vperm d a b m, if v.toNat < 8 then elem 32 (c.readV a) v.toNat else 0), (.vbcast d a m, e.scalar),
         (.vmov d a m, u), (.vcvtbf d a q m, (deliver32 e.md e.rmode (valueBF (elem 16 (c.readV a) (2 * n + q.toNat)))).1),
         (.vcvthf d a q m, (deliver32 e.md e.rmode (valueF16 (elem 16 (c.readV a) (2 * n + q.toNat)))).1),
         (.vcvtfi d a m, (toInt32 e.md e.rmode (value32 u)).1), (.vcvtif d a m, (fromInt32 e.md e.rmode u).1),
         (.vexp2 d a m, (special32 0 e.md e.rmode u).1), (.vlog2 d a m, (special32 1 e.md e.rmode u).1),
         (.vrcp d a m, (special32 2 e.md e.rmode u).1), (.vrsq d a m, (special32 3 e.md e.rmode u).1),
         (.vtanh d a m, (special32 4 e.md e.rmode u).1)],
         elem 32 ((after p.1).readV d) n = if on n then p.2 else elem 32 (c.readV d) n) ∧
       elem 32 ((after (.vsel d a b m)).readV d) n = (if on n then u else v) ∧
       elem 32 ((after (.vins d a x)).readV d) n = (if n = x.toNat then e.scalar else elem 32 (c.readV d) n)) ∧
     (∀ n < 16, ∀ p ∈ [(Instr.vcvtfb d a b m, (toBF e (value32 (elem 32 (c.readV (if n % 2 = 0 then a else b)) (n / 2)))).1),
       (.vcvtfh d a b m, (toF16 e (value32 (elem 32 (c.readV (if n % 2 = 0 then a else b)) (n / 2)))).1)],
       elem 16 ((after p.1).readV d) n = if on (n / 2) then p.2 else elem 16 (c.readV d) n) ∧
     (x ≠ 0 → (after (.vmand x y z)).readM x = c.readM y &&& c.readM z ∧
       (after (.vmor x y z)).readM x = c.readM y ||| c.readM z ∧ (after (.vmnot x y)).readM x = ~~~(c.readM y)) ∧
     (after (.vmand 0 y z)).readM 0 = 0xFF) ∧
  (∀ (c : Core) (e : VEntry) (d a : BitVec 5) (m : BitVec 3) (t : Nat),
     let after (i : Instr) : Core := c.land (flyOf { e with instr := i } (vectorEffect c { e with instr := i }) t)
     let on (n : Nat) : Bool := m == 0 || (c.readM m).getLsbD n
     let lane (n : Nat) : Int := if on n then (elem 32 (c.readV a) n).toInt else 0
     let sum := lane 0 + lane 1 + lane 2 + lane 3 + lane 4 + lane 5 + lane 6 + lane 7
     let node (md : Option Modifier) (f : Value → Value → Value × Flags) (p q : Word) : Word :=
       (deliver32 md e.rmode (f (value32 p) (value32 q)).1).1
     let tree (f : Value → Value → Value × Flags) (ident : Word) : Word :=
       let x (n : Nat) : Word := if on n then elem 32 (c.readV a) n else ident
       node e.md f (node none f (node none f (x 0) (x 1)) (node none f (x 2) (x 3)))
         (node none f (node none f (x 4) (x 5)) (node none f (x 6) (x 7)))
     ∀ p ∈ [(Instr.vrediadd d a m, (deliverInt e.md true 32 sum).1), (.vredadd d a m, tree (fAdd e.rmode) 0x80000000),
       (.vredmax d a m, tree fMax 0xFF800000), (.vredmin d a m, tree fMin 0x7F800000)],
       elem 32 ((after p.1).readV d) 0 = p.2 ∧ ∀ n < 8, n ≠ 0 → elem 32 ((after p.1).readV d) n = 0) ∧
  (let q (n : Bool) (m : Nat) (e : Int) : ℚ := (if n then -1 else 1) * (m : ℚ) * (2 : ℚ) ^ e
   let val (mb : Nat) (bias : Int) (c : Nat) : ℚ :=
     if c < 2 ^ mb then q false c (1 - bias - mb) else q false (2 ^ mb + c % 2 ^ mb) ((c / 2 ^ mb : Nat) - bias - mb)
   let nearest (x : ℚ) (v : Nat → ℚ) (y : Nat) : Prop := ∀ c, |x - v y| ≤ |x - v c| ∧ (c ≠ y → |x - v y| = |x - v c| → y % 2 = 0)
   let floats : List (Elem × Nat × Nat × Int) := [(.e4m3, 4, 3, 7), (.fx8, 4, 3, 7), (.e5m2, 5, 2, 15), (.e2m1, 2, 1, 1)]
   let ints : List (Elem × Nat) := [(.i8, 8), (.i4, 4)]
   let flags (clamped inexact : Bool) : Flags := (if clamped then 0x20 else 0) ||| (if inexact then 1 else 0)
   (∀ p ∈ floats, ∀ code : Nat, code < 2 ^ (1 + p.2.1 + p.2.2.1) →
     let e : Nat := code / 2 ^ p.2.2.1 % 2 ^ p.2.1
     let f : ℚ := (code % 2 ^ p.2.2.1 : Nat)
     ∃ k x, elemValue p.1 code = .fin (code / 2 ^ (p.2.1 + p.2.2.1) == 1) k x ∧
       q false k x = if e = 0 then (2 : ℚ) ^ (1 - p.2.2.2) * f / 2 ^ p.2.2.1
         else (2 : ℚ) ^ ((e : Int) - p.2.2.2) * (1 + f / 2 ^ p.2.2.1)) ∧
   (∀ p ∈ ints, ∀ code : Nat, code < 2 ^ p.2 → ∃ n k, elemValue p.1 code = .fin n k 0 ∧
     q n k 0 = if code < 2 ^ (p.2 - 1) then (code : ℚ) else (code : ℚ) - 2 ^ p.2) ∧
   (∀ f ∈ [Elem.e4m3, .e5m2, .e2m1, .i8, .i4, .fx8], ∀ code scale, scale < 256 → decodeNarrow f code scale =
     if scale = 255 then (0x7FC00000, 0)
     else match elemValue f code with
       | .fin n k x => round32 .nearestEven (.fin n k (x + scale - 127))
       | v => round32 .nearestEven v) ∧
   ∀ (n sig : Bool) (m : Nat) (e : Int) (b : Word) (scale bound : Nat), scale < 256 →
     let x := q false m (e + 127 - (if scale = 255 then 127 else scale))
     (∀ p ∈ floats, bound < 2 ^ (p.2.1 + p.2.2.1) →
       let sign := if n then 2 ^ (p.2.1 + p.2.2.1) else 0
       (∃ y, nearest x (val p.2.2.1 p.2.2.2) y ∧ encodeNarrow p.1 (.fin n m e) scale bound =
         ⟨sign + min y bound, flags (bound < y) (val p.2.2.1 p.2.2.2 (min y bound) ≠ x), false⟩) ∧
       encodeNarrow p.1 (.inf n) scale bound = ⟨sign + bound, 0x21, false⟩ ∧
       encodeNarrow p.1 (.nan b sig) scale bound = ⟨0, 0x40, true⟩) ∧
     (∀ p ∈ ints, bound < 2 ^ (p.2 - 1) →
       let code (y : Nat) : Nat := if n && y != 0 then 2 ^ p.2 - y else y
       (∃ y, nearest x (fun c => (c : ℚ)) y ∧ encodeNarrow p.1 (.fin n m e) scale bound =
         ⟨code (min y bound), flags (bound < y) ((min y bound : Nat) ≠ x), false⟩) ∧
       encodeNarrow p.1 (.inf n) scale bound = ⟨code bound, 0x21, false⟩ ∧
       encodeNarrow p.1 (.nan b sig) scale bound = ⟨0, 0x40, true⟩) ∧
     (bound < 0x7C00 →
       (∃ y, nearest (q false m e) (val 10 15) y ∧ encodeNarrow .f16 (.fin n m e) scale bound =
         ⟨(if n then 0x8000 else 0) + min y bound, flags (bound < y) (val 10 15 (min y bound) ≠ q false m e), false⟩) ∧
       encodeNarrow .f16 (.inf n) scale bound = ⟨(if n then 0xFC00 else 0x7C00), 0, false⟩ ∧
       (encodeNarrow .f16 (.nan b sig) scale bound).code = (roundF16 .nearestEven (.nan b sig)).1.toNat)) ∧
  (let table : List (Nat × Nat × List Bool) := [(1, 0, [false]), (1, 1, [true, false]), (1, 15, [true, true, false]),
     (2, 0, [false, false]), (2, 1, [false, true]), (2, 15, [true, false, false]), (2, 2, [true, false, true]),
     (2, 14, [true, true, false, false]), (2, 3, [true, true, false, true]), (3, 0, [false, false, false]),
     (3, 1, [false, false, true]), (3, 15, [false, true, false]), (3, 2, [false, true, true]), (3, 14, [true, false, false]),
     (3, 3, [true, false, true]), (3, 13, [true, true, false, false]), (3, 4, [true, true, false, true])]
   (∀ p ∈ table, tokenFor p.1 p.2.1 = p.2.2) ∧
   (∀ md ∈ [1, 2, 3], ∀ d < 16, (∀ p ∈ table, p.1 = md → p.2.1 ≠ d) →
     tokenFor md d = [true, true, true, d.testBit 3, d.testBit 2, d.testBit 1, d.testBit 0]) ∧
   (∀ md b es, tokensLength md b es = (es.map fun e => (tokenFor md ((e + 16 - b) % 16)).length).sum) ∧
   (∀ es : List Nat, (∀ e ∈ es, e < 16) →
     (∀ md b, fx8Choose es = some (md, b) → md ∈ [1, 2, 3] ∧ b < 16 ∧ tokensLength md b es ≤ 112 ∧
       ∀ md' ∈ [1, 2, 3], ∀ b' < 16, tokensLength md b es < tokensLength md' b' es ∨ 112 < tokensLength md' b' es ∨
         tokensLength md b es = tokensLength md' b' es ∧ (md < md' ∨ md = md' ∧ b ≤ b')) ∧
     (fx8Choose es = none → ∀ md' ∈ [1, 2, 3], ∀ b' < 16, 112 < tokensLength md' b' es)) ∧
   (∀ (codes : List Nat) (scale : Nat), codes.length = 32 → (∀ c ∈ codes, c < 256) → scale < 256 →
     let es := codes.map fun c => c / 8 % 16
     let r := fx8Encode codes scale
     let raw := es.foldl max 0 - 7
     let flush (c : Nat) : Nat := if 1 ≤ c / 8 % 16 ∧ c / 8 % 16 ≤ raw then c / 128 * 128 else c
     r.1.length = 32 ∧ (r.1.getD 1 0).toNat = scale ∧
     (∀ md b, fx8Choose es = some (md, b) →
       (r.1.getD 0 0).toNat = 64 * md + b ∧ fx8Codes r.1 = some (codes, scale) ∧ r.2 = 0) ∧
     (fx8Choose es = none → (r.1.getD 0 0).toNat = raw ∧ fx8Codes r.1 = some (codes.map flush, scale) ∧
       r.2 = if ∃ c ∈ codes, flush c ≠ c then 1 else 0)) ∧
   (∀ (bs : List Byte) (i : Nat), let h := (bs.getD 0 0).toNat
     (h / 64 = 0 → 8 < h % 64 → fx8Codes bs = none) ∧ (h / 64 ≠ 0 → 15 < h % 64 → fx8Codes bs = none) ∧
     (fx8Codes bs = none → fx8Value bs i = .nan 0x7FC00000 false) ∧
     (∀ cs s, fx8Codes bs = some (cs, s) → fx8Value bs i = scaledValue .e4m3 (cs.getD i 0) s)) ∧
   ∀ (c : Core) (e : VEntry) (b : WinBind) (d a : BitVec 5) (j : BitVec 2) (t : Nat), e.bind = some b → b.clamp < 128 →
     let after (i : Instr) : Core := c.land (flyOf { e with instr := i } (vectorEffect c { e with instr := i }) t)
     let bytes (v : Vec) : List Byte := (List.range 32).map fun n => elem 8 v n
     let x (n : Nat) : Value := value32 (elem 32 (c.readV (a + BitVec.ofNat 5 (n / 8))) (n % 8))
     let bound := if b.clamp = 0 then 0x7F else b.clamp
     let most : ℚ := if bound < 8 then (bound : ℚ) / 512 else (8 + bound % 8 : Nat) * (2 : ℚ) ^ ((bound / 8 : Nat) - 10 : Int)
     let fits (s : Nat) : Prop := ∀ n < 32, ∀ g m k, x n = .fin g m k → (m : ℚ) * (2 : ℚ) ^ (k + 127 - s) ≤ most
     let none' : Prop := ∀ n < 32, ∀ g m k, x n = .fin g m k → m = 0
     (∀ n < 8, elem 32 ((after (.vfxdec d a j)).readV d) n =
       (round32 .nearestEven (fx8Value (bytes (c.readV a)) (8 * j.toNat + n))).1) ∧
     ∃ s ≤ 254, (none' → s = 127) ∧ (¬none' → (∀ r < s, ¬fits r) ∧ (s < 254 → fits s)) ∧
       bytes ((after (.vfxenc d a)).readV d) = (fx8Encode ((List.range 32).map fun n => (encodeNarrow .e4m3 (x n) s bound).code)
         (if (List.range 32).any fun n => (x n).isNaN then 255 else s)).1)

/-- 06 R144, R149: of the cores that may dispatch a lane group takes the one with the least pass value, the lowest index on a
tie; the head leaves its queue and its core's pass value rises by 360,360 over its share. 06 R144, R145: a dispatched
instruction whose result is ready writes its registers and ORs its flags, in program order; one behind an instruction that is
not ready waits: completion in program order is the model's choice (log 35). 05 R124: a vector frame feeds the next
instruction of its passes into the queue, with the registers of that pass and the modifier and rounding mode of its capture
(log 17), while the queue has room; its last pass ends the frame. 08 R207 to R209; 06 R144: one cycle of the replay queue
retries an access first tried in an earlier cycle; once its words are served it leaves. The cycle puts its result off by one,
keeps its lane group for one more, and counts in CONFLICTS.CORE. A delivery that meets a conflict waits, and counts once in
its cycle in CONFLICTS.ENGINE. -/
def Obligations.VectorUnitRuns : Prop :=
  ((∀ (s : State) (ms : List Nat) (m : Nat), ms.Pairwise (· < ·) → leastPass s ms = some m →
     m ∈ ms ∧ ∀ n ∈ ms, (s.core m).pass < (s.core n).pass ∨ (s.core m).pass = (s.core n).pass ∧ m ≤ n) ∧
   ∀ (s : State) (k m : Nat) (c : Core) (e : VEntry) (rest : List VEntry),
     s.core m = c → m ∈ clusterCores k → c.vq = e :: rest → noLane e.instr = false → isVMem e.instr = false →
     mayDispatch c = true → look 0 (laneKey s k 0) (s.cluster k).laneFree ≤ s.now → (s.cluster k).lastDisp ≠ s.now → slotServes s k 0 m = true →
     (∀ n ∈ clusterCores k, n ≠ m → mayDispatch (s.core n) = false) →
     ∃ t, exec (.vectorDispatch k) s = .next t ∧
       t.core m = { c with
         vq := rest
         vfly := c.vfly ++ [flyOf e (vectorEffect { c with vq := rest } e) (s.now + (vectorCost e.instr).2)]
         pass := c.pass + 360360 / shareOf c } ∧
       look 0 (laneKey s k 0) (t.cluster k).laneFree = s.now + (vectorCost e.instr).1 ∧ (t.cluster k).lastDisp = s.now ∧
       ∀ n, n ≠ m → t.core n = s.core n) ∧
  (∀ (s : State) (id : Nat) (c : Core) (f : VFly) (rest : List VFly), s.core id = c → c.vfly = f :: rest →
     (f.readyAt ≤ s.now → (∀ g gs, rest = g :: gs → s.now < g.readyAt) →
       exec (.vectorComplete id) s = .next (s.setCore id { c.land f with vfly := rest })) ∧
     (s.now < f.readyAt → exec (.vectorComplete id) s = .next (s.setCore id c)) ∧
     (c.land f).fpflags = c.fpflags ||| f.flags.zeroExtend 32 ∧
     (f.vreg = none → (c.land f).v = c.v) ∧ (f.mreg = none → (c.land f).m = c.m) ∧ (c.land f).g = c.g ∧
     (∀ r, f.vreg = some r → (c.land f).readV r = (c.readV r &&& ~~~f.vmask) ||| (f.value &&& f.vmask)) ∧
     (c.land f).mem = c.mem) ∧
  (∀ (s : State) (id : Nat) (c : Core) (f : Frame) (p : Captured), s.core id = c → c.frame = some f → f.feeding = true →
     f.captured[f.pos]? = some p → c.vq.length < 16 →
     let i := shiftRegs (BitVec.ofNat 5 (f.pass * f.sd)) (BitVec.ofNat 5 (f.pass * f.sa)) (BitVec.ofNat 5 (f.pass * f.sb)) p.instr
     let next : Option Frame := if f.pos + 1 < f.n then some { f with pos := f.pos + 1 }
       else if f.pass + 1 < f.count then some { f with pos := 0, pass := f.pass + 1 } else none
     ∃ t e, exec (.repfVectorFeed id) s = .next t ∧ (t.core id).vq = c.vq ++ [e] ∧ e.instr = i ∧ e.md = p.md ∧
       e.rmode = p.rmode ∧ e.addr = f.addr ∧ (t.core id).frame = next ∧ (t.core id).g = c.g ∧ (t.core id).pc = c.pc ∧
       ∀ n, n ≠ id → t.core n = s.core n) ∧
  (∀ (s : State) (id : Nat) (c : Core) (r : Replay), s.core id = c → c.replay = [r] →
     let b := c.bankCycle s.now (panelReads s id s.now)
     let served := serveWords c.bankhash b.used r.words
     (r.since < s.now → r.words ≠ [] → c.conflicts.toNat % 65536 < 65535 → ∃ t, exec (.bankReplayRetry id) s = .next t ∧
       t.core id = { c.replayOnce r with
         replay := if served.2 = [] then [] else [{ r with words := served.2 }]
         banks := { b with used := served.1 }
         conflicts := c.conflicts + 1 } ∧
       (∀ g, r.lane = some g → look 0 g (t.cluster (clusterOf id)).laneFree =
         max (look 0 g (s.cluster (clusterOf id)).laneFree) (s.now + 1)) ∧ ∀ n, n ≠ id → t.core n = s.core n) ∧
     (s.now ≤ r.since → exec (.bankReplayRetry id) s = .next s) ∧
     (∀ (h : Word) (w : Nat), bankOf h w < 16 ∧ (h = 0 → bankOf h w = w % 16)) ∧
     ∀ ws, clash c.bankhash b.used ws = true →
       let d := c.deliver s.now (panelReads s id s.now) ws
       d.1 = false ∧ (b.waited = true → d.2.conflicts = c.conflicts) ∧
       (b.waited = false → c.conflicts.toNat / 65536 < 65535 → d.2.conflicts = c.conflicts + 65536))

/-- 06 R143, R161 to R163; 08 R212: a vector memory instruction that passes its checks enters the queue with the addresses of its
enabled lanes and the window binding taken at issue; VFXENC takes the binding of window 6. 06 R146, R164 to R166: what a
vector memory access of raw local memory does: a load's lane takes its word, a store writes its lanes' words and no other
byte; an element of a window that lies outside its tree loads as +0 and stores nothing. 06 R164, R165; 08 R210, R213: what a
window load and a window store do with an element inside the extents: the element's byte, its nibble or its block, the scale
byte of a SCALED tree, the format's decoding and encoding, and the marks of a NaN. -/
def Obligations.VectorMemoryAccesses : Prop :=
  (∀ (s : State) (c : Core) (d b x : BitVec 5) (o : BitVec 13) (m : BitVec 3) (w : Option WinBind) (us : List (Nat × Int)),
     IssuesPlain s c → c.vectorStall = false →
     (∀ k h, bindHandle c k = some h → recordReady s s.cur h = true) →
     (∀ i ∈ [Instr.vld d b o, .vst d b o, .vlds d b o, .vsts d b o, .vgth d b x m, .vsct d b x m],
       (∀ r ∈ vregsNamed i, r.toNat < c.resVregs.toNat) → c.pendingV x = false → c.pendingM m = false →
       vmemCheck s c i = .ok (w, us) →
       exec i s = .next (s.completed
         (c.queued s i fun e => { e with bind := w, lanes := us.map fun p => (p.1, p.2.toNat) }) i .next)) ∧
     (∀ k, (∀ r ∈ vregsNamed (.vfxenc d b), r.toNat < c.resVregs.toNat) → bindOf s c 6 0x60000 0 = .ok k →
       exec (.vfxenc d b) s = .next (s.completed (c.queued s (.vfxenc d b) fun e => { e with bind := some k }) (.vfxenc d b)
         .next)) ∧
     (let a := (c.readG b + o.signExtend 32).toNat
      a % 4 = 0 → a + 32 ≤ 0x8000 → a + 28 < c.resLocal.toNat →
       ∀ i ∈ [Instr.vld d b o, .vst d b o], ∃ l, vmemCheck s c i = .ok (none, l) ∧
         l.map (fun p => (p.1, p.2.toNat)) = (List.range 8).map fun n => (n, a + 4 * n))) ∧
  (∀ (c : Core) (e : VEntry) (d b x : BitVec 5) (o : BitVec 13) (m : BitVec 3) (a t : Nat) (w : WinBind) (k : Nat) (v : Word),
     (e.bind = none → e.lanes = (List.range 8).map (fun n => (n, a + 4 * n)) →
       (∀ i ∈ [Instr.vld d b o, .vlds d b o, .vgth d b x m], ∀ n < 8,
         let r := vmemEffect c { e with instr := i }
         r.1 = c ∧ elem 32 ((c.land (flyOf { e with instr := i } r.2 t)).readV d) n = readWord c.mem (a + 4 * n)) ∧
       (∀ i ∈ [Instr.vst d b o, .vsts d b o, .vsct d b x m],
         let r := vmemEffect c { e with instr := i }
         (∀ y, y < a ∨ a + 32 ≤ y → readByte r.1.mem y = readByte c.mem y) ∧ r.1.v = c.v ∧ r.1.g = c.g ∧ r.2.vreg = none ∧
         (memWf c.mem = true → ∀ n < 8, readWord r.1.mem (a + 4 * n) = elem 32 (c.readV d) n))) ∧
     (w.ext k = false → windowLoad c w k = (0, 0) ∧ windowStore c w k v = (c, 0))) ∧
  (∀ (c : Core) (w : WinBind) (k : Nat) (x : Word), 1 ≤ w.window → w.window ≤ 7 → w.m0 + k < 4 ^ w.depth →
     mortonRow (w.m0 + k) < w.rows → mortonCol (w.m0 + k) < w.cols →
     let n := w.m0 + k
     let a := 32 * w.dloc + (if w.window = 7 then 2 * k else if w.window = 6 then 32 * (n / 32) - 32 * (w.m0 / 32)
       else if w.window = 3 ∨ w.window = 5 then n / 2 - w.m0 / 2 else k)
     let sa := 32 * w.sloc + (n / 32 - w.m0 / 32)
     a < 0x8000 → (w.scaled = true → sa < 0x8000) →
     let byte := (readByte c.mem a).toNat
     let nibble := if n % 2 = 0 then byte % 16 else byte / 16
     let scale := if w.scaled then (readByte c.mem sa).toNat else 127
     let block := (List.range 32).map fun i => readByte c.mem (a + i)
     (w.window = 1 → windowLoad c w k = decodeNarrow .e4m3 byte scale) ∧
     (w.window = 2 → windowLoad c w k = decodeNarrow .e5m2 byte scale) ∧
     (w.window = 3 → windowLoad c w k = decodeNarrow .e2m1 nibble scale) ∧
     (w.window = 4 → windowLoad c w k = decodeNarrow .i8 byte scale) ∧
     (w.window = 5 → windowLoad c w k = decodeNarrow .i4 nibble scale) ∧
     (w.window = 6 → (windowLoad c w k).1 = (round32 .nearestEven (fx8Value block (n % 32))).1) ∧
     (w.window = 7 → windowLoad c w k =
       round32 .nearestEven (valueF16 (BitVec.ofNat 16 (byte + 256 * (readByte c.mem (a + 1)).toNat)))) ∧
     (memWf c.mem = true →
       let s := windowStore c w k x
       let bound (most : Nat) : Nat := if w.clamp = 0 then most else w.clamp
       let half (code : Nat) : Byte := BitVec.ofNat 8 (if n % 2 = 0 then byte / 16 * 16 + code else byte % 16 + 16 * code)
       let stands (y : Nat) : Prop := readByte s.1.mem y = readByte c.mem y
       s.1.g = c.g ∧ s.1.v = c.v ∧ s.1.m = c.m ∧
       ((value32 x).isNaN = false →
         (∀ p ∈ [(1, Elem.e4m3, 0x7F), (2, .e5m2, 0x7F), (4, .i8, 0x7F)], w.window = p.1 →
           let r := encodeNarrow p.2.1 (value32 x) scale (bound p.2.2)
           s.2 = r.flags ∧ readByte s.1.mem a = BitVec.ofNat 8 r.code ∧ ∀ y, y ≠ a → stands y) ∧
         (∀ p ∈ [(3, Elem.e2m1, 7), (5, .i4, 7)], w.window = p.1 →
           let r := encodeNarrow p.2.1 (value32 x) scale (bound p.2.2)
           s.2 = r.flags ∧ readByte s.1.mem a = half r.code ∧ ∀ y, y ≠ a → stands y)) ∧
       (w.window = 7 →
         let r := encodeNarrow .f16 (value32 x) 127 (bound 0x7BFF)
         s.2 = r.flags ∧ readByte s.1.mem a = BitVec.ofNat 8 r.code ∧ readByte s.1.mem (a + 1) = BitVec.ofNat 8 (r.code / 256) ∧
         ∀ y, y ≠ a → y ≠ a + 1 → stands y) ∧
       ((value32 x).isNaN = true → ∀ p ∈ [(1, 0x80), (2, 0x80), (3, 8), (4, 0), (5, 0)], w.window = p.1 →
         let put (code : Nat) : Byte := if w.window = 3 ∨ w.window = 5 then half code else BitVec.ofNat 8 code
         (w.scaled = true → sa ≠ a → s.2 = 0x40 ∧ readByte s.1.mem sa = 0xFF ∧ readByte s.1.mem a = put 0 ∧
           ∀ y, y ≠ a → y ≠ sa → stands y) ∧
         (w.scaled = false → s.2 = 0x10 ∧ readByte s.1.mem a = put (if x.getLsbD 31 then p.2 else 0) ∧ ∀ y, y ≠ a → stands y))))

/-- 05 R130, R137; 17 R376: taking a trap outside the handler saves TPC, the cause and TINFO, sets the loop stack aside, sets
HANDLER, and enters the handler 6 cycles after the last pending write has landed, each in its own cycle; no other core,
memory or context changes. 05 R130; 17 R376; 19 R418: a trap inside the handler, or of a kernel without one, is a fault stop:
once every pending write has landed and no vector frame feeds, the core stops, its launch and its context are FAULTED, and
every core of the context is asked to halt. Until then the core waits and issues nothing. That a BKPT inside the handler is
such a double trap also where the launch has debug stop is the model's choice (log 29). 05 R121, R131: RFT restores the loop
stack set aside, clears HANDLER and goes to TPC at a cost of 2 cycles, every pending write landed, for every core inside its
handler; outside the handler it takes PROTECTION, whose TINFO0 is the model's choice (log 91). -/
def Obligations.TrapsEnterAndReturn : Prop :=
  (∀ (s : State) (id : Nat) (c : Core) (t : Trap) (tpc : Word) (k : Kernel) (h : Nat),
     s.core id = c → c.handler = false → c.feeds = false → ¬(t.cause = 0x0C ∧ debugOn s c = true) →
     s.kernelOf c = some k → k.header.handler = some h →
     let u := s.takeTrap id t tpc
     let n := u.core id
     n.tpc = tpc ∧ n.tcause = 0x80000000 ||| t.cause.zeroExtend 32 ∧ n.tinfo = #v[t.t0, t.t1, t.t2, t.t3] ∧ n.handler = true ∧
     n.pc = BitVec.ofNat 32 h ∧ n.aside = c.loops ∧ n.loops = [] ∧ n.readyAt = c.lastLand s.now + 6 ∧ n.pend = c.pend ∧
     n.frame = none ∧ n.md = none ∧ n.ops = [] ∧ n.status = c.status ∧ n.gangstat = c.gangstat ∧
     n.g = c.g ∧ n.a = c.a ∧ n.v = c.v ∧ n.m = c.m ∧ n.z = c.z ∧ n.fpflags = c.fpflags ∧ n.rmode = c.rmode ∧
     (∀ x, readByte n.mem x = readByte c.mem x) ∧ (∀ m, m ≠ id → u.core m = s.core m) ∧
     (∀ x, readByte u.hbm x = readByte s.hbm x) ∧ (∀ x, readByte u.hostMem x = readByte s.hostMem x) ∧
     u.contexts = s.contexts ∧ u.clusters = s.clusters ∧ u.lanes = s.lanes ∧ u.queues = s.queues ∧ u.funcs = s.funcs) ∧
  (∀ (s : State) (id : Nat) (c : Core) (t : Trap) (tpc : Word) (x : Nat), s.core id = c → c.ctx = some x →
     (s.ctx x).faultRec = none →
     (c.handler = true ∨ handlerOf s c = none ∧ ¬(t.cause = 0x0C ∧ debugOn s c = true)) →
     let u := s.takeTrap id t tpc
     (c.mayEnd = false → u = s.setCore id (c.ending t tpc) ∧ (u.core id).mayIssue s.now = false ∧ (u.core id).g = c.g ∧
       (u.core id).pend = c.pend) ∧
     (c.mayEnd = true → (u.core id).status = .stopped ∧ (u.ctx x).st = .faulted ∧ (u.ctx x).faultRec = some (id, s.now) ∧
     (c.handler = false → (u.core id).tpc = tpc ∧ (u.core id).cause = t.cause) ∧
     (∀ m, m ≠ id → (s.core m).ctx = some x → (u.core m).haltReq = .fault ∧ (u.core m).g = (s.core m).g) ∧
     ∀ m, m ≠ id → (s.core m).ctx ≠ some x → u.core m = s.core m) ∧
     ∀ v : State, (v.core id).fatal = some (t, tpc) → (v.core id).status = .running → (v.core id).mayEnd = true →
       exec (.trapEntry id t.cause tpc t.t0 t.t1 t.t2 t.t3) v = .next (v.endTrap id t tpc)) ∧
  (∀ (s : State) (c : Core), IssuesPlain s c →
     (c.handler = true → exec .rft s = .next (s.setCore s.cur (c.returnFromTrap s.now))) ∧
     (let n := c.returnFromTrap s.now
      n.pc = c.tpc ∧ n.handler = false ∧
      n.loops = c.aside.dropWhile (fun l => decide (c.tpc.toNat < l.first.toNat) || decide (l.last.toNat < c.tpc.toNat)) ∧
      n.aside = [] ∧ n.pend = [] ∧ n.readyAt = c.lastLand s.now + 3 ∧ (c.pend = [] → n.g = c.g) ∧ n.a = c.a ∧ n.v = c.v ∧
      n.m = c.m ∧ n.z = c.z ∧ n.mem = c.mem ∧ n.tpc = c.tpc ∧ n.tinfo = c.tinfo ∧ n.cause = c.cause ∧ n.fpflags = c.fpflags ∧
      n.rmode = c.rmode) ∧
     (c.handler = false → exec .rft s =
       .next (s.takeTrap s.cur { cause := 0x06, t0 := c.pc, t1 := 3, t2 := 0, t3 := 0 } c.pc)))

/-- 05 R132: TRAP and BKPT complete, and the core enters its handler with the code in TINFO0 and the next address in TPC. 05
R132; 17 R377; 19 R419: with debug stop enabled for the launch, a breakpoint stops the core for the debugger with the trap
recorded and no handler entered. -/
def Obligations.TrapAndBreakpointEnter : Prop :=
  ((∀ code : BitVec 10, decodeWord (0x30#6 ++ 0#10 ++ code ++ 0#6) = .ok (.trap code) ∧
     decodeWord (0x30#6 ++ 0#10 ++ code ++ 5#6) = .ok (.bkpt code)) ∧
   ∀ (s : State) (c : Core) (code : BitVec 10), IssuesPlain s c → c.single →
     let k := (c.fall c.pc).settled (s.now + 1)
     let u := s.setCore s.cur k
     exec (.trap code) s =
       .next (u.takeTrap s.cur { cause := 0x0D, t0 := code.zeroExtend 32, t1 := 0, t2 := 0, t3 := 0 } k.pc) ∧
     exec (.bkpt code) s =
       .next (u.takeTrap s.cur { cause := 0x0C, t0 := code.zeroExtend 32, t1 := 0, t2 := 0, t3 := 0 } k.pc)) ∧
  (∀ (s : State) (id : Nat) (c : Core) (t0 : Word) (tpc : Word), s.core id = c → c.handler = false → debugOn s c = true →
     c.mayEnd = true →
     let n := (s.takeTrap id { cause := 0x0C, t0 := t0, t1 := 0, t2 := 0, t3 := 0 } tpc).core id
     n.status = .debugStopped ∧ n.tpc = tpc ∧ n.cause = 0x0C ∧ n.tinfo = #v[t0, 0, 0, 0] ∧ n.handler = false ∧ n.pc = c.pc ∧
     n.loops = c.loops)

/-- 04 R92; 05 R133, R136 to R140: what GSR reads from every system register; a read of FPFLAGS waits for earlier vector
instructions. 00 R8; 05 R133, R136 to R140: what SSR leaves in every system register under its access code: read-only
registers keep their value, FPFLAGS bits are cleared by writing 1, reserved bits read as 0; every other register of the core
is as it was. 05 R134, R135; 16 R368: IDENT's part number, generation and stepping, which is the model's choice (log 20);
FENCE completes once every earlier access has been made and every late copy of a page is written, and what follows it is
ordered after what went before; WFE takes the event latch and clears it, or waits. -/
def Obligations.SystemRegisters : Prop :=
  (∀ (s : State) (c : Core) (d : BitVec 5) (n : BitVec 10), IssuesPlain s c →
     let reads (n : BitVec 10) (w : Word) := exec (.gsr d n) s = .next (s.completed (c.landG s.now d w) (.gsr d n) .next)
     (n ≠ 8 ∨ c.flagsPending = false → reads n (sysRead s.now s.cur c n.toNat)) ∧
     (c.flagsPending = true → exec (.gsr d 8) s = .next (s.setCore s.cur
       { c with wait := .stall, held := some (.gsr d 8), readyAt := s.now + 1 })) ∧
     ∀ p ∈ [(0x000, BitVec.ofNat 32 s.cur), (0x001, BitVec.ofNat 32 c.lcore),
       (0x002, (if c.handler then 0x80000000 else 0) ||| c.cause.zeroExtend 32), (0x003, c.tpc), (0x004, c.tinfo[0]),
       (0x005, c.tinfo[1]), (0x006, c.tinfo[2]), (0x007, c.tinfo[3]), (0x008, c.fpflags), (0x009, c.rmode), (0x00A, c.bankhash),
       (0x00B, c.vshare), (0x011, c.winbind[1]), (0x012, c.winbind[2]), (0x013, c.winbind[3]), (0x014, c.winbind[4]),
       (0x015, c.winbind[5]), (0x016, c.winbind[6]), (0x017, c.winbind[7]), (0x020, c.barmember), (0x021, c.gangstat),
       (0x028, c.resVregs), (0x029, c.resBars), (0x02A, c.resLocal), (0x02B, c.resMacros), (0x032, c.combstat),
       (0x033, c.conflicts), (0x030, BitVec.ofNat 32 (s.now - c.cycle0 + c.cycleAdd)),
       (0x031, BitVec.ofNat 32 (c.step.toNat * 65536 + (if c.group.isSome then 32768 else 0) + (if c.xphase then 16384 else 0) +
         c.chan % 16 * 1024 + c.nextSlot % 1024))],
       sysRead s.now s.cur c p.1 = p.2) ∧
  (∀ (s : State) (c : Core) (a : BitVec 5) (n : BitVec 10), IssuesPlain s c →
     let w := c.readG a
     let writes (n : BitVec 10) (k : Core) := exec (.ssr a n) s = .next (s.completed k (.ssr a n) .next)
     (c.flagsPending = false → writes 0x008 { c with fpflags := c.fpflags &&& ~~~(w &&& 0xFF) }) ∧
     (c.accessesDone = true → writes 0x00A { c with bankhash := w, rehashAt := some (s.now + 1024) }) ∧
     writes 0x003 { c with tpc := w &&& 0xFFFFFFFC } ∧ writes 0x009 { c with rmode := w &&& 3 } ∧
     (w &&& 15 ≠ 0 → writes 0x00B { c with vshare := w &&& 15 }) ∧ (w &&& 15 = 0 → writes 0x00B c) ∧
     writes 0x011 { c with winbind := c.winbind.set 1 (w &&& 0xFFFFFF00) } ∧
     writes 0x012 { c with winbind := c.winbind.set 2 (w &&& 0xFFFFFF00) } ∧
     writes 0x013 { c with winbind := c.winbind.set 3 (w &&& 0xFFFFFF00) } ∧
     writes 0x014 { c with winbind := c.winbind.set 4 (w &&& 0xFFFFFF00) } ∧
     writes 0x015 { c with winbind := c.winbind.set 5 (w &&& 0xFFFFFF00) } ∧
     writes 0x016 { c with winbind := c.winbind.set 6 (w &&& 0xFFFFFF00) } ∧
     writes 0x017 { c with winbind := c.winbind.set 7 (w &&& 0xFFFFFF00) } ∧ writes 0x033 { c with conflicts := w } ∧
     ∀ n ∈ [0x000, 0x001, 0x002, 0x004, 0x005, 0x006, 0x007, 0x020, 0x021, 0x028, 0x029, 0x02A, 0x02B, 0x030, 0x031, 0x032],
       writes n c) ∧
  (∀ (s : State) (c : Core) (d : BitVec 5) (sc : BitVec 3), IssuesPlain s c →
     exec (.ident d) s = .next (s.completed (c.landG s.now d 0x06500100) (.ident d) .next) ∧
     (c.fenced = true → s.late = [] → exec (.fence sc) s = .next (s.completed { c with ordered := c.serial } (.fence sc) .next)) ∧
     (c.fenced = false ∨ s.late ≠ [] → exec (.fence sc) s = .next (s.setCore s.cur
       { c with wait := .stall, held := some (.fence sc), readyAt := s.now + 1 })) ∧
     (c.latch = true → exec .wfe s = .next (s.completed { c with latch := false } .wfe .next)) ∧
     (c.latch = false → exec .wfe s = .next (s.setCore s.cur { c with wait := .stall, held := some .wfe, readyAt := s.now + 1 })) ∧
     c.wake.latch = true)

/-- 06 R167 to R169: GANG makes its core wait in the rendezvous; once every core of the aligned set has arrived with the same
size and no write pending, the gang forms: each member leaves the GANG with its number in GANGSTAT. 06 R168, R169, R172:
GANGID gives the member number, 0 outside a gang; UNGANG outside a gang does nothing; a GANG whose set holds an idle core
takes reason 2; a leader that executes GANG, YIELD, CEND, FORAGE, LAUNCH or RFT takes GANG_MISMATCH reason 5 alone, with the
size that a GANG asked for and 0 for the others: the gang disbands and its other members go on after the instruction. -/
def Obligations.GangsForm : Prop :=
  (∀ (s : State) (c : Core) (n : BitVec 5) (k : Nat), IssuesPlain s c → n.toNat ≤ 3 → s.cur / 8 = k →
     let size := 2 ^ n.toNat
     let first := s.cur - s.cur % size
     c.status = .running →
     (∀ m < size, first + m ≠ s.cur → (s.core (first + m)).status = .running ∧ (s.core (first + m)).ctx = c.ctx ∧
       (s.core (first + m)).wait = .gang size ∧ (s.core (first + m)).inGang = false ∧ (s.core (first + m)).pend = [] ∧
       (s.core (first + m)).single) → c.single → c.pend = [] →
     ∃ t u, exec (.gang n) s = .next t ∧
       t.core s.cur = { c with wait := .gang size, held := some (.gang n), readyAt := s.now + 1 } ∧
       exec (.gangRendezvousComplete k (first % 8)) t = .next u ∧
       ∀ m < size, (u.core (first + m)).gangstat = BitVec.ofNat 32 (128 + 16 * n.toNat + m) ∧
         (u.core (first + m)).leader = first ∧ (u.core (first + m)).wait = .none ∧
         (u.core (first + m)).pc = ((s.core (first + m)).fall (s.core (first + m)).pc).pc ∧
         (u.core (first + m)).g = (s.core (first + m)).g) ∧
  ((∀ (s : State) (c : Core) (d n : BitVec 5) (m : Nat), IssuesPlain s c →
     exec (.gangid d) s = .next (s.completed (c.landG s.now d 0) (.gangid d) .next) ∧
     exec .ungang s = .next (s.completed c .ungang .next) ∧
     (n.toNat ≤ 3 → m ∈ gangSet s.cur (2 ^ n.toNat) → m ≠ s.cur → (s.core m).status = .idle →
       (∀ j ∈ clusterCores (s.cur / 8), j ≠ m → j = s.cur ∨ (s.core j).status = .running ∧ (s.core j).ctx = c.ctx ∧
         (s.core j).inGang = false ∧ (s.core j).wait = .none) →
       exec (.gang n) s = .next (s.takeTrap s.cur
         { cause := 0x0F, t0 := 2, t1 := BitVec.ofNat 32 (m % 8), t2 := BitVec.ofNat 32 (2 ^ n.toNat), t3 := 0 } c.pc))) ∧
   ∀ (s : State) (d a n : BitVec 5) (h : Nat),
     let lead := s.core s.cur
     let ids := gangCores s s.cur
     lead.mayIssue s.now = true → lead.inGang = true → lead.gangMember = 0 → lead.md = none → lead.handler = false →
     handlerOf s lead = some h →
     (∀ m ∈ ids, (s.core m).ops = [] ∧ (s.core m).frame = none ∧ (s.core m).inGang = true ∧
       (m ≠ s.cur → (s.core m).gangMember ≠ 0)) →
     ∀ p ∈ [(Instr.gang n, 2 ^ n.toNat), (.yield a, 0), (.cend, 0), (.forage d, 0), (.launch d a, 0), (.rft, 0)],
     ∃ t, exec p.1 s = .next t ∧
       (let n := t.core s.cur
        n.handler = true ∧ n.pc = BitVec.ofNat 32 h ∧ n.tpc = lead.pc ∧ n.cause = 0x0F ∧
        n.tinfo = #v[5, BitVec.ofNat 32 (s.cur % 8), BitVec.ofNat 32 p.2, 0] ∧ n.inGang = false ∧
        n.readyAt = lead.lastLand s.now + 6 ∧ n.g = lead.g ∧ n.pend = lead.pend) ∧
       (∀ m ∈ ids, m ≠ s.cur → (t.core m).pc = lead.pc + 4 ∧ (t.core m).inGang = false ∧ (t.core m).loops = lead.loops ∧
         (t.core m).handler = (s.core m).handler ∧ (t.core m).g = (s.core m).g ∧ (t.core m).pend = (s.core m).pend) ∧
       ∀ m, m ∉ ids → t.core m = s.core m)

/-- 06 R170, R172: one issue of a gang runs the instruction in every member with the member's own registers and local memory, the
pc, the modifier and the loops of the leader: scalar arithmetic, the moves of the scalar file, loads and stores, vector
instructions into each queue. A branch goes where the leader's test sends it, JAL and JALR to the leader's target, each
member writing its link. A member that stalls stalls all; where a member traps the gang disbands, that member enters its
handler and the others complete. UNGANG frees every member. -/
def Obligations.GangMembersExecute : Prop :=
  ∀ (s : State) (d a b : BitVec 5) (pa : BitVec 3) (mk : BitVec 3) (o : BitVec 13) (h : BitVec 2) (i19 : BitVec 19) (i21 : BitVec 21)
    (i : BitVec 16) (n6 : BitVec 6) (hand : Nat),
    let ids := gangCores s s.cur
    let lead := s.core s.cur
    let c (m : Nat) : Core :=
      if m = s.cur then lead else { s.core m with pc := lead.pc, md := lead.md, mdAt := lead.mdAt, loops := lead.loops }
    let ends (j : Instr) (ctl : Ctl) (f : Nat → Core → Core) : Prop := ∃ t, exec j s = .next t ∧
      (∀ m ∈ ids, t.core m = (f m (c m)).finish s.now j ctl) ∧ ∀ m, m ∉ ids → t.core m = s.core m
    lead.mayIssue s.now = true → lead.inGang = true → lead.gangMember = 0 →
    (∀ m ∈ ids, (s.core m).ops = [] ∧ (s.core m).frame = none ∧ (s.core m).inGang = true ∧
      (m ≠ s.cur → (s.core m).gangMember ≠ 0)) →
    (let x (k : Core) := k.readG a
     let y (k : Core) := k.readG b
     (∀ p ∈ ([
        (.add d a b, true, fun k => (x k).toInt + (y k).toInt), (.sub d a b, true, fun k => (x k).toInt - (y k).toInt),
        (.and d a b, true, fun k => (x k &&& y k).toInt), (.or d a b, true, fun k => (x k ||| y k).toInt),
        (.xor d a b, true, fun k => (x k ^^^ y k).toInt), (.andn d a b, true, fun k => (x k &&& ~~~y k).toInt),
        (.slt d a b, true, fun k => if (x k).toInt < (y k).toInt then 1 else 0),
        (.sltu d a b, false, fun k => if (x k).toNat < (y k).toNat then 1 else 0),
        (.min d a b, true, fun k => min (x k).toInt (y k).toInt), (.max d a b, true, fun k => max (x k).toInt (y k).toInt),
        (.sel d a b, true, fun k => if k.readG d ≠ 0 then (x k).toInt else (y k).toInt),
        (.addi d a i, true, fun k => (x k).toInt + i.toInt), (.andi d a i, true, fun k => (x k &&& i.zeroExtend 32).toInt),
        (.slti d a i, true, fun k => if (x k).toInt < i.toInt then 1 else 0),
        (.srai d a n6, true, fun k => if 32 ≤ n6.toNat then (if (x k).toInt < 0 then -1 else 0) else (x k).toInt / 2 ^ n6.toNat)] :
          List (Instr × Bool × (Core → Int))),
        ends p.1 .next fun _ k => k.result s.now d p.2.1 (p.2.2 k)) ∧
     (∀ p ∈ ([(.mul d a b, true, fun k => (x k).toInt * (y k).toInt),
        (.mulhu d a b, false, fun k => ((x k).toNat : Int) * (y k).toNat / 2 ^ 32)] : List (Instr × Bool × (Core → Int))),
        ends p.1 .next fun _ k => k.laterResult (s.now + 3) d p.2.1 (p.2.2 k))) ∧
    ((∃ m ∈ ids, s.now < (s.core m).divFree) → ∃ t, exec (.div d a b) s = .next t ∧
      (∀ m ∈ ids, t.core m = { c m with wait := if s.now < (s.core m).divFree then .stall else (s.core m).wait,
                                        held := some (.div d a b), readyAt := s.now + 1 }) ∧
      ∀ m, m ∉ ids → t.core m = s.core m) ∧
    (lead.md = none →
      (∀ p ∈ ([(.lui d i, fun _ _ => BitVec.ofNat 32 (i.toNat * 2 ^ 16)), (.gangid d, fun _ k => BitVec.ofNat 32 k.gangMember),
        (.gsr d 0, fun m _ => BitVec.ofNat 32 m), (.gsr d 0x21, fun _ k => k.gangstat), (.gsr d 3, fun _ k => k.tpc),
        (.pgetlo d pa, fun _ k => (k.readA pa).setWidth 32)] : List (Instr × (Nat → Core → Word))),
        ends p.1 .next fun m k => k.landG s.now d (p.2 m k)) ∧
      (let at' (m : Nat) : Nat := ((s.core m).readG b + o.signExtend 32).toNat
       let ready (m : Nat) : Prop := (s.core m).accessStalls = false ∧ at' m < 0x8000 ∧ at' m < (s.core m).resLocal.toNat ∧
         at' m / 4 ∉ (s.core m).memBad
       ((∀ m ∈ ids, ready m ∧ at' m % 4 = 0) →
         (ends (.ldW d b o) .next fun m k =>
            (k.queueLoad s.now d (readWord k.mem (at' m))).access s.now (panelReads s m s.now) [at' m / 4] k.serial true none) ∧
         ((∀ m ∈ ids, (s.core m).locked (at' m) 4 = false) → ends (.stW d b o) .next fun m k =>
            (k.store (at' m) (leBytes (k.readG d).toNat 4)).access s.now (panelReads s m s.now) [at' m / 4] k.serial false none)) ∧
       ((∀ m ∈ ids, ready m ∧ (s.core m).handler = false ∧ handlerOf s (s.core m) = some hand) → (∃ m ∈ ids, at' m % 4 ≠ 0) →
         ∃ t, exec (.ldW d b o) s = .next t ∧ ∀ m ∈ ids, (t.core m).inGang = false ∧ (t.core m).loops =
             (if at' m % 4 = 0 then lead.loops else []) ∧
           (at' m % 4 ≠ 0 → (t.core m).handler = true ∧ (t.core m).pc = BitVec.ofNat 32 hand ∧ (t.core m).tpc = lead.pc ∧
             (t.core m).cause = 0x03 ∧ (t.core m).pend = (s.core m).pend) ∧
           (at' m % 4 = 0 → (t.core m).handler = false ∧ (t.core m).pc = lead.pc + 4 ∧ (t.core m).pend = (s.core m).pend ++
             [{ reg := d, value := readWord (s.core m).mem (at' m), landAt := s.now + 3, load := some s.now }]))) ∧
      (∀ j ∈ [Instr.vmov d a mk, .vbcast d a mk, .vexp2 d a mk],
        (∀ m ∈ ids, (s.core m).vectorStall = false ∧ ∀ r ∈ vregsNamed j, r.toNat < (s.core m).resVregs.toNat) →
        ∃ t, exec j s = .next t ∧ ∀ m ∈ ids, (t.core m).pc = (lead.fall lead.pc).pc ∧ (t.core m).g = (s.core m).g ∧
          (t.core m).vq = ((c m).queued s j fun e => { e with scalar := if j = .vbcast d a mk then (s.core m).readG a else 0 }).vq) ∧
      (∀ p ∈ [(Instr.beqz h a i19, decide ((lead.readG a).toInt = 0)), (.bltz h a i19, decide ((lead.readG a).toInt < 0)),
          (.bgtz h a i19, decide (0 < (lead.readG a).toInt))],
        let guess := h = 1 ∨ h = 0 ∧ i19.toInt ≤ 0
        ends p.1 (.branch p.2 (lead.pc + 4 * i19.signExtend 32) (if (p.2 = true ↔ guess) then 0 else 2)) fun _ k => k) ∧
      (ends (.jal d i21) (.jump (lead.pc + 4 * i21.signExtend 32) 0) fun _ k => k.landG s.now d (lead.pc + 4)) ∧
      (let goal := lead.readG a + i.signExtend 32
       goal.toNat % 4 = 0 → ends (.jalr d a i) (.jump goal 2) fun _ k => k.landG s.now d (lead.pc + 4)) ∧
      ((∀ m ∈ ids, (s.core m).pend = []) → ends .ungang .next fun _ k => { k with gangstat := 0 }))

/-- 07 R178, R186, R189 to R192: what the instructions of a core's slice do: clearing and waiting for a tile, binding an A panel,
staging a B piece, reading a row into the vector queue, reading the watermark word and the capability word, whose CLMAX is
the smallest MAXROWS of the cluster. That ERR of MWM shows an error until an instruction of its tile raises it is the model's
reading (log 81). 07 R184, R186, R188; 05 R117: where matrix instructions stop: TILE_SHAPE for a GISSUE without operands,
beyond the core's rows or of mixed classes; DATA_INTEGRITY, raised once, for an error of the tile's last operation (log 81);
for a panel or piece that leaves local memory or RES_LOCAL or is not aligned, the traps of its range in this order, with
nothing bound or staged. -/
def Obligations.MatrixInstructions : Prop :=
  (∀ (s : State) (c : Core) (z : BitVec 1) (r a f d : BitVec 5) (row : BitVec 3), IssuesPlain s c →
     let x := c.slice
     let base := (c.readG a).toNat
     (c.tileInFlight z.toNat = false → x.err = none →
       exec (.mwait z) s = .next (s.completed c (.mwait z) .next) ∧
       ∃ k, exec (.mzero z) s = .next (s.completed k (.mzero z) .next) ∧
         (∀ i j, k.readZ z.toNat i j = 0) ∧ (∀ t i j, t % 2 ≠ z.toNat → k.readZ t i j = c.readZ t i j) ∧
         { k with z := c.z } = c) ∧
     (c.localDone = true → base % 32 = 0 → base + panelSize f.toNat r.toNat ≤ 0x8000 →
       base + panelSize f.toNat r.toNat ≤ c.resLocal.toNat →
       let st := if (x.st = .unbound ∨ x.st = .final) ∧ x.bstaged = true then .bound else x.st
       exec (.mbinda r a f) s = .next (s.completed { c with slice := { x with
         abase := base, afmt := f.toNat, arows := r.toNat, abound := true, st := st } } (.mbinda r a f) .next)) ∧
     (c.localDone = true → x.stagedAt ≤ s.now → base % 32 = 0 → base + pieceSize f.toNat ≤ 0x8000 →
       base + pieceSize f.toNat ≤ c.resLocal.toNat → c.memBad = [] →
       let st := if (x.st = .unbound ∨ x.st = .final) ∧ x.abound = true then .bound else x.st
       exec (.mldb a f) s = .next (s.completed { c with slice := { x with
         stage := readBytes c.mem base (pieceSize f.toNat), stageAt := base, staged := 0, bfmt := f.toNat, bstaged := true, stageBad := false,
         stagedAt := s.now + 1 + (pieceSize f.toNat + 31) / 32, st := st } } (.mldb a f) .next)) ∧
     (c.vectorStall = false → d.toNat < c.resVregs.toNat → c.tileBusy z.toNat row.toNat = false → x.err = none →
       ∃ v, exec (.mrd d z row) s = .next (s.completed (c.queued s (.mrd d z row) fun e => { e with data := v }) (.mrd d z row)
           .next) ∧ ∀ n < 8, v.extractLsb' (32 * n) 32 = c.readZ z.toNat row.toNat n) ∧
     (exec (.mwm d) s = .next (s.completed (c.landG s.now d (BitVec.ofNat 32 (x.wm + 16 * x.tile + 32 * sliceCode x.st +
       (if x.abound then 256 else 0) + (if x.bstaged then 512 else 0) + (if x.err.isSome then 1024 else 0)))) (.mwm d) .next)) ∧
     ∃ w, exec (.mcap d) s = .next (s.completed (c.landG s.now d w) (.mcap d) .next) ∧
       w.toNat % 16 = maxRows s s.cur % 16 ∧
       ((∀ m ∈ clusterCores (s.cur / 8), maxRows s m ≤ 8) → w.toNat % 16 = maxRows s s.cur ∧ w.toNat / 16 % 16 = s.cur % 8 ∧
         (∃ m ∈ clusterCores (s.cur / 8), w.toNat / 256 = maxRows s m) ∧
         ∀ m ∈ clusterCores (s.cur / 8), w.toNat / 256 ≤ maxRows s m)) ∧
  (∀ (s : State) (c : Core) (z : BitVec 1) (e : SliceErr) (r a f : BitVec 5), IssuesPlain s c →
     let x := c.slice
     let base := (c.readG a).toNat
     let traps (i : Instr) (cause : BitVec 8) (t0 t1 t2 : Nat) := exec i s =
       .next (s.takeTrap s.cur ⟨cause, BitVec.ofNat 32 t0, BitVec.ofNat 32 t1, BitVec.ofNat 32 t2, 0⟩ c.pc)
     (∀ p ∈ [(Instr.mbinda r a f, panelSize f.toNat r.toNat), (.mldb a f, pieceSize f.toNat)],
       c.localDone = true → (p.1 = .mldb a f → x.stagedAt ≤ s.now) →
       (0x8000 < base + p.2 → traps p.1 0x06 (max base 0x8000) 6 0) ∧
       (base + p.2 ≤ 0x8000 → c.resLocal.toNat < base + p.2 → traps p.1 0x02 3 (max base c.resLocal.toNat) c.resLocal.toNat) ∧
       (base + p.2 ≤ 0x8000 → base + p.2 ≤ c.resLocal.toNat → base % 32 ≠ 0 → traps p.1 0x03 base 32 0)) ∧
     let idle := x.st ≠ .rotating ∧ x.st ≠ .draining ∧ x.stagedAt ≤ s.now ∧ c.localDone = true ∧ c.sparse = none ∧ c.wait = .none
     let shape (r a b : Nat) := exec (.gissue z) s = .next (s.takeTrap s.cur ⟨0x08, BitVec.ofNat 32 r, BitVec.ofNat 32 a, BitVec.ofNat 32 b, 0⟩ c.pc)
     (idle → x.abound = false ∨ x.bstaged = false →
       shape 2 ((if x.abound then 2 else 0) + (if x.bstaged then 1 else 0)) 0) ∧
     (idle → x.abound = true → x.bstaged = true → maxRows s s.cur < x.arows → shape 1 x.arows (maxRows s s.cur)) ∧
     (idle → x.abound = true → x.bstaged = true → x.arows ≤ maxRows s s.cur → fmtClass x.afmt ≠ fmtClass x.bfmt →
       shape 3 x.afmt x.bfmt) ∧
     (c.tileInFlight z.toNat = false → x.err = some e → e.tile = z.toNat → ∀ i ∈ [Instr.mwait z, .mzero z],
       exec i s = .next ((s.setCore s.cur { c with slice := { x with err := none } }).takeTrap s.cur
         ⟨0x0B, BitVec.ofNat 32 e.addr, BitVec.ofNat 32 e.kind, BitVec.ofNat 32 e.tile, BitVec.ofNat 32 e.step⟩ c.pc)))

/-- 07 R174, R178 to R180, R187: the last GISSUE of a cluster sets the rendezvous 4 cycles ahead; when it completes, every core
leaves its GISSUE and its slice rotates with the panels and pieces as they stand, its A panel locked. 07 R174, R177, R178,
R180, R181, R184, R186; 02 R55, R56: ring steps hand the pieces on, the seventh starts the draining; each row pair then
becomes final in its cycle. Its elements hold the sums of the blocks j, j + 1, … of slice j, each product or FP4 pair sum
added in turn and rounded to nearest-even, NV and OF gathered; no other element changes. With the last row pair the flags
reach the core, NV also for a malformed FX8 block, and the elements of a slice that found an error are NaN, those of no other
slice. That a latch decodes an operand to FP32, and that an error on the other tile stands, are the model's reading (logs 78,
81). -/
def Obligations.MatrixOperations : Prop :=
  (∀ (s : State) (c : Core) (z : BitVec 1) (k : Nat), IssuesPlain s c → c.single → s.cur / 8 = k → c.wait = .none →
     c.slice.st = .bound → c.slice.abound = true → c.slice.bstaged = true → c.slice.arows ≤ maxRows s s.cur →
     fmtClass c.slice.afmt = fmtClass c.slice.bfmt → c.slice.stagedAt ≤ s.now → c.localDone = true → c.sparse = none →
     (∀ m ∈ clusterCores k, m ≠ s.cur → (s.core m).wait = .joint z.toNat ∧ (s.core m).rendErr = none ∧
       (s.core m).pend = [] ∧ (s.core m).status = .running ∧ (s.core m).single ∧ (s.core m).ctx = c.ctx ∧
       (s.core m).held = some (.gissue z) ∧ fmtClass (s.core m).slice.afmt = fmtClass c.slice.afmt) →
     c.rendErr = none → c.pend = [] → c.status = .running → c.held = none →
     ∃ t, exec (.gissue z) s = .next t ∧ (t.core s.cur).wait = .joint z.toNat ∧ (t.core s.cur).slice.st = .issued ∧
       (t.cluster k).jointAt = some (s.now + 4) ∧
       ∀ now, s.now + 4 ≤ now → ∃ u o, exec (.jointRendezvousComplete k) { t with now := now } = .next u ∧
         (u.cluster k).joint = some o ∧ (u.cluster k).jointAt = none ∧ o.cls = fmtClass c.slice.afmt ∧ o.start = now + 1 ∧
         o.step = 0 ∧ o.pieces = (clusterCores k).map (fun m => ((s.core m).slice.stage, (s.core m).slice.bfmt)) ∧
         ∀ m ∈ clusterCores k, (u.core m).slice.st = .rotating ∧ (u.core m).slice.wm = 0 ∧ (u.core m).slice.tile = z.toNat ∧
           (u.core m).slice.bstaged = false ∧ (u.core m).wait = .none ∧
           (u.core m).pc = ((s.core m).fall (s.core m).pc).pc ∧
           (u.core m).slice.lock = some ((s.core m).slice.abase, panelSize (s.core m).slice.afmt (s.core m).slice.arows)) ∧
  (∀ (s : State) (id k : Nat) (o : JointOp) (c : Core), s.core id = c → clusterOf id = k → (s.cluster k).joint = some o →
     let T := if o.cls = 0 then 32 else if o.cls = 1 then 16 else 8
     let D := T / 2 * o.mmax
     (o.step < 8 → o.start + o.step * D ≤ s.now → ∃ t, exec (.ringStepBegin k) s = .next t ∧
       (t.cluster k).joint = some { o with step := o.step + 1 } ∧
       (o.step ≠ 7 → t.core id = c) ∧ (o.step = 7 → c.slice.st = .rotating → id ∈ clusterCores k →
         t.core id = { c with slice := { c.slice with st := .draining } })) ∧
     (let p := c.slice.wm / 2
      let j := indexOf id
      let z := c.slice.tile
      let pn := o.panels.getD j ([], 0, 0)
      let m := pn.2.2
      let byte (bs : List Byte) (i : Nat) : Nat := (bs.getD i 0#8).toNat
      let narrow (f : Elem) (code scale : Nat) : Value × Flags :=
        (value32 (round32 .nearestEven (scaledValue f code scale)).1, (round32 .nearestEven (scaledValue f code scale)).2)
      let operand (bs : List Byte) (f i scale : Nat) : Value × Flags :=
        if f = 0 then (valueBF (BitVec.ofNat 16 (byte bs (2 * i) + 256 * byte bs (2 * i + 1))), 0)
        else if f = 1 then narrow .e4m3 (byte bs i) (byte bs scale)
        else if f = 2 then narrow .e5m2 (byte bs i) (byte bs scale)
        else if f = 3 then narrow .e2m1 (byte bs (i / 2) / (if i % 2 = 0 then 1 else 16) % 16) (byte bs scale)
        else match fx8Codes ((bs.drop (32 * (i / 32))).take 32) with
          | none => (.nan 0x7FC00000 false, 0)
          | some x => narrow .e4m3 (x.1.getD (i % 32) 0) x.2
      let a (r i : Nat) := operand pn.1 pn.2.1 (128 * r + i) ((if pn.2.1 = 3 then 64 else 128) * m + 4 * r + i / 32)
      let b (q i n : Nat) := let pc := o.pieces.getD q ([], 0)
        operand pc.1 pc.2 (8 * i + n) ((if pc.2 = 3 then 64 else 128) + (8 * i + n) / 32)
      let product (x y : Value × Flags) : Value × Flags := ((fMul x.1 y.1).1, (fMul x.1 y.1).2 ||| x.2 ||| y.2)
      let sum (x y : Value × Flags) : Value × Flags :=
        ((fAdd .nearestEven x.1 y.1).1, x.2 ||| y.2 ||| (fAdd .nearestEven x.1 y.1).2)
      let terms (r n q : Nat) : List (Value × Flags) :=
        if o.cls = 2 then (List.range 8).map fun u => sum (product (a r (16 * q + 2 * u)) (b q (2 * u) n))
          (product (a r (16 * q + (2 * u + 1))) (b q (2 * u + 1) n))
        else (List.range 16).map fun u => product (a r (16 * q + u)) (b q u n)
      let add (w : Word × Flags) (t : Value × Flags) : Word × Flags :=
        let v := fAdd .nearestEven (value32 w.1) t.1
        ((round32 .nearestEven v.1).1, w.2 ||| ((t.2 ||| v.2 ||| (round32 .nearestEven v.1).2) &&& 0x14))
      let result (r n : Nat) : Word × Flags :=
        (List.range 8).foldl (fun w st => (terms r n ((j + st) % 8)).foldl add w) (c.readZ z r n, 0)
      let flags : Flags :=
        ([2 * p, 2 * p + 1].flatMap fun r => (List.range 8).map fun n => (result r n).2).foldl (· ||| ·) c.slice.flags
      let malformed (bs : List Byte) (f : Nat) : Prop := f = 4 ∧ ∃ q < bs.length / 32, fx8Codes ((bs.drop (32 * q)).take 32) = none
      let err : Option SliceErr := match o.badA.getD j none, o.badB.getD j none with
        | none, none => none
        | some x, none => some { addr := x.1, kind := 1, tile := z, step := x.2 }
        | none, some st => some { addr := 0, kind := 2, tile := z, step := st }
        | some x, some st => if st < x.2 then some { addr := 0, kind := 2, tile := z, step := st }
          else some { addr := x.1, kind := 1, tile := z, step := x.2 }
      c.slice.st = .draining → o.start + 7 * D + (p + 1) * T ≤ s.now → c.slice.wm < 8 → z < 2 →
       ∃ t, exec (.rowPairComplete id) s = .next t ∧
         (err = none ∨ p + 1 < m / 2 →
           (∀ n < 8, ∀ r ∈ [2 * p, 2 * p + 1], (t.core id).readZ z r n = (result r n).1) ∧
           ∀ q < 2, ∀ r < 8, ∀ n < 8, q ≠ z ∨ r ≠ 2 * p ∧ r ≠ 2 * p + 1 → (t.core id).readZ q r n = c.readZ q r n) ∧
         (err ≠ none → m / 2 ≤ p + 1 → ∀ r < m, ∀ n < 8, (t.core id).readZ z r n = 0x7FC00000) ∧
         (p + 1 < m / 2 → (t.core id).slice.wm = 2 * (p + 1) ∧ (t.core id).slice.st = .draining ∧
           (t.core id).slice.flags = flags ∧ (t.core id).fpflags = c.fpflags) ∧
         (m / 2 ≤ p + 1 → (t.core id).slice.wm = 8 ∧ (t.core id).slice.lock = none ∧
           (t.core id).slice.st = (if c.slice.abound && c.slice.bstaged then .bound else .final) ∧
           (t.core id).slice.err = err.or c.slice.err ∧
           (malformed pn.1 pn.2.1 ∨ (∃ q ∈ o.pieces, malformed q.1 q.2) →
             (t.core id).fpflags = c.fpflags ||| (flags ||| 0x10).zeroExtend 32) ∧
           (¬malformed pn.1 pn.2.1 → (∀ q ∈ o.pieces, ¬malformed q.1 q.2) →
             (t.core id).fpflags = c.fpflags ||| flags.zeroExtend 32)) ∧
         (t.core id).latch = true ∧ (t.core id).mem = c.mem ∧ (t.core id).g = c.g ∧ ∀ q, q ≠ id → t.core q = s.core q) ∧
     (c.slice.stagedAt ≠ 0 → c.slice.stagedAt ≤ s.now → exec (.mldbStagingComplete id) s =
       .next (s.setCore id { c with slice := { c.slice with stagedAt := 0 } })))

/-- 15 R345 to R349, R351, R352: SPLD binds the tile with its bitmap and digest; SPMM starts the operation on a READY comb of the
same bitmap, which is pinned and counted a hit, and otherwise on the tile itself, counted a miss; requests for one tile in
one cycle are merged. SPLD of a tile that leaves local memory or RES_LOCAL, or is not aligned, takes the trap of its range
and binds nothing; SPMM takes those of its B operand. 15 R338 to R340, R346, R353: a sparse operation that ends has added to
each element the exact products of its row's non-zeros, in order, each sum rounded once, and to no other; the comb it ran on
is unpinned. -/
def Obligations.SparseTiles : Prop :=
  (∀ (s : State) (c : Core) (z : BitVec 1) (a f : BitVec 5) (b : BitVec 3) (t : Tree) (n : Nat) (q : Comb), IssuesPlain s c →
     let base := (c.readG a).toNat
     let k := s.cur / 8
     let p := c.readA b
     let x := c.ctx.getD 0
     let bm := readBytes c.mem base 64
     let w := c.binding
     (c.localDone = true → base % 32 = 0 → base + 72 ≤ 0x8000 → base + 72 ≤ c.resLocal.toNat →
       (x, pHandle p) ∈ (s.cluster k).cached → checkPath s x p = .ok t → seenComb s.now (s.cluster k) x p bm = some (n, q) →
       exec (.spld a b f) s = .next (s.completed { c with binding := ⟨true, false, base, p, f.toNat, popBytes bm, digestOf bm, bm⟩ }
         (.spld a b f) .next)) ∧
     (let traps (i : Instr) (cause : BitVec 8) (t0 t1 t2 : Nat) := exec i s =
        .next (s.takeTrap s.cur ⟨cause, BitVec.ofNat 32 t0, BitVec.ofNat 32 t1, BitVec.ofNat 32 t2, 0⟩ c.pc)
      c.localDone = true →
      (0x8000 < base + 72 → traps (.spld a b f) 0x06 (max base 0x8000) 6 0) ∧
      (base + 72 ≤ 0x8000 → c.resLocal.toNat < base + 72 → traps (.spld a b f) 0x02 3 (max base c.resLocal.toNat) c.resLocal.toNat) ∧
      (base + 72 ≤ 0x8000 → base + 72 ≤ c.resLocal.toNat → base % 32 ≠ 0 → traps (.spld a b f) 0x03 base 32 0) ∧
      (c.slice.st ≠ .rotating → c.slice.st ≠ .draining → c.sparse = none → w.bound = true → w.stale = false →
        (0x8000 < base + bSize f.toNat → traps (.spmm z a f) 0x06 (max base 0x8000) 6 0) ∧
        (base + bSize f.toNat ≤ 0x8000 → c.resLocal.toNat < base + bSize f.toNat →
          traps (.spmm z a f) 0x02 3 (max base c.resLocal.toNat) c.resLocal.toNat))) ∧
     (w.bound = false → c.slice.st = .bound → c.sparse = none → c.localDone = true →
       exec (.spmm z a f) s = .next (s.takeTrap s.cur ⟨0x08, 6, 0, 0, 0⟩ c.pc)) ∧
     (c.slice.st ≠ .rotating → c.slice.st ≠ .draining → c.sparse = none → c.localDone = true → w.bound = true → w.stale = false →
       base % 32 = 0 → base + bSize f.toNat ≤ 0x8000 → base + bSize f.toNat ≤ c.resLocal.toNat →
       w.base + tileSize w.fmt (popBytes w.bitmap) ≤ 0x8000 → w.base + tileSize w.fmt (popBytes w.bitmap) ≤ c.resLocal.toNat →
       fmtClass f.toNat = fmtClass w.fmt → (∀ i < 8, maxRows s s.cur ≤ i → rowKs w.bitmap i = []) →
       let op (work : Nat) (pin : Option Nat) : SparseOp :=
         ⟨z.toNat, w.base, w.fmt, w.bitmap, base, f.toNat, s.now + 5 + work, pin⟩
       let two := if w.fmt = 0 then 2 else 1
       (matchComb (s.cluster k) x w.path w.bitmap = some (n, q) → q.st = .ready → q.readyAt < s.now →
         ∃ u, exec (.spmm z a f) s = .next u ∧
           u.core s.cur = ({ c with sparse := some (op (two * q.len) (some n)), combstat := bumpField c.combstat 0 } : Core).finish
             s.now (.spmm z a f) .next ∧
           look q n (u.cluster k).combs = { q with pins := q.pins + 1, lastUse := s.now }) ∧
       (matchComb (s.cluster k) x w.path w.bitmap = some (n, q) → q.st = .queued → q.lastUse = s.now → popBytes w.bitmap ≤ 384 →
         ∃ u, exec (.spmm z a f) s = .next u ∧ look q n (u.cluster k).combs = { q with
           reqs := if q.reqs.contains (s.cur, c.pickup) then q.reqs else q.reqs ++ [(s.cur, c.pickup)] }) ∧
       (seenComb s.now (s.cluster k) x w.path w.bitmap = some (n, q) → q.st ≠ .ready → popBytes w.bitmap ≤ 384 →
         exec (.spmm z a f) s = .next (s.completed
           { c with sparse := some (op (if w.nnz = 512 then 256 * two else w.nnz) none), combstat := bumpField c.combstat 8 }
           (.spmm z a f) .next)))) ∧
  (∀ (s : State) (id : Nat) (c : Core) (o : SparseOp), s.core id = c → c.sparse = some o → o.endAt ≤ s.now → c.memBad = [] →
     let byte (a : Nat) : Nat := (readByte c.mem a).toNat
     let fp8 (f code scale : Nat) : Value := scaledValue (if f = 1 then .e4m3 else .e5m2) code scale
     let a (i v : Nat) : Value :=
       if o.fmt = 0 then valueBF (BitVec.ofNat 16 (byte (o.base + 72 + 2 * v) + 256 * byte (o.base + 72 + 2 * v + 1)))
       else fp8 o.fmt (byte (o.base + 72 + v)) (byte (o.base + 64 + i))
     let b (k n : Nat) : Value :=
       if o.bfmt = 0 then valueBF (BitVec.ofNat 16 (byte (o.bbase + 2 * (8 * k + n)) + 256 * byte (o.bbase + 2 * (8 * k + n) + 1)))
       else fp8 o.bfmt (byte (o.bbase + (8 * k + n))) (byte (o.bbase + 512 + (8 * k + n) / 32))
     let add (z : Word) (t : Value) : Word := (round32 .nearestEven (fAdd .nearestEven (value32 z) t).1).1
     ∃ t, exec (.sparseOpEnd id) s = .next t ∧ (t.core id).sparse = none ∧
       (∀ i < 8, ∀ n < 8, (t.core id).readZ o.tile i n =
         (((nonZeros o.bitmap).zipIdx).filter fun x => x.1.1 = i).foldl
           (fun z x => add z (fMul (a i x.2) (b x.1.2 n)).1) (c.readZ o.tile i n)) ∧
       (∀ q i n, q % 2 ≠ o.tile % 2 → (t.core id).readZ q i n = c.readZ q i n) ∧
       (t.core id).mem = c.mem ∧ (t.core id).g = c.g ∧ (t.core id).v = c.v ∧ (∀ m, m ≠ id → t.core m = s.core m) ∧
       (o.pinned = none → t.clusters = s.clusters) ∧
       ∀ n q, o.pinned = some n → (s.cluster (clusterOf id)).combs.find? (fun p => p.1 == n) = some (n, q) →
         q.drop = false → look q n (t.cluster (clusterOf id)).combs = { q with pins := q.pins - 1 })

/-- 15 R345, R346: the builder starts the head of its queue where its slots fit, is READY 32 cycles and a quarter of the
non-zeros later, and wakes the cores that asked. 15 R346, R355, R356: CBQ and CBWAIT read the binding and its comb; CBINV
withdraws the context's combs of its path, or, as CBINV.ALL, all of them, but for those that are pinned or building, which
are marked. -/
def Obligations.CombsBuildAndServe : Prop :=
  (∀ (s : State) (k n : Nat) (q : Comb) (rest : List Nat),
     let cl := s.cluster k
     (has 0 cl.building = false → cl.queue = n :: rest → n ∉ rest → cl.combs.find? (fun p => p.1 == n) = some (n, q) →
       sharedCluster s k = false →
       combSlots s k (combTag s q) cl + macroSlots s k (combTag s q) + q.len ≤ 4096 →
       ∃ t, exec (.buildStart k) s = .next t ∧ (t.cluster k).building = put 0 n cl.building ∧ (t.cluster k).queue = rest ∧
         look q n (t.cluster k).combs = { q with
           st := .building, pairs := combPairs q.bitmap, readyAt := s.now + 32 + (q.nnz + 3) / 4 } ∧ t.cores = s.cores) ∧
     (∀ b, cl.building = [(b, n)] → cl.combs.find? (fun p => p.1 == n) = some (n, q) → q.readyAt ≤ s.now →
       ∃ t, exec (.buildEnd k) s = .next t ∧ (t.cluster k).building = [] ∧
         (q.drop = false → look q n (t.cluster k).combs = { q with st := .ready, lastUse := s.now } ∧
           ∀ r ∈ q.reqs, (t.core r.1).latch = true) ∧
         (q.drop = true → (t.cluster k).combs = drop n cl.combs ∧ t.cores = s.cores))) ∧
  (∀ (s : State) (c : Core) (d : BitVec 5) (b : BitVec 3) (q : Nat × Comb), IssuesPlain s c →
     let k := s.cur / 8
     let x := c.ctx.getD 0
     let w := cbqWord s s.cur
     exec (.cbq d) s = .next (s.completed (c.landG s.now d w) (.cbq d) .next) ∧
     (c.binding.bound = false ∨ (∀ p, bindingComb s s.cur = some p → p.st = .ready) →
       exec (.cbwait d) s = .next (s.completed (c.landG s.now d w) (.cbwait d) .next)) ∧
     (c.binding.bound = true → c.binding.stale = false → bindingComb s s.cur = some q.2 → q.2.st ≠ .ready →
       exec (.cbwait d) s = .next (s.setCore s.cur { c with wait := .stall, held := some (.cbwait d), readyAt := s.now + 1 })) ∧
     (c.binding.bound = false → c.binding.stale = false → c.sparse = none → c.binding.nnz = 0 → w = 0) ∧
     ∀ i ∈ [(Instr.cbinv b, fun (e : Comb) => e.path == c.readA b), (.cbinvAll, fun _ => true)],
       ∃ t, exec i.1 s = .next t ∧ t.core s.cur = c.finish s.now i.1 .next ∧
         (q ∈ (s.cluster k).combs → q.2.ctx = x → i.2 q.2 = true → q.2.st = .queued ∨ q.2.st = .ready ∧ q.2.pins = 0 →
           q ∉ (t.cluster k).combs) ∧
         (q ∈ (s.cluster k).combs → q.2.ctx = x → i.2 q.2 = true → q.2.st = .building ∨ q.2.st = .ready ∧ q.2.pins ≠ 0 →
           (q.1, { q.2 with drop := true }) ∈ (t.cluster k).combs) ∧
         (q ∈ (s.cluster k).combs → q.2.ctx ≠ x ∨ i.2 q.2 = false → q ∈ (t.cluster k).combs))

/-- 05 R105; 08 R196, R206, R214 to R216: tree records reach a cluster's cache, a rehash ends after its cycles, results land, and
a core's local memory enters and leaves retention, which takes 2,048 cycles each way. -/
def Obligations.LocalMemoryEvents : Prop :=
  ∀ (s : State) (id k x h t : Nat) (c : Core), s.core id = c →
    ((x, h) ∈ (s.cluster k).fills → ∃ u, exec (.treeRecordFill k x h) s = .next u ∧ (x, h) ∈ (u.cluster k).cached ∧
      (x, h) ∉ (u.cluster k).fills ∧ u.cores = s.cores) ∧
    (c.rehashAt = some t → t ≤ s.now → exec (.bankhashRehashComplete id) s = .next (s.setCore id { c with rehashAt := none })) ∧
    exec (.resultLands id) s = .next (s.setCore id (c.landDue s.now)) ∧
    (mayRetain s id = true →
      exec (.retentionEntry id) s = .next (s.setCore id { c with retention := .entering (s.now + 2048) })) ∧
    (mayRetain s id = false → exec (.retentionEntry id) s = .next s) ∧
    (c.retention = .entering t → t ≤ s.now →
      exec (.retentionEntryComplete id) s = .next (s.setCore id { c with retention := .retained })) ∧
    (c.retention = .retained →
      exec (.retentionExit id) s = .next (s.setCore id { c with retention := .exiting (s.now + 2048) })) ∧
    (c.retention = .exiting t → t ≤ s.now →
      exec (.retentionExitComplete id) s = .next (s.setCore id { c with retention := .awake }))

/-- 09 R222, R227: CPY opens a channel's record with its length and element count and starts to move, or waits for the copies it
conflicts with; with its restart bit it takes up the matching record where it stopped. DEAL does the same for its targets. 09
R227, R233; 08 R198: where CPY and DEAL stop, in this order, with no record opened: a local range that leaves local memory or
RES_LOCAL or is not aligned, which a block that is too long does; a deal whose pattern or whose targets are not allowed; a
malformed path, a tree without scales (7), a split beyond the tree (10), pieces that are too small (8), a restart without its
record (9). Where R227's checks stand among those of R233 is the model's choice (log 82). 09 R222, R224, R225, R228, R229,
R231: CPAT sets the pattern, its reserved bits 0 (00 R9); CPYR waits for the write pointer, or raises the record's fault;
CPYQ reads the record; CPYX cancels a copy under way or a faulted one. 09 R218, R222, R223; 10 R254: a beat of a copy moves
up to 32 bytes of the block, in address order, and advances the write pointer; the last one ends the copy. A page not present
stalls it, a refused access faults it with nothing moved, and a waiting copy starts once its predecessors have ended. A beat
whose target does not take it in this cycle leaves the copy MOVING; one that reaches a core of another partition is discarded
there (13 R313; that the copy counts it as moved is the model's choice, log 82). Work that an acquire ordered first holds a
beat back (16 R360). -/
def Obligations.CopiesMoveData : Prop :=
  (∀ (s : State) (c : Core) (d b : BitVec 5) (a : BitVec 3) (sc o : BitVec 1) (t : Tree), IssuesPlain s c →
     let n := (c.readG d).toNat % 128
     let p := c.readA a
     let l := (c.readG b).toNat
     let y := c.channel n
     let ready := c.localDone = true ∧ c.acquiring = false ∧ y.active = false ∧
       (c.ctx.getD 0, pHandle p) ∈ (s.cluster (s.cur / 8)).cached ∧ checkPath s (c.ctx.getD 0) p = .ok t
     let fits (len : Nat) := l % 32 = 0 ∧ l + len ≤ 0x8000 ∧ l + len ≤ c.resLocal.toNat
     (let len := (pathRange t p (sc == 1)).2
      ready → fits len → len ≤ 32768 → (sc = 1 → t.scaled = true) →
       (∃ u, exec (.cpy d a b sc 0 o) s = .next u ∧
         let k := u.core s.cur
         let x := k.channel n
         x.deal = false ∧ x.dir = (o == 1) ∧ x.scales = (sc == 1) ∧ x.path = p ∧ x.laddr = l ∧ x.len = len ∧ x.wp = 0 ∧ x.prog = 0 ∧
         x.total = (if sc = 1 then len else 4 ^ (t.depth - pDepth p)) ∧ x.cause = 0 ∧ x.serial = c.serial + 1 ∧
         x.st = (if x.edges.isEmpty then .moving else .waiting) ∧ (c.channels = [] → x.edges = []) ∧
         k.serial = c.serial + 1 ∧ k.pc = (c.finish s.now (.cpy d a b sc 0 o) .next).pc ∧ k.g = c.g ∧ k.mem = c.mem ∧ u.hbm = s.hbm ∧
         (∀ m, m ≠ n → k.channel m = c.channel m) ∧ ∀ m, m ≠ s.cur → u.core m = s.core m) ∧
       (y.matching false (o == 1) (sc == 1) p l = true → ∃ u, exec (.cpy d a b sc 1 o) s = .next u ∧
         let x := (u.core s.cur).channel n
         x.wp = y.wp ∧ x.prog = y.prog ∧ x.len = y.len ∧ x.serial = y.serial ∧ x.cause = 0 ∧
         x.st = (if x.edges.isEmpty then .moving else .waiting)) ∧
       (y.matching false (o == 1) (sc == 1) p l = false → exec (.cpy d a b sc 1 o) s = .next (s.takeTrap s.cur
         ⟨0x04, 9, p.setWidth 32, (p >>> 32).setWidth 32, 0⟩ c.pc))) ∧
     (let w := c.pattern
      let len := (pathRange t p false).2
      let piece := len / 4 ^ patSplit w
      ready → patScope w ≤ 1 → patFirst w + patCount w ≤ (if patScope w = 0 then 8 else 256) →
       (∀ k ∈ dealCores s s.cur w, dealTarget s (c.ctx.getD 0) k = true) → len ≤ 2 ^ 23 → pDepth p + patSplit w ≤ t.depth →
       32 ≤ piece → piece % 32 = 0 → fits (dealSpan w piece) →
       ∃ u, exec (.deal d a b 0) s = .next u ∧
         let x := (u.core s.cur).channel n
         x.deal = true ∧ x.dir = false ∧ x.scales = false ∧ x.path = p ∧ x.laddr = l ∧ x.pattern = w ∧ x.len = len ∧ x.wp = 0 ∧
         x.total = 4 ^ (t.depth - pDepth p) ∧ x.st = (if x.edges.isEmpty then .moving else .waiting) ∧
         (u.core s.cur).pc = (c.finish s.now (.deal d a b 0) .next).pc ∧ ∀ m, m ≠ s.cur → u.core m = s.core m)) ∧
  (∀ (s : State) (c : Core) (d b : BitVec 5) (a : BitVec 3) (sc r o : BitVec 1) (t : Tree) (reason len : Nat), IssuesPlain s c →
     let n := (c.readG d).toNat % 128
     let p := c.readA a
     let l := (c.readG b).toNat
     let x := c.ctx.getD 0
     let traps (i : Instr) (cause : BitVec 8) (t0 t1 t2 : Nat) := exec i s =
       .next (s.takeTrap s.cur ⟨cause, BitVec.ofNat 32 t0, BitVec.ofNat 32 t1, BitVec.ofNat 32 t2, 0⟩ c.pc)
     let path (i : Instr) (k : Nat) := exec i s =
       .next (s.takeTrap s.cur ⟨0x04, BitVec.ofNat 32 k, p.setWidth 32, (p >>> 32).setWidth 32, 0⟩ c.pc)
     let fits (n : Nat) := l + n ≤ 0x8000 ∧ l + n ≤ c.resLocal.toNat ∧ l % 32 = 0
     let range (i : Instr) (n : Nat) := (0x8000 < l + n → traps i 0x06 (max l 0x8000) 9 0) ∧
       (l + n ≤ 0x8000 → c.resLocal.toNat < l + n → traps i 0x02 3 (max l c.resLocal.toNat) c.resLocal.toNat) ∧
       (l + n ≤ 0x8000 → l + n ≤ c.resLocal.toNat → l % 32 ≠ 0 → traps i 0x03 l 32 0)
     c.localDone = true → c.acquiring = false → (c.channel n).active = false → (x, pHandle p) ∈ (s.cluster (s.cur / 8)).cached →
     (let i := Instr.cpy d a b sc r o
      (checkPath s x p = .error reason → range i 32 ∧ (fits 32 → path i reason)) ∧
      (checkPath s x p = .ok t → len = (pathRange t p (sc == 1)).2 → range i len ∧
        (fits len → sc = 1 → t.scaled = false → path i 7) ∧
        (fits len → (sc = 1 → t.scaled = true) → r = 1 → (c.channel n).matching false (o == 1) (sc == 1) p l = false → path i 9))) ∧
     (let i := Instr.deal d a b 0
      let w := c.pattern
      let allowed := patScope w ≤ 1 ∧ patFirst w + patCount w ≤ (if patScope w = 0 then 8 else 256) ∧
        ∀ k ∈ dealCores s s.cur w, dealTarget s x k = true
      (checkPath s x p = .error reason → range i 32 ∧ (fits 32 → ¬allowed → traps i 0x06 w.toNat 10 0) ∧
        (fits 32 → allowed → path i reason)) ∧
      (checkPath s x p = .ok t → len = (pathRange t p false).2 →
        let piece := if pDepth p + patSplit w ≤ t.depth then len / 4 ^ patSplit w else 0
        let good := 32 ≤ piece ∧ piece % 32 = 0
        let span := if good then dealSpan w piece else 32
        range i span ∧ (fits span → ¬allowed → traps i 0x06 w.toNat 10 0) ∧
        (fits span → allowed → len ≤ 2 ^ 23 → t.depth < pDepth p + patSplit w → path i 10) ∧
        (fits span → allowed → len ≤ 2 ^ 23 → pDepth p + patSplit w ≤ t.depth → ¬good → path i 8) ∧
        (fits span → allowed → len ≤ 2 ^ 23 → good → (c.channel n).matching true false false p l = false → path (.deal d a b 1) 9)))) ∧
  (∀ (s : State) (c : Core) (d a b : BitVec 5) (sel : BitVec 5), IssuesPlain s c →
     let n := (c.readG a).toNat % 128
     let w := (c.readG b).toNat
     let x := c.channel n
     exec (.cpat a) s = .next (s.completed { c with pattern := c.readG a &&& 0xF8FFFFFF } (.cpat a) .next) ∧
     (c.predFault x = none → (x.st ≠ .faulted ∧ x.active = false) ∨ w ≤ x.wp →
       exec (.cpyr d a b) s = .next (s.completed (c.landG s.now d (BitVec.ofNat 32 x.wp)) (.cpyr d a b) .next)) ∧
     (c.predFault x = none → x.active = true → x.wp < w → exec (.cpyr d a b) s = .next (s.setCore s.cur
       { c with wait := .stall, held := some (.cpyr d a b), readyAt := s.now + 1 })) ∧
     (x.st = .faulted → x.wp < w → exec (.cpyr d a b) s = .next (s.takeTrap s.cur
       ⟨x.cause, x.fpath.setWidth 32, (x.fpath >>> 32).setWidth 32, BitVec.ofNat 32 n, BitVec.ofNat 32 x.prog⟩ c.pc)) ∧
     exec (.cpyq d a sel) s = .next (s.completed (c.landG s.now d (cpyqWord c n sel.toNat)) (.cpyq d a sel) .next) ∧
     cpyqWord c n 1 = BitVec.ofNat 32 x.wp ∧ cpyqWord c n 2 = BitVec.ofNat 32 x.prog ∧
     cpyqWord c n 3 = x.fpath.setWidth 32 ∧ cpyqWord c n 4 = (x.fpath >>> 32).setWidth 32 ∧
     (c.predFault x = none → (cpyqWord c n 0).toNat = copyCode x.st * 2 ^ 29 + (if x.deal then 2 ^ 28 else 0) +
       (if x.dir then 2 ^ 27 else 0) + (if x.scales then 2 ^ 26 else 0) + x.cause.toNat * 2 ^ 16) ∧
     (x.active = true → exec (.cpyx a) s =
       .next (s.completed { c.setChannel n { x with st := .cancelled } with latch := true } (.cpyx a) .next)) ∧
     (x.st = .faulted → exec (.cpyx a) s =
       .next (s.completed (c.setChannel n { x with st := .cancelled }) (.cpyx a) .next)) ∧
     (x.active = false → x.st ≠ .faulted → exec (.cpyx a) s = .next (s.completed c (.cpyx a) .next))) ∧
  (∀ (s : State) (id n : Nat) (c : Core) (t : Tree) (bs : List Byte) (q : State) (cause : BitVec 8) (lo len : Nat),
     s.core id = c → c.still = false →
     let x := c.channel n
     let k := min 32 (x.len - x.wp)
     let o := (pathRange t x.path x.scales).1 + x.wp
     let base := (if x.scales then t.sbase else t.base) + o
     let moves := s.marks = [] ∧ forwardHeld s (c.ctx.getD 0) ((globalSpan s c x).2.1 + x.wp) = false ∧ (x.st = .moving ∨ x.st = .stalled) ∧ x.readyAt ≤ s.now ∧ x.wp < x.len ∧
       treeAt s (c.ctx.getD 0) (pHandle x.path) = some t ∧ (∀ i < k, byteOutside t x.scales (o + i) = false) ∧
       orderHeld s { c with channels := drop n c.channels } x.after ((globalSpan s c x).2.1 + x.wp) k = false
     let takes := s.delivery id (x.laddr + x.wp) k
     let source := readGlobal s (c.ctx.getD 0) c.tag (dieOf id) ((List.range k).map (base + ·))
     let sink := writeGlobal s (c.ctx.getD 0) c.tag (some (dieOf id)) ((List.range k).map fun i => (base + i, readByte c.mem (x.laddr + x.wp + i)))
     let moved (y : Channel) := y.wp = x.wp + k ∧ (x.wp + k < x.len → y.st = .moving) ∧
       (x.wp + k = x.len → y.st = .done ∧ y.prog = x.total)
     (moves → x.dir = false → x.deal = false → source = .bytes bs q → bs.length = k → q.cores = s.cores → tagOf s id = c.tag →
       takes.1 = true → memWf c.mem = true →
       ∃ u, exec (.copyBeat id n) s = .next u ∧ moved ((u.core id).channel n) ∧ (u.core id).latch = true ∧ u.hbm = q.hbm ∧
         (∀ i < k, some (readByte (u.core id).mem (x.laddr + x.wp + i)) = bs[i]?) ∧
         ∀ y, y < x.laddr + x.wp ∨ x.laddr + x.wp + k ≤ y → readByte (u.core id).mem y = readByte c.mem y) ∧
     (moves → x.dir = false → x.deal = false → source = .bytes bs q → q.cores = s.cores → tagOf s id = c.tag →
       takes.1 = false → ∃ u, exec (.copyBeat id n) s = .next u ∧ (u.core id).channel n = { x with st := .moving } ∧
         (u.core id).mem = c.mem) ∧
     (moves → x.dir = false → x.deal = false → source = .bytes bs q → q.cores = s.cores → tagOf s id ≠ c.tag →
       ∃ u, exec (.copyBeat id n) s = .next u ∧ moved ((u.core id).channel n) ∧ (u.core id).mem = c.mem ∧
         (u.func adminFunc).note.kind = 5) ∧
     (moves → x.dir = true → x.deal = false → (∀ w ∈ c.memBad, 4 * w + 4 ≤ x.laddr + x.wp ∨ x.laddr + x.wp + k ≤ 4 * w) →
       sink = .bytes [] q → q.cores = s.cores →
       ∃ u, exec (.copyBeat id n) s = .next u ∧ moved ((u.core id).channel n) ∧ u.hbm = q.hbm ∧ (u.core id).mem = c.mem) ∧
     (moves → x.dir = false → x.deal = false → source = .stall q → q.cores = s.cores → ∃ u, exec (.copyBeat id n) s = .next u ∧
       (u.core id).channel n = { x with st := .stalled } ∧ (u.core id).mem = c.mem) ∧
     (moves → x.dir = false → x.deal = false → source = .fault cause lo len q → q.cores = s.cores →
       ∃ u p, exec (.copyBeat id n) s = .next u ∧ (u.core id).channel n = { x with st := .faulted, cause := cause, fpath := p } ∧
         (u.core id).mem = c.mem ∧ (u.core id).latch = true) ∧
     (x.st = .waiting → x.edges.any c.edgeHolds = false → ∃ u, exec (.copyBeat id n) s = .next u ∧
       ((u.core id).channel n).st = .moving ∧ ((u.core id).channel n).edges = [] ∧ (u.core id).mem = c.mem))

/-- 09 R234 to R236: GATH and SCAT take the lowest free ticket with the list, and for a scatter the data, as they stand; GWAIT
waits for every entry, frees the ticket, and gives the count or raises the failing entry of lowest position. A list of no
entries is complete at once, which is an event (05 R134). 09 R235; 08 R198: where GATH and SCAT stop, in this order, with no
ticket taken: a list of more than 4,096 entries; a list, then a data range, that leaves local memory or RES_LOCAL or is not
aligned; a malformed path, or granules that are no words (8). 09 R235: an entry of a gather brings its granule, all of it, to
its place in local memory and ends; an entry of a scatter writes its granule; an entry beyond the tree fails and moves
nothing. -/
def Obligations.GathersServeLists : Prop :=
  (∀ (s : State) (c : Core) (d b n : BitVec 5) (a : BitVec 3) (t : Tree) (k : Nat) (tk : Ticket) (f : TicketFail), IssuesPlain s c →
     let p := c.readA a
     let cnt := (c.readG n).toNat
     let listAt := (c.readG b).toNat % 65536
     let dataAt := (c.readG b).toNat / 65536
     let g := (pathRange t p false).2
     (c.localDone = true → c.acquiring = false → c.freeTicket = some k → cnt ≤ 4096 →
       (c.ctx.getD 0, pHandle p) ∈ (s.cluster (s.cur / 8)).cached → checkPath s (c.ctx.getD 0) p = .ok t → g % 4 = 0 →
       (t.fmt = 8 → 32 ≤ 4 ^ (t.depth - pDepth p)) → listAt % 4 = 0 → listAt + 4 * cnt ≤ 0x8000 →
       listAt + 4 * cnt ≤ c.resLocal.toNat → dataAt % 4 = 0 → dataAt + cnt * g ≤ 0x8000 →
       dataAt + cnt * g ≤ c.resLocal.toNat → c.memBad = [] →
       ∀ i ∈ [(Instr.gath d a b n, false), (.scat d a b n, true)],
         let made : Ticket := { scat := i.2, path := p, list := (List.range cnt).map fun j => readWord c.mem (listAt + 4 * j),
                                data := if i.2 then readBytes c.mem dataAt (cnt * g) else [], dataAt := dataAt, gran := g,
                                todo := List.range cnt, fails := [], stamp := c.serial + 1, after := c.ordered,
                                sentAt := s.now }
         let took : Core := { c with tickets := put k made c.tickets, serial := c.serial + 1, latch := c.latch || decide (cnt = 0) }
         exec i.1 s = .next (s.completed (took.landG s.now d (BitVec.ofNat 32 k)) i.1 .next)) ∧
     (k < 8 → (c.readG b).toNat = k → c.tickets.find? (fun q => q.1 == k) = some (k, tk) →
       (tk.todo ≠ [] → exec (.gwait d b) s = .next (s.setCore s.cur
         { c with wait := .stall, held := some (.gwait d b), readyAt := s.now + 1 })) ∧
       (tk.todo = [] → tk.fails = [] → exec (.gwait d b) s = .next (s.completed
         (({ c with tickets := drop k c.tickets } : Core).landG s.now d (BitVec.ofNat 32 tk.list.length)) (.gwait d b) .next)) ∧
       (tk.todo = [] → tk.fails = [f] → exec (.gwait d b) s =
         .next ((s.setCore s.cur { c with tickets := drop k c.tickets }).takeTrap s.cur
           ⟨f.cause, f.fpath.setWidth 32, (f.fpath >>> 32).setWidth 32, BitVec.ofNat 32 (256 + k), BitVec.ofNat 32 f.pos⟩ c.pc))) ∧
     (c.tickets = [] → exec (.gwait d b) s = .next (s.completed (c.landG s.now d 0) (.gwait d b) .next))) ∧
  (∀ (s : State) (c : Core) (d b n : BitVec 5) (a : BitVec 3) (t : Tree) (k reason : Nat), IssuesPlain s c →
     let p := c.readA a
     let x := c.ctx.getD 0
     let cnt := (c.readG n).toNat
     let listAt := (c.readG b).toNat % 65536
     let dataAt := (c.readG b).toNat / 65536
     c.localDone = true → c.acquiring = false → c.freeTicket = some k → (x, pHandle p) ∈ (s.cluster (s.cur / 8)).cached →
     ∀ i ∈ [Instr.gath d a b n, .scat d a b n],
     let traps (cause : BitVec 8) (t0 t1 t2 : Nat) := exec i s =
       .next (s.takeTrap s.cur ⟨cause, BitVec.ofNat 32 t0, BitVec.ofNat 32 t1, BitVec.ofNat 32 t2, 0⟩ c.pc)
     let path (k : Nat) := exec i s =
       .next (s.takeTrap s.cur ⟨0x04, BitVec.ofNat 32 k, p.setWidth 32, (p >>> 32).setWidth 32, 0⟩ c.pc)
     let fits (l n : Nat) := l + n ≤ 0x8000 ∧ l + n ≤ c.resLocal.toNat ∧ l % 4 = 0
     let range (l n : Nat) := (0x8000 < l + n → traps 0x06 (max l 0x8000) 9 0) ∧
       (l + n ≤ 0x8000 → c.resLocal.toNat < l + n → traps 0x02 3 (max l c.resLocal.toNat) c.resLocal.toNat) ∧
       (l + n ≤ 0x8000 → l + n ≤ c.resLocal.toNat → l % 4 ≠ 0 → traps 0x03 l 4 0)
     (4096 < cnt → traps 0x02 6 cnt 4096) ∧
     (cnt ≤ 4096 → range listAt (4 * cnt)) ∧
     (cnt ≤ 4096 → fits listAt (4 * cnt) → checkPath s x p = .error reason → range dataAt (4 * cnt) ∧
       (fits dataAt (4 * cnt) → path reason)) ∧
     (cnt ≤ 4096 → fits listAt (4 * cnt) → checkPath s x p = .ok t →
       let g := (pathRange t p false).2
       range dataAt (cnt * g) ∧ (fits dataAt (cnt * g) → g % 4 ≠ 0 ∨ t.fmt = 8 ∧ 4 ^ (t.depth - pDepth p) < 32 → path 8))) ∧
  (∀ (s : State) (id k j : Nat) (c : Core) (tk : Ticket) (t : Tree) (bs : List (Nat × Byte)) (q : State),
     s.core id = c → c.tickets.find? (fun p => p.1 == k) = some (k, tk) → j ∈ tk.todo →
     treeAt s (c.ctx.getD 0) (pHandle tk.path) = some t →
     (tk.scat = true → ∀ i ∈ tk.todo, i < j → tk.list.getD i 0 ≠ tk.list.getD j 0) → s.marks = [] →
     forwardHeld s (c.ctx.getD 0) (granuleSpan s c tk j).1 = false →
     orderHeld s { c with tickets := drop k c.tickets } tk.after (granuleSpan s c tk j).1 (granuleSpan s c tk j).2 = false →
     let n := 4 ^ (t.depth - pDepth tk.path)
     let m := pIndex tk.path + (tk.list.getD j 0).toNat * n
     let o := (pathRange t (mkPath (pHandle tk.path) (pDepth tk.path) m) false).1
     let a := tk.dataAt + j * tk.gran
     (4 ^ t.depth ≤ m → ∃ u, exec (.gatherEntry id k j) s = .next u ∧ (u.core id).mem = c.mem ∧ u.hbm = s.hbm ∧
       (look tk k (u.core id).tickets).fails = tk.fails ++ [⟨j, 0x04, tk.path⟩] ∧
       (look tk k (u.core id).tickets).todo = tk.todo.filter (· != j)) ∧
     (m < 4 ^ t.depth → tk.scat = false →
       readGranule (c.ctx.getD 0) c.tag (dieOf id) t o tk.gran ((tk.gran + 31) / 32) 0 s = .bytes bs q → q.cores = s.cores →
       tagOf s id = c.tag → (s.delivery id a tk.gran).1 = true → ∃ u, exec (.gatherEntry id k j) s = .next u ∧
         (u.core id).mem = (c.storeAt (bs.map fun b => (a + b.1, b.2))).mem ∧ u.hbm = q.hbm ∧
         (look tk k (u.core id).tickets).todo = tk.todo.filter (· != j) ∧
         (look tk k (u.core id).tickets).fails = tk.fails) ∧
     (m < 4 ^ t.depth → tk.scat = true → writeHeld s (c.ctx.getD 0) c.tag (dieOf id) t o tk.gran = none →
       writeGranule (c.ctx.getD 0) c.tag (dieOf id) t o tk.gran ((tk.data.drop (j * tk.gran)).take tk.gran) ((tk.gran + 31) / 32) 0 s =
         .bytes [] q → q.cores = s.cores → ∃ u, exec (.gatherEntry id k j) s = .next u ∧ u.hbm = q.hbm ∧ (u.core id).mem = c.mem ∧
         (look tk k (u.core id).tickets).todo = tk.todo.filter (· != j)))

/-- 10 R239, R241, R243, R245, R246; 21 R444: what a translation answers once its walk has ended: the frame's address where the
entry permits the access, a stall on a page that is on demand, a refusal, or the range of the entry that is not valid; an
entry that cannot be read, where the walk meets one; and that table entries are read back as written. 10 R246, R261, R262; 16
R358; 21 R444, R449: an access that translates reads and writes the bytes of its frame and no other, marks the unit written
dirty, and reads a die's own copy of a replicated page, every one of which a write reaches in service mode; a failing check
moves nothing; an access that does not translate takes the fault of its entry. 20 R437; 10 R246, R261: an access of a peer
module that a window forwards here is one of the context that the window names, by no core of this module: a read leaves
memory as it is, a write changes the bytes it names and no other. -/
def Obligations.TranslationAndAccess : Prop :=
  ((∀ (s : State) (x tag va e pa l : Nat) (bad : Option Nat) (a : Access),
     let size := 2 ^ 17 * 4 ^ bitsOf e 41 4
     let frame := bitsOf e 17 24 * 2 ^ 17
     let allowed := (a = .read → bitsOf e 2 1 = 1) ∧ (a = .write → bitsOf e 3 1 = 1) ∧
       (a = .atomic → bitsOf e 2 1 = 1 ∧ bitsOf e 3 1 = 1) ∧ (a = .fetch → bitsOf e 4 1 = 1) ∧
       (bitsOf e 53 1 = 1 → bitsOf e 54 10 = tag)
     (walkSpoilt s x va = some pa → translate s x tag va a = .spoilt pa) ∧
     (s.hbmBad = [] → s.parcelBad = [] → walkSpoilt s x va = none) ∧
     (walkSpoilt s x va = none →
     (walk s x va = .invalid l bad →
       translate s x tag va a = .unmapped (va - va % (2 ^ 17 * 64 ^ (5 - l))) (2 ^ 17 * 64 ^ (5 - l)) bad) ∧
     (walk s x va = .leaf e pa → leafState e = some .demand → translate s x tag va a = .stall (va - va % size) .demand) ∧
     (walk s x va = .leaf e pa → leafState e = some .requested → translate s x tag va a = .stall (va - va % size) .requested) ∧
     (walk s x va = .leaf e pa → leafState e ≠ some .demand → leafState e ≠ some .requested → allowed →
       translate s x tag va a = .ok (frame + va % size) e) ∧
     (walk s x va = .leaf e pa → leafState e ≠ some .demand → leafState e ≠ some .requested → ¬allowed →
       translate s x tag va a = .denied (va - va % size) size))) ∧
   ∀ (s : State) (p e : Nat), memWf s.hbm = true → e < 2 ^ 64 → readEntry (writeEntry s p e) p = e ∧
     ∀ q, q + 8 ≤ p ∨ p + 8 ≤ q → readEntry (writeEntry s p e) q = readEntry s q) ∧
  (∀ (s : State) (x tag d va pa e n : Nat) (bs : List Byte), 0 < n → bs.length = n →
     pa % 2 ^ 36 + n ≤ 2 ^ 36 → (∀ i < n, (windowAt s x (va + i)).map Prod.fst = (windowAt s x va).map Prod.fst) →
     let vas := (List.range n).map (va + ·)
     let from' := if leafState e = some .replicated then (2 * d + pa / 2 ^ 36 % 2) * 2 ^ 36 + pa % 2 ^ 36 else pa
     (reach s x tag va .read = .here x pa e → s.rangeGood from' n = true →
       readGlobal s x tag d vas = .bytes ((List.range n).map fun i => readByte s.hbm (from' + i)) s) ∧
     (reach s x tag va .read = .here x pa e → s.rangeGood from' n = false →
       ∃ q, readGlobal s x tag d vas = .fault 0x0B 0 0 q ∧ q.hbm = s.hbm ∧ q.cores = s.cores) ∧
     (reach s x tag va .write = .here x pa e → leafState e ≠ some .replicated →
       s.rangeGood (parcels pa n).1 (parcels pa n).2 = true → memWf s.hbm = true →
       ∃ q, writeGlobal s x tag (some d) (vas.zip bs) = .bytes [] q ∧ q.cores = s.cores ∧
         (∀ i < n, some (readByte q.hbm (pa + i)) = bs[i]?) ∧
         (∀ y, y < pa ∨ pa + n ≤ y → readByte q.hbm y = readByte s.hbm y) ∧ ∀ i < n, (pa + i) / 2 ^ 17 ∈ q.dirty) ∧
     (reach s x tag va .write = .here x pa e → leafState e = some .replicated → s.mode = .service → copiesGood s pa e n = true →
       memWf s.hbm = true → ∃ q, writeGlobal s x tag (some d) (vas.zip bs) = .bytes [] q ∧
         ∀ m < 16, ∀ i < n, some (readByte q.hbm ((2 * m + pa / 2 ^ 36 % 2) * 2 ^ 36 + pa % 2 ^ 36 + i)) = bs[i]?) ∧
     (∀ lo len bad, (reach s x tag va .write = .denied lo len → writeGlobal s x tag (some d) (vas.zip bs) = .fault 0x06 lo len s) ∧
       (reach s x tag va .write = .unmapped lo len bad →
         writeGlobal s x tag (some d) (vas.zip bs) = .fault 0x05 lo len (s.tableError bad)) ∧
       (reach s x tag va .read = .denied lo len → readGlobal s x tag d vas = .fault 0x06 lo len s) ∧
       (reach s x tag va .read = .unmapped lo len bad → readGlobal s x tag d vas = .fault 0x05 lo len (s.tableError bad))) ∧
     ∀ y page st p, (reach s x tag va .read = .stall y page st → readGlobal s x tag d vas = .stall (s.requestFrom d y page st)) ∧
       (reach s x tag va .read = .spoilt p → readGlobal s x tag d vas = .fault 0x0B 0 0 (s.clearMarks p 8))) ∧
  (∀ (s : State) (x va pa e n : Nat) (bs : List Byte), 0 < n → bs.length = n → pa % 2 ^ 36 + n ≤ 2 ^ 36 →
     leafState e ≠ some .replicated →
     let tag := (s.ctx x).tag
     (reach s x tag va .read = .here x pa e → s.rangeGood pa n = true → execPeerAccess x va n none s = .next s) ∧
     (reach s x tag va .write = .here x pa e → s.rangeGood (parcels pa n).1 (parcels pa n).2 = true → memWf s.hbm = true →
       ∃ q, execPeerAccess x va n (some bs) s = .next q ∧ q.cores = s.cores ∧
         (∀ i < n, some (readByte q.hbm (pa + i)) = bs[i]?) ∧
         ∀ y, y < pa ∨ pa + n ≤ y → readByte q.hbm y = readByte s.hbm y))

/-- 01 R12; 10 R245, R249 to R253, R258: the life of a request: an access that meets a page on demand posts it or waits for an
entry, one from a compute die first for the 12 cycles of each crossing to its I/O die; further accesses join it; the oldest
waiting request is admitted first; functions are served in turn; a served request makes the page resident, with its contents;
a refused one leaves it UNMAPPED. 10 R245, R248, R261: a shootdown completes once no atomic waits on its frames, zeroing the
frames it frees; replication copies the page to the other dies and its end shoots the copies down; a narrower permission
takes a shootdown, a wider one does not. -/
def Obligations.PagesComeAndGo : Prop :=
  (∀ (s : State) (x va frame die k : Nat) (b : Bool) (r : PageReq) (p : List Host.Cell) (q : State),
     (let older := s.waiting.find? fun r => reqDie r.func == reqDie (s.ctx x).func && admissible s r
      let joins := s.waiting.any fun r => r.ctx == x && r.va == va
      older = none →
       (onDemand s x va = true → joins = false → freeEntry s (s.ctx x).func = some b →
         (s.requestPage x va .demand).requests = s.requests ++ [⟨x, va, (s.ctx x).func, b, s.now⟩]) ∧
       (onDemand s x va = true → joins = false → freeEntry s (s.ctx x).func = none →
         s.requestPage x va .demand = { s with waiting := s.waiting ++ [⟨x, va, (s.ctx x).func, false, s.now⟩] }) ∧
       (onDemand s x va = true → joins = true → s.requestPage x va .demand = { s with waiting := s.waiting.map fun r =>
         if r.ctx == x && r.va == va then { r with dueAt := min r.dueAt s.now } else r }) ∧
       (onDemand s x va = false → s.requestPage x va .demand = s) ∧
       (onDemand s x va = true → joins = false → s.requestFrom die x va .demand = { s with waiting := s.waiting ++
         [⟨x, va, (s.ctx x).func, false, s.now + 12 * ioCrossings die (reqDie (s.ctx x).func)⟩] })) ∧
     s.requestPage x va .requested = s ∧
     (s.waiting.find? (fun r => reqDie r.func == die && admissible s r) = some r → onDemand s r.ctx r.va = true →
       freeEntry s r.func = some b → ∃ t, exec (.pageRequestAdmit die) s = .next t ∧ t.waiting.Sublist (s.waiting.erase r) ∧
         (s.requests ++ [{ r with reserved := b }]) <+: t.requests ∧ t.cores = s.cores) ∧
     (s.waiting.find? (fun r => reqDie r.func == die && admissible s r) = none → exec (.pageRequestAdmit die) s = .next s) ∧
     ((s.ctx x).mapped.find? (fun m => m.1 == va) = some (va, k) → leafState (entryOf s x va) = some .requested →
       servedNext s x va = true → withinQuota s x (4 ^ k) = true → frameFree s frame k = true →
       s.shoot.any (fun d => d.ctx == x && d.va == va) = false → codePage s x va = none → requestData s x va k = .cells p →
       ((({ s with lastServed := (s.ctx x).func } : State).dropRequests x va).pastePhys frame (pageSize k) p).mapResident x va k frame (bitsOf (entryOf s x va) 2 1 == 1)
         (bitsOf (entryOf s x va) 3 1 == 1) (bitsOf (entryOf s x va) 4 1 == 1) false = some q →
       exec (.pageRequestComplete x va frame) s = .next q) ∧
     ((s.ctx x).mapped.find? (fun m => m.1 == va) = some (va, k) → leafState (entryOf s x va) = some .requested →
       servedNext s x va = true → refusable s x va k = true → exec (.pageRequestRefuse x va) s =
         .next (({ s with lastServed := (s.ctx x).func } : State).unmapPage x va k)) ∧
     (s.dropRequests x va).requests = s.requests.filter (fun r => !(r.ctx == x && r.va == va))) ∧
  (∀ (s : State) (x va k : Nat) (d : Shootdown) (r w e part : Bool) (tag : Nat),
     (s.shoot.find? (fun d => d.ctx == x && d.va == va) = some d → shootClear s d = true → d.back = none →
       d.free = true → d.copies = false → ∃ t, exec (.shootdownComplete x va) s = .next t ∧ t.shoot = s.shoot.erase d ∧
         (∀ i < d.size, readByte t.hbm (d.frame + i) = 0) ∧
         (∀ y, y < d.frame ∨ d.frame + d.size ≤ y → readByte t.hbm y = readByte s.hbm y) ∧ t.cores = s.cores) ∧
     (s.shoot.find? (fun d => d.ctx == x && d.va == va) = some d → shootClear s d = false →
       exec (.shootdownComplete x va) s = .next s) ∧
     ((s.ctx x).mapped.find? (fun m => m.1 == va) = some (va, k) →
       let o := entryOf s x va
       let f := leafFrame o
       (leafState o = some .mapped → withinQuota s x (15 * 4 ^ k) = true →
         (((framesOf f true).filter (· != f)).all fun a => rangeFree s a (pageSize k)) = true →
         exec (.pageReplicate x va) s = .next ((((framesOf f true).filter (· != f)).foldl
           (fun r a => r.copyFrame f a (pageSize k)) s).editLeaf x va fun e => setBit e 5 1)) ∧
       (leafState o = some .replicated → ∃ t, exec (.pageEndReplication x va) s = .next t ∧
         t.hbm = ((s.landLate s.late.length).editLeaf x va fun e => setBit e 5 0).hbm ∧
         t.shoot = s.shoot ++ [⟨x, va, pageSize k, f, false, true, none⟩] ∧ t.cores = s.cores) ∧
       (leafState o = some .mapped ∨ leafState o = some .migrating →
         let b (y : Bool) : Nat := if y then 1 else 0
         let perm := setBit (setBit (setBit (setBit o 2 (b r)) 3 (b w)) 4 (b e)) 53 (b part)
         let n := perm - bitsOf perm 54 10 * 2 ^ 54 + tag % 1024 * 2 ^ 54
         let narrow := (bitsOf o 2 1 = 1 ∧ bitsOf n 2 1 = 0) ∨ (bitsOf o 3 1 = 1 ∧ bitsOf n 3 1 = 0) ∨
           (bitsOf o 4 1 = 1 ∧ bitsOf n 4 1 = 0) ∨ (bitsOf o 53 1 = 0 ∧ part = true) ∨ bitsOf o 54 10 ≠ bitsOf n 54 10
         ∃ t, exec (.pagePermissionChange x va r w e part tag) s = .next t ∧ t.hbm = (s.editLeaf x va fun _ => n).hbm ∧
           t.shoot = s.shoot ++ (if narrow then [⟨x, va, pageSize k, f, false, false, none⟩] else []))))

/-- 10 R245, R253, R262, R263; 19 R410, R411, R428: the commands on a context's pages: MAP of a resident page and of a page on
demand, UNMAP, EVICT, tracking and the harvest of dirty units, each completing with DONE and no error. 09 R237; 18 R403; 20
R432, R433: a package copy moves its bytes once source and destination can be reached and then raises the event counter its
descriptor names; it is tried again in the next cycle where a page on demand or a link that retrains stands in its way, and
moves nothing where either end is refused. That it is tried again, and what a refused one leaves, are the model's choice (log
68). The range reserved for the host is not copied to a context's space, nor to a frame of one. -/
def Obligations.MappingCommands : Prop :=
  (∀ (s : State) (f x va k frame out limit : Nat) (r w e : Bool) (q : State) (p : Nat × Nat) (g : Backing), Owns s f x →
     let c := s.ctx x
     (mappingStates c.st = true → k ≤ 8 → va < 2 ^ 53 → va % pageSize k = 0 → meetsPage s x va (pageSize k) = false →
       (withinQuota s x (4 ^ k) = true → frameFree s frame k = true →
         (s.pastePhys frame (pageSize k) []).mapResident x va k frame r w e false = some q →
         exec (.map f x va k r w e false none frame) s = .next (q.finish f 0 [])) ∧
       (s.writeLeaf x va k (leafEntry k 0 r w e true false false 1 c.tag) = some q →
         exec (.map f x va k r w e true none frame) s = .next (q.finish f 0 []))) ∧
     (mappingStates c.st = true → meetsPage s x va (pageSize k) = true ∨ va % pageSize k ≠ 0 ∨ 8 < k →
       exec (.map f x va k r w e false none frame) s = .next (s.finish f 2 [])) ∧
     (mappingStates c.st = true → pageAt s x va = some p → exec (.unmap f x va) s =
       .next ((s.unmapPage x p.1 p.2).finish f 0 [(1, 1)])) ∧
     (mappingStates c.st = true → pageAt s x va = none → exec (.unmap f x va) s = .next (s.finish f 0 [(1, 0)])) ∧
     (mappingStates c.st = true → pageAt s x va = some p → c.backings.find? (fun b => b.1 == p.1) = some (p.1, g) →
       leafState (entryOf s x p.1) = some .mapped → backingWritable s f x g (pageSize p.2) = true →
       let o := entryOf s x p.1
       s.writeLeaf x p.1 p.2 (setBit (setBit o 6 1) 7 0 - leafFrame o) = some q → exec (.evict f x va) s = .next
         (({ q with shoot := q.shoot ++ [⟨x, p.1, pageSize p.2, leafFrame o, true, false, some g⟩] } : State).finish f 0 [])) ∧
     (trackStates c.st = true → c.mapped = [p] → pageState (s.setCtx x { c with tracking := true }) x p.1 = some .mapped →
       ∃ t, exec (.trackStart f x) s = .next t ∧ (t.ctx x).tracking = true ∧ (t.func f).done = true ∧ (t.func f).err = 0 ∧
         t.dirty = (s.clearDirty (leafFrame (entryOf (s.setCtx x { c with tracking := true }) x p.1)) (pageSize p.2)).dirty) ∧
     (trackStates c.st = true → ∃ t, exec (.trackStop f x) s = .next t ∧ (t.ctx x).tracking = false ∧ (t.func f).done = true ∧
       t.dirty = s.dirty) ∧
     (c.mapped = [] → exec (.harvest f x out limit) s = .next (s.finish f 3 [])) ∧
     (c.mapped ≠ [] → hostReach s f = true →
       let us := (dirtyUnits s x).take limit
       exec (.harvest f x out limit) s = .next
         (({ s with hostMem := writeBytes s.hostMem out (us.flatMap fun u => leBytes u.1 8),
                    dirty := s.dirty.filter fun u => !((us.flatMap Prod.snd).contains u) } : State).finish f 0
           [(1, BitVec.ofNat 32 us.length)]))) ∧
  (∀ (s : State) (f x len page sig amt : Nat) (src dst : Place) (p : List Host.Cell) (q r : State) (st : PageState),
     Accepts s f →
     let move := Instr.packageCopyMove f x src dst len sig amt
     let again (q t : State) := t.inputs = (s.now + 1, Event.packageCopyMove f x src dst len sig amt) :: q.inputs ∧
       t.hostMem = s.hostMem ∧ t.cores = s.cores
     (reservedPlace s src len = true → contextPlace s dst len = true → exec move s = .next s) ∧
     (reservedPlace s src len = false ∨ contextPlace s dst len = false →
       (signalStalls s x sig amt = true → ∃ t, exec move s = .next t ∧ again (s.moveSignal x sig amt) t) ∧
       (signalStalls s x sig amt = false →
         (readPlace s f x src len = .cells p → writePlace s f x dst len p = .done q →
           exec move s = .next (q.moveSignal x sig amt)) ∧
         (readPlace s f x src len = .stall page st → ∃ t, exec move s = .next t ∧ again (s.requestPage x page st) t) ∧
         (readPlace s f x src len = .held → ∃ t, exec move s = .next t ∧ again s t) ∧
         (readPlace s f x src len = .bad → ∃ t, exec move s = .next t ∧ t.hostMem = s.hostMem ∧ t.hbm = s.hbm ∧
           t.cores = s.cores) ∧
         (readPlace s f x src len = .cells p → writePlace s f x dst len p = .bad → ∃ t, exec move s = .next t ∧
           t.hostMem = s.hostMem ∧ t.hbm = s.hbm ∧ t.cores = s.cores))) ∧
     q.moveSignal x 0 amt = q ∧
     (sig ≠ 0 → countUp q x (q.ctx x).tag sig amt = .added r → q.moveSignal x sig amt = r.counterRaised x sig))

/-- 11 R265, R268, R272, R273; 16 R360, R365; 20 R437, R438: where a scalar atomic goes, what its issue sends, and how its result
comes back: one on a window's counter closes the epoch if it releases at SYSTEM scope, whatever it computes, and is plain
otherwise; a posted one completes at its issue; any other waits until its old value has returned; one on an element outside
its tree gives 0, sends nothing and still orders as an acquire; a bad path, an unmapped page and a denied one trap; a page on
demand and an order that may not yet issue stall. 11 R273 to R277: a vector atomic sends its lanes and enters the vector
queue; the first lane that may not be sent says what happens instead, an index past the path's block, a page that is unmapped
or denied a trap with that lane, a page on demand a stall; a trap keeps the lanes before it, which are sent, and the lane to
go on from. Once its old values are back each lane inside holds the old value and each lane outside 0. -/
def Obligations.AtomicsIssueAndReturn : Prop :=
  (∀ (s : State) (c : Core) (d b : BitVec 5) (a sc : BitVec 3) (o : BitVec 2) (t : Tree) (w : AtomPlace) (reason : Nat)
     (m : Atom) (y lo len : Nat) (st : PageState) (bad : Option Nat), IssuesPlain s c →
     let x := c.ctx.getD 0
     let p := c.readA a
     let index := bitsOf p.toNat 0 48
     let h := bitsOf p.toNat 56 8
     let sys := decide (2 ≤ o.toNat) && sc == 4
     let posted := d == 0 && o.toNat % 2 == 0
     let n := c.aseq + 1
     let die := dieOf s.cur
     let addr := t.base + 4 * index
     (∀ (op : BitVec 4) (va pa e y k : Nat) (win : Window), reach s x c.tag va .atomic = .here y pa e →
       let home := Sent.to (.home pa (leafState e == some .replicated)) s
       (windowAt s x va = none → sendTo s x c.tag die va op sys = home) ∧
       (windowAt s x va = some (k, win) → win.kind = true →
         (merges op = true → va < win.ctr ∨ win.ctr + 4 ≤ va → sendTo s x c.tag die va op sys = .to (.switch k) s) ∧
         (win.ctr ≤ va → va < win.ctr + 4 →
           sendTo s x c.tag die va op sys = if sys then .to (.switch k) s else home))) ∧
     ∀ i ∈ [(Instr.aadd d a b sc o, (0 : BitVec 4)), (.aand d a b sc o, 1), (.aor d a b sc o, 2), (.axor d a b sc o, 3),
       (.amin d a b sc o, 4), (.amax d a b sc o, 5), (.aminu d a b sc o, 6), (.amaxu d a b sc o, 7), (.axchg d a b sc o, 8),
       (.acas d a b sc o, 9), (.afadd d a b sc o, 10)],
       let sent : Atom :=
         { seq := n, op := i.2, va := t.base + 4 * index, place := w, operand := c.readG b, compare := c.readG d, lane := none,
           posted := posted, path := dataPath t h (bitsOf p.toNat 51 5) (4 * index) false, applied := false, returned := false,
           old := 0, flags := 0, bad := false, sysRel := sys, sentAt := s.now, func := (s.ctx x).func, stamp := c.serial + 1,
           after := c.ordered }
       let out : Core := { c with
         atoms := c.atoms ++ [sent], aseq := n, serial := c.serial + 1, ordered := if o.toNat % 2 = 1 then c.serial else c.ordered }
       ((∀ k, c.wait ≠ .atomic k) → c.acquiring = false → (o.toNat < 2 ∨ c.released = true ∧ s.late = []) →
         (x, h) ∈ (s.cluster (clusterOf s.cur)).cached →
         (atomTree s x p = .error reason → exec i.1 s = .next (s.takeTrap s.cur
           ⟨0x04, BitVec.ofNat 32 reason, p.setWidth 32, (p >>> 32).setWidth 32, 0⟩ c.pc)) ∧
         (atomTree s x p = .ok t → inside t index = false →
           let k : Core := if o.toNat % 2 = 1 then { c with ordered := c.serial } else c
           exec i.1 s = .next (s.completed (if d = 0 then k else k.landG s.now d 0) i.1 .next)) ∧
         (atomTree s x p = .ok t → inside t index = true →
           let fp := pagePath t h 0 (4 * index) false lo len
           let traps (cause : BitVec 8) (q : State) := exec i.1 s =
             .next (q.takeTrap s.cur ⟨cause, fp.setWidth 32, (fp >>> 32).setWidth 32, 0x200, 0⟩ c.pc)
           (reach s x c.tag addr .atomic = .denied lo len → traps 0x06 s) ∧
           (reach s x c.tag addr .atomic = .unmapped lo len bad → traps 0x05 ((s.tableError bad).pageFault s.cur 0x05 fp 0x200)) ∧
           (reach s x c.tag addr .atomic = .stall y lo st → exec i.1 s = .next ((s.requestFrom die y lo st).setCore s.cur
             { c with wait := .stall, held := some i.1, readyAt := s.now + 1 }))) ∧
         (atomTree s x p = .ok t → inside t index = true → sendTo s x c.tag die addr i.2 sys = .to w s →
           (posted = true → exec i.1 s = .next (s.completed out i.1 .next)) ∧
           (posted = false → exec i.1 s = .next (s.setCore s.cur
             { out with wait := .atomic n, held := some i.1, readyAt := s.now + 1 })))) ∧
       ((∀ k, c.wait ≠ .atomic k) → (c.acquiring = true ∨ 2 ≤ o.toNat ∧ (c.released = false ∨ s.late ≠ [])) → exec i.1 s =
         .next (s.setCore s.cur { c with wait := .stall, held := some i.1, readyAt := s.now + 1 })) ∧
       (c.wait = .atomic m.seq → c.atoms = [m] → m.returned = true → m.bad = false → exec i.1 s =
         .next (s.completed (if d = 0 then { c with atoms := [] } else ({ c with atoms := [] } : Core).landG s.now d m.old) i.1
           .next))) ∧
  (∀ (s : State) (c : Core) (d b : BitVec 5) (a sc : BitVec 3) (o : BitVec 2) (t : Tree) (ps : List (Nat × Nat × AtomPlace))
     (q : State) (tr : Trap) (n y page lo len : Nat) (st : PageState) (bad : Option Nat), IssuesPlain s c →
     let p := c.readA a
     let sys := decide (2 ≤ o.toNat) && sc == 4
     let k0 := if c.alaneOn && c.alaneAt == c.pc then c.alane else 0
     (∀ i ∈ [(Instr.vaadd d a b sc o, (0 : BitVec 4)), (.vaand d a b sc o, 1), (.vaor d a b sc o, 2), (.vaxor d a b sc o, 3),
       (.vamin d a b sc o, 4), (.vamax d a b sc o, 5), (.vaminu d a b sc o, 6), (.vamaxu d a b sc o, 7),
       (.vafadd d a b sc o, 10)],
       let as := laneAtoms c (s.ctx (c.ctx.getD 0)).func s.now t p i.2 sys (c.readV b) (c.aseq + 1) ps
       let sent : Core := { c with
         atoms := c.atoms ++ as, aseq := c.aseq + as.length, serial := c.serial + 1
         ordered := if o.toNat % 2 = 1 then c.serial else c.ordered }
       d.toNat < c.resVregs.toNat → b.toNat < c.resVregs.toNat → c.vectorStall = false → c.pendingV d = false →
       c.pendingV b = false → c.acquiring = false → (o.toNat < 2 ∨ c.released = true ∧ s.late = []) →
       (c.ctx.getD 0, bitsOf p.toNat 56 8) ∈ (s.cluster (clusterOf s.cur)).cached → atomTree s (c.ctx.getD 0) p = .ok t →
       let lanes := translateLanes s.cur t p i.2 sys (c.readV d) ((List.range 8).filter fun l => decide (k0 ≤ l)) s
       let u := (elem 32 (c.readV d) k0).toNat
       let off := 4 * (bitsOf p.toNat 0 48 + u)
       let fp := pagePath t (bitsOf p.toNat 56 8) 0 off false lo len
       let at' := reach s (c.ctx.getD 0) c.tag (t.base + off) .atomic
       let trap (cause : BitVec 8) : Trap := ⟨cause, fp.setWidth 32, (fp >>> 32).setWidth 32, 0x300, BitVec.ofNat 32 k0⟩
       (lanes = .ok ps s → exec i.1 s = .next (s.completed (sent.queued (s.setCore s.cur sent) i.1 fun e =>
         { e with lane0 := k0, laneN := 8, seqs := as.filterMap fun a => a.lane.map fun l => (l, a.seq) }) i.1 .next)) ∧
       (lanes = .stall q → exec i.1 s = .next (q.setCore s.cur
         { q.core s.cur with wait := .stall, held := some i.1, readyAt := s.now + 1 })) ∧
       (lanes = .fault k0 [] tr q → exec i.1 s = .next ((q.setCore s.cur
         { q.core s.cur with alane := k0, alaneAt := c.pc, alaneArm := true }).takeTrap s.cur tr c.pc)) ∧
       (lanes = .fault n ps tr s → k0 < n →
         let k := sent.queued (s.setCore s.cur sent) i.1 fun e =>
           { e with lane0 := k0, laneN := n, seqs := as.filterMap fun a => a.lane.map fun l => (l, a.seq) }
         exec i.1 s = .next
           ((s.setCore s.cur { k with alane := n, alaneAt := c.pc, alaneArm := true }).takeTrap s.cur tr c.pc)) ∧
       (k0 < 8 → blockCount t (bitsOf p.toNat 51 5) ≤ u → lanes = .fault k0 []
         ⟨0x04, 12, p.setWidth 32, (p >>> 32).setWidth 32, BitVec.ofNat 32 k0⟩ s) ∧
       (k0 < 8 → u < blockCount t (bitsOf p.toNat 51 5) → inside t (bitsOf p.toNat 0 48 + u) = true →
         (at' = .stall y page st → lanes = .stall (s.requestFrom (dieOf s.cur) y page st)) ∧
         (at' = .denied lo len → lanes = .fault k0 [] (trap 0x06) s) ∧
         (at' = .unmapped lo len bad →
           lanes = .fault k0 [] (trap 0x05) ((s.tableError bad).pageFault s.cur 0x05 fp 0x300)))) ∧
     (∀ (k : Core) (e : VEntry) (l n : Nat) (m : Atom), l < 8 → e.lane0 ≤ l → l < e.laneN →
       let after := k.land (flyOf e (atomicWritten k d e) 0)
       (e.seqs.find? (fun q => q.1 == l) = some (l, n) → k.atoms.find? (fun a => a.seq == n) = some m → m.bad = false →
         elem 32 (after.readV d) l = m.old) ∧
       (e.seqs.find? (fun q => q.1 == l) = none → elem 32 (after.readV d) l = 0) ∧ ∀ v, v ≠ d → after.readV v = k.readV v))

/-- 11 R267, R270 to R272: at its home an atomic reads the element, computes its operation and writes the result, all but a
failing ACAS, and no other byte; the old value is the answer. A parcel that fails its check is not written. An earlier work
of the core that an acquire ordered first holds it back (16 R360). An atomic of a peer on an element homed here does the same
to the element. The answer comes back by its own step. -/
def Obligations.AtomicsApply : Prop :=
  ∀ (s : State) (id n pa : Nat) (c : Core) (a : Atom),
    s.core id = c → c.atoms.find? (fun b => b.seq == n) = some a →
    let held := orderHeld s { c with atoms := c.atoms.filter fun b => b.seq != n } a.after a.va 4
    (a.applied = false → c.firstAt a = true → held = false → s.marks = [] → a.place = .home pa false → memWf s.hbm = true →
      (∀ e l, walk s (homeCtx s (c.ctx.getD 0) a.va) a.va = .leaf e l → leafState e ≠ some .replicated) →
      let o := readWord s.hbm pa
      let v := a.operand
      (s.rangeGood (pa - pa % 256) ((pa % 256 + 4 + 255) / 256 * 256) = true →
        ∀ q ∈ [((0 : BitVec 4), o + v), (1, o &&& v), (2, o ||| v), (3, o ^^^ v), (4, if v.toInt < o.toInt then v else o),
          (5, if o.toInt < v.toInt then v else o), (6, if v.toNat < o.toNat then v else o),
          (7, if o.toNat < v.toNat then v else o), (8, v), (9, if o = a.compare then v else o),
          (10, (deliver32 none .nearestEven (fAdd .nearestEven (value32 o) (value32 v)).1).1)], a.op = q.1 →
        ∃ t, exec (.atomicApply (.own id n)) s = .next t ∧ readWord t.hbm pa = q.2 ∧
          (∀ y, y < pa ∨ pa + 4 ≤ y → readByte t.hbm y = readByte s.hbm y) ∧ (t.core id).latch = true ∧
          (∀ k, k ≠ id → t.core k = s.core k) ∧
          (a.posted = true → (t.core id).atoms = c.atoms.filter fun b => b.seq != n) ∧
          (a.posted = false → ∃ fl, (t.core id).atoms =
            c.atoms.map fun b => if b.seq = n then { b with applied := true, old := o, flags := fl, bad := false } else b)) ∧
      (s.rangeGood (pa - pa % 256) ((pa % 256 + 4 + 255) / 256 * 256) = false → a.posted = false →
        ∃ t, exec (.atomicApply (.own id n)) s = .next t ∧ t.hbm = s.hbm ∧ (t.core id).atoms =
          c.atoms.map fun b => if b.seq = n then { b with applied := true, old := 0, flags := 0, bad := true } else b)) ∧
    (a.applied = true ∨ c.firstAt a = false ∨ held = true → exec (.atomicApply (.own id n)) s = .next s) ∧
    (∀ (x va e : Nat) (op : BitVec 4) (v w : Word), translate s x (s.ctx x).tag (va - va % 4) .atomic = .ok pa e →
      leafState e ≠ some .replicated → memWf s.hbm = true →
      s.rangeGood (pa - pa % 256) ((pa % 256 + 4 + 255) / 256 * 256) = true →
      ∃ t, exec (.atomicApply (.peer x va op v w)) s = .next t ∧ t.cores = s.cores ∧
        readWord t.hbm pa = (if op = 9 ∧ readWord s.hbm pa ≠ w then readWord s.hbm pa
          else (atomicValue op (readWord s.hbm pa) v).1) ∧
        ∀ y, y < pa ∨ pa + 4 ≤ y → readByte t.hbm y = readByte s.hbm y) ∧
    exec (.atomicResultReturn id n) s = .next (s.setCore id { c with atoms := c.atoms.map fun b =>
      if b.seq = n then (if b.applied then { b with returned := true } else b) else b })

/-- 12 R284, R290 to R292, R294: the barrier instructions on a channel of the core's group: an arrival is sent where none is
outstanding and stalls otherwise; a wait ends once the phase has come; a vote arrives with its bit and gives the release's OR
and AND; a wait or vote that ends orders what follows it after what went before (16 R360); a channel the kernel does not
declare or that the core is no member of traps. 12 R285, R287, R288; 13 R299, R302; that a release takes the whole of R285's
figure is the model's choice (log 104): an arrival enters the tree once all that stood before it has been made, late copies
of pages included (16 R365); the last one starts the release, whose latency is that of the group's root; the release advances
the phase, gives the votes and wakes the members; arrivals by XSYNC begin an exchange. -/
def Obligations.BarriersSynchronise : Prop :=
  (∀ (s : State) (c : Core) (d a : BitVec 5) (ch : BitVec 4) (g : Group), IssuesPlain s c →
     let n := ch.toNat
     let come (v : BitVec 16) : Prop := 0 ≤ (g.phase - v).toInt
     let stalls (i : Instr) := exec i s = .next (s.setCore s.cur { c with wait := .stall, held := some i, readyAt := s.now + 1 })
     let lands (i : Instr) (k : Core) (v : Word) := exec i s = .next (s.completed (k.landG s.now d v) i .next)
     (c.wait ≠ .arrived → ∀ i ∈ [Instr.barr d ch, .bwait a ch, .btest d a ch, .bph d ch, .vote d a ch],
       (c.resBars.toNat ≤ n → exec i s = .next (s.takeTrap s.cur ⟨0x02, 2, BitVec.ofNat 32 n, c.resBars, 0⟩ c.pc)) ∧
       (n < c.resBars.toNat → c.barmember.getLsbD n = false →
         exec i s = .next (s.takeTrap s.cur ⟨0x06, BitVec.ofNat 32 n, 11, 0, 0⟩ c.pc))) ∧
     (n < c.resBars.toNat → c.barmember.getLsbD n = true → s.groupOf c = some g →
       let sent (vote : Option Bool) : Core :=
         { c.setTarget n (g.phase + 1) with arrivals := c.arrivals ++ [⟨n, vote, false, c.serial, c.aseq⟩] }
       (come (c.targetOf n) → lands (.barr d ch) (sent none) ((g.phase + 1).setWidth 32)) ∧
       (¬come (c.targetOf n) → stalls (.barr d ch)) ∧
       (come ((c.readG a).setWidth 16) → exec (.bwait a ch) s =
         .next (s.completed { c with ordered := c.serial } (.bwait a ch) .next)) ∧
       (¬come ((c.readG a).setWidth 16) → stalls (.bwait a ch)) ∧
       (come ((c.readG a).setWidth 16) → lands (.btest d a ch) c 1) ∧
       (¬come ((c.readG a).setWidth 16) → lands (.btest d a ch) c 0) ∧
       (c.wait ≠ .arrived → come (c.targetOf n) → exec (.vote d a ch) s = .next (s.setCore s.cur
         { sent (some ((c.readG a).getLsbD 0)) with wait := .arrived, held := some (.vote d a ch), readyAt := s.now + 1 })) ∧
       (c.wait ≠ .arrived → ¬come (c.targetOf n) → stalls (.vote d a ch)) ∧
       (c.wait = .arrived → come (c.targetOf n) → lands (.vote d a ch) { c with ordered := c.serial }
         ((if g.orVote then 1 else 0) + if g.andVote then 2 else 0))) ∧
     (s.groupOf c = some g →
       (∀ k < 16, (c.readG a).getLsbD k = true → k < c.resBars.toNat ∧ c.barmember.getLsbD k = true ∧ come (c.targetOf k)) →
       lands (.bmsk d a) (((List.range 16).filter fun k => (c.readG a).getLsbD k).foldl (fun k i => k.arrive i g.phase none false) c)
         (BitVec.ofNat 32 ((c.readG a).toNat % 65536)))) ∧
  (∀ (s : State) (id x l k ch : Nat) (c : Core) (a : Arrive) (g : Group),
     (s.core id = c → c.ctx = some x → c.group = some k → s.group x c.lslot k = some g → c.arrivals = [a] → a.channel = ch →
       let s1 := s.setCore id { c with arrivals := [] }
       let g1 : Group := { g with arrived := g.arrived ++ [(c.lcore, a.vote, a.xsync)] }
       let settled (n : Nat) : Prop := n = c.lcore ∨ hasArrived s1 x g n = true
       (c.mayEnter a = false ∨ s.late ≠ [] → exec (.arrivalEntersTree id ch) s = .next s) ∧ (s.late = [] →
       (c.mayEnter a = true → g.st = .releasing → exec (.arrivalEntersTree id ch) s = .next (s1.setGroup x c.lslot k
         { g with nextArr := g.nextArr ++ [(c.lcore, a.vote, a.xsync)] })) ∧
       (c.mayEnter a = true → g.st = .compute → (∃ n ∈ g.members, ¬settled n) →
         exec (.arrivalEntersTree id ch) s = .next (s1.setGroup x c.lslot k g1)) ∧
       (c.mayEnter a = true → g.st = .compute → (∀ n ∈ g.members, settled n) → (s.ctx x).pending = false →
         ∀ r ∈ [(0, 4), (1, 16), (2, 48), (3, 160)], g.root.1 = r.1 → exec (.arrivalEntersTree id ch) s =
           .next (s1.setGroup x c.lslot k { g1 with st := .releasing, releaseAt := s.now + r.2 })))) ∧
     (s.group x l k = some g → g.st = .releasing → s.now < g.releaseAt → exec (.barrierRelease x l k) s = .next s) ∧
     (s.group x l k = some g → g.st = .releasing → g.releaseAt ≤ s.now → g.nextArr = [] →
       (s.cores.Pairwise fun p q => p.1 < q.1) → ∃ t, exec (.barrierRelease x l k) s = .next t ∧
       (∀ n ∈ g.members, ∀ m, memberCore s x n = some m → (t.core m).latch = true) ∧
       ∃ r, t.group x l k = some r ∧ r.phase = g.phase + 1 ∧ r.orVote = (g.arrived.any fun a => a.2.1 == some true) ∧
         r.andVote = (g.arrived.all fun a => a.2.1 != some false) ∧ r.arrived = [] ∧
         ((∀ a ∈ g.arrived, a.2.2 = false) → r.st = .compute ∧ r.clock = none) ∧
         ∀ n, (∃ a ∈ g.arrived, a.2.2 = true) → nextSlotFrom g.entries 0 = some n → r.st = .exchange ∧ r.clock = some n))

/-- 13 R303, R306 to R310: the exchange instructions: XSYNC arrives and begins a phase with the next STEP; XSEND sends a slot's
bytes, starting at once in an open slot and waiting for the slot otherwise; XDONE passes every slot and ends with the
exchange; XSLOT answers from the slot table; each SLOT_VIOLATION. That the first bytes land 4 cycles after the start, and 12
later for each die crossing, takes R299's figures exactly, which is the model's choice (log 4). 13 R299, R300, R311, R313:
the exchange clock: a slot closes once its senders have passed it and its transfers have landed, the next one opens a cycle
later, and the last one ends the exchange; while the context's cores are being halted it stands still. A transfer reads up to
32 bytes of the sender's local memory in a cycle and lands up to 32 of what it has read in the receiver's; the reads go on
while the landing is held; a beat of another tag is discarded, and counts as moved, the model's choice (log 108). -/
def Obligations.ExchangesMoveSlots : Prop :=
  (∀ (s : State) (c : Core) (d a b : BitVec 5) (sel : BitVec 2) (g : Group) (e : SlotEntry), IssuesPlain s c →
     let k := (c.readG a).toNat
     let n := (c.readG b).toNat
     let me := g.members.findIdx fun m => m == c.lcore
     let fails (i : Instr) (reason t1 t2 t3 : Nat) := exec i s = .next (s.takeTrap s.cur
       ⟨0x07, BitVec.ofNat 32 reason, BitVec.ofNat 32 t1, BitVec.ofNat 32 t2, BitVec.ofNat 32 t3⟩ c.pc)
     let waits (i : Instr) (k : Core) (w : Wait) := exec i s =
       .next (s.setCore s.cur { k with wait := w, held := some i, readyAt := s.now + 1 })
     (s.groupOf c = none → (∀ j, c.wait ≠ .xsend j) → fails (.xsync d) 7 0 0 0 ∧ fails (.xsend a b) 7 0 0 0 ∧ fails .xdone 7 0 0 0 ∧
       exec (.xslot d a sel) s = .next (s.completed (c.landG s.now d 0) (.xslot d a sel) .next)) ∧
     (s.groupOf c = some g →
       (c.wait = .none → c.xphase = true → fails (.xsync d) 5 0 0 c.nextSlot) ∧
       (c.wait = .none → c.xphase = false → 0 ≤ (g.phase - c.targetOf g.channel).toInt → waits (.xsync d)
         { c.setTarget g.channel (g.phase + 1) with arrivals := c.arrivals ++ [⟨g.channel, none, true, c.serial, c.aseq⟩] }
         .arrived) ∧
       (c.wait = .arrived → 0 ≤ (g.phase - c.targetOf g.channel).toInt → exec (.xsync d) s = .next (s.completed
         (({ c with step := c.step + 1, xphase := true, nextSlot := 0, ordered := c.serial } : Core).landG s.now d ((c.step + 1).setWidth 32))
         (.xsync d) .next)) ∧
       (c.wait = .none → c.localDone = true →
         (n % 4 ≠ 0 → exec (.xsend a b) s = .next (s.takeTrap s.cur ⟨0x03, BitVec.ofNat 32 n, 4, 0, 0⟩ c.pc)) ∧
         (n % 4 = 0 → c.xphase = false → fails (.xsend a b) 3 k n c.nextSlot) ∧
         (n % 4 = 0 → c.xphase = true → g.sends k me = none → fails (.xsend a b) 1 k n c.nextSlot) ∧
         (n % 4 = 0 → c.xphase = true → g.sends k me = some e →
           let m := if n = 0 then e.bytes else n
           let to' := g.members.getD e.receiver 0
           let at' := s.now + 4 + 12 * crossings (dieOf s.cur) (dieOf ((memberCore s (c.ctx.getD 0) to').getD s.cur))
           let sent : Core := { c with nextSlot := k + 1, transfers := c.transfers ++
             [⟨e.slot, to', e.srcAt, e.dstAt, m, 0, [], c.tag, (s.ctx (c.ctx.getD 0)).func, if g.isOpen k then some at' else none⟩] }
           (k < c.nextSlot → fails (.xsend a b) 2 k n c.nextSlot) ∧
           (c.nextSlot ≤ k → e.bytes < m → fails (.xsend a b) 4 k n e.bytes) ∧
           (c.nextSlot ≤ k → m ≤ e.bytes → m ≠ 0 → g.isOpen k = true →
             exec (.xsend a b) s = .next (s.completed sent (.xsend a b) .next)) ∧
           (c.nextSlot ≤ k → m ≤ e.bytes → m ≠ 0 → g.isOpen k = false → waits (.xsend a b) sent (.xsend k)))) ∧
       (c.xphase = false → fails .xdone 6 0 0 c.nextSlot) ∧
       (c.xphase = true → g.st = .exchange → waits .xdone { c with nextSlot := 512 } .stall) ∧
       (c.xphase = true → g.st ≠ .exchange →
         exec .xdone s = .next (s.completed { c with nextSlot := 512, xphase := false } .xdone .next)) ∧
       ∀ v : Word, (v = if sel = 0 then ((g.sends k me).map fun e => BitVec.ofNat 32 (2 ^ 31 + e.receiver)).getD 0
           else if sel = 1 then ((g.sends k me).map fun e => BitVec.ofNat 32 (2 ^ 31 + e.bytes)).getD 0
           else if sel = 2 then ((g.receives k me).map fun e => BitVec.ofNat 32 (2 ^ 31 + e.sender)).getD 0
           else ((g.receives k me).map fun _ => BitVec.ofNat 32 (2 ^ 31 + look 0 k c.rcvd)).getD 0) →
         exec (.xslot d a sel) s = .next (s.completed (c.landG s.now d v) (.xslot d a sel) .next))) ∧
  (∀ (s : State) (x l k n j : Nat) (g : Group), s.group x l k = some g → g.st = .exchange → g.clock = some n →
     (clockStands (s.ctx x) g = true → exec (.exchangeSlotClose x l k) s = .next s) ∧
     (g.closedAt = none → mayClose s x g n = false → exec (.exchangeSlotClose x l k) s = .next s) ∧
     (clockStands (s.ctx x) g = false →
       (g.closedAt = none → mayClose s x g n = true → nextSlotFrom g.entries (n + 1) = some j →
         exec (.exchangeSlotClose x l k) s = .next (s.setGroup x l k { g with closedAt := some s.now })) ∧
       (g.closedAt = none → mayClose s x g n = true → nextSlotFrom g.entries (n + 1) = none → g.arrived = [] →
         exec (.exchangeSlotClose x l k) s = .next (s.setGroup x l k
           { g with st := .compute, clock := none, closedAt := none, inX := [] })) ∧
       (∀ t < s.now, g.closedAt = some t → nextSlotFrom g.entries (n + 1) = some j →
         ∃ q, exec (.exchangeSlotClose x l k) s = .next q ∧
           q.group x l k = some { g with clock := some j, closedAt := none })) ∧
     ∀ (id r : Nat) (c d : Core) (t : Transfer), s.core id = c → s.core r = d → id ≠ r → dueTransfer c s.now = some t →
       memberCore s (c.ctx.getD 0) t.receiver = some r →
       let u := t.fetch c
       let m := min 32 u.buf.length
       let to' := t.dstAt + t.moved
       let ahead : Transfer := { u with buf := u.buf.drop m, moved := t.moved + m, nextAt := some (s.now + 1) }
       (tagOf s r = t.tag → (s.delivery r to' m).1 = true → memWf d.mem = true →
         ∃ q, exec (.exchangeBeatLands id) s = .next q ∧
           (∀ i < m, some (readByte (q.core r).mem (to' + i)) = u.buf[i]?.map Prod.fst) ∧
           (t.buf = [] → ∀ i < m, readByte (q.core r).mem (to' + i) = readByte c.mem (t.srcAt + t.moved + i)) ∧
           (∀ y, y < to' ∨ to' + m ≤ y → readByte (q.core r).mem y = readByte d.mem y) ∧
           (q.core id).mem = c.mem ∧ (q.core id).transfers = setTransfer c.transfers ahead) ∧
       (tagOf s r = t.tag → (s.delivery r to' m).1 = false → ∃ q, exec (.exchangeBeatLands id) s = .next q ∧
         (q.core r).mem = d.mem ∧ (q.core id).mem = c.mem ∧ (q.core id).transfers = setTransfer c.transfers u) ∧
       (tagOf s r ≠ t.tag → ∃ q, exec (.exchangeBeatLands id) s = .next q ∧ q.core r = d ∧
         (q.core id).transfers = setTransfer c.transfers ahead ∧ (q.func adminFunc).note.kind = 5))

/-- 13 R314, R316 to R318; that the QGETs not yet served choose QGET's entry and its stall, and that TINFO0 is 0 for reason 13,
are the model's choices (logs 39, 40): the message queue: an append takes the ring's next entry and gives the free count, or
-1 or a stall where the ring is full or closed; QGET queues the load of the next entry; QFREE releases what has landed;
QFREE.OPEN sets the ring up, once nothing is in flight to it, or traps, each check in its turn. 13 R313, R314; that LANDED
stays as it is for a discarded entry is the model's choice (log 41): a message lands in its entry of the ring, all 32 bytes
and no other, counts, and wakes the core; one whose tag is not the core's is discarded, and one that its target does not take
in this cycle waits. -/
def Obligations.MessageRings : Prop :=
  (∀ (s : State) (c k : Core) (d a b : BitVec 5) (m : BitVec 1), IssuesPlain s c →
     let j := (c.readG b).toNat % 8
     let t := 8 * (s.cur / 8) + j
     let r := k.ring
     let free := r.size - (r.tail - r.head)
     let i := Instr.qapp d a b m
     let q := Instr.qget d
     let waits (i : Instr) := exec i s = .next (s.setCore s.cur { c with wait := .stall, held := some i, readyAt := s.now + 1 })
     (s.core t = k → a.toNat < c.resVregs.toNat →
       (tagOf s t ≠ tagOf s s.cur → exec i s = .next (s.takeTrap s.cur ⟨0x06, BitVec.ofNat 32 j, 12, 0, 0⟩ c.pc)) ∧
       (tagOf s t = tagOf s s.cur → c.pendingV a = false →
         (r.isOpen = true → 0 < free →
           let s1 := s.setCore t { k with ring := { r with tail := r.tail + 1, inflight := r.inflight ++
             [⟨r.tail, c.readV a, s.cur, c.tag, (s.ctx (c.ctx.getD 0)).func⟩] } }
           exec i s = .next (s1.completed ((s1.core s.cur).landG s.now d
             (BitVec.ofNat 32 (r.size - (r.tail + 1 - r.head)))) i .next)) ∧
         (r.isOpen = false ∨ free = 0 → m = 1 → exec i s = .next (s.completed (c.landG s.now d 0xFFFFFFFF) i .next)) ∧
         (r.isOpen = false ∨ free = 0 → m = 0 → waits i))) ∧
     (d.toNat < c.resVregs.toNat →
       (c.ring.isOpen = false → exec q s = .next (s.takeTrap s.cur ⟨0x06, 0, 13, 0, 0⟩ c.pc)) ∧
       (c.ring.isOpen = true → c.ring.landed ≤ c.takesPending → waits q) ∧
       (c.ring.isOpen = true → c.takesPending < c.ring.landed → c.vectorStall = false →
         let at' := c.ring.base + 32 * ((c.ring.head + c.takesPending) % max 1 c.ring.size)
         exec q s = .next (s.completed (c.queued s (.vld d 0 0) fun e =>
           { e with lanes := (List.range 8).map fun l => (l, at' + 4 * l), take := true }) q .next))) ∧
     (let n := min (c.readG a).toNat c.ring.landed
      exec (.qfree d a) s = .next (s.completed (({ c with ring := { c.ring with head := c.ring.head + n, landed :=
        c.ring.landed - n } } : Core).landG s.now d (BitVec.ofNat 32 n)) (.qfree d a) .next)) ∧
     (let base := (c.readG a).toNat
      let n := (c.readG b).toNat
      (n = 0 ∨ n ≤ 256 ∧ 2 ^ n.log2 = n ∧ base + 32 * n ≤ 0x8000 ∧ base + 32 * n ≤ c.resLocal.toNat) → base % 32 = 0 →
        let o := Instr.qfreeOpen d a b
        (c.ring.inflight = [] → exec o s = .next (s.completed
          (({ c with ring := ⟨n != 0, base, n, 0, 0, 0, []⟩ } : Core).landG s.now d 0) o .next)) ∧
        (c.ring.inflight ≠ [] → waits o)) ∧
     (let base := (c.readG a).toNat
      let n := (c.readG b).toNat
      let fails (cause : BitVec 8) (t0 t1 t2 : Nat) := exec (.qfreeOpen d a b) s = .next (s.takeTrap s.cur
        ⟨cause, BitVec.ofNat 32 t0, BitVec.ofNat 32 t1, BitVec.ofNat 32 t2, 0⟩ c.pc)
      let fine := n = 0 ∨ n ≤ 256 ∧ 2 ^ n.log2 = n
      (¬fine → fails 0x06 base 13 0) ∧
      (fine → n ≠ 0 → 0x8000 < base + 32 * n → fails 0x06 (max base 0x8000) 13 0) ∧
      (fine → n ≠ 0 → base + 32 * n ≤ 0x8000 → c.resLocal.toNat < base + 32 * n →
        fails 0x02 3 (max base c.resLocal.toNat) c.resLocal.toNat) ∧
      (fine → (n = 0 ∨ base + 32 * n ≤ 0x8000 ∧ base + 32 * n ≤ c.resLocal.toNat) → base % 32 ≠ 0 → fails 0x03 base 32 0))) ∧
  (∀ (s : State) (id : Nat) (c : Core) (m : Append) (rest : List Append), s.core id = c → c.ring.inflight = m :: rest →
     let a := c.ring.base + 32 * (m.entry % max 1 c.ring.size)
     (tagOf s id = m.tag → (s.delivery id a 32).1 = true → memWf c.mem = true → m.entry = c.ring.head + c.ring.landed →
       ∃ t, exec (.queueEntryLands id) s = .next t ∧ (t.core id).latch = true ∧
         (t.core id).ring = { c.ring with inflight := rest, landed := c.ring.landed + 1 } ∧
         (∀ i < 32, readByte (t.core id).mem (a + i) = (m.data >>> (8 * i)).setWidth 8) ∧
         (∀ y, y < a ∨ a + 32 ≤ y → readByte (t.core id).mem y = readByte c.mem y) ∧ (t.core id).v = c.v) ∧
     (tagOf s id ≠ m.tag → ∃ t, exec (.queueEntryLands id) s = .next t ∧ (t.core id).mem = c.mem ∧
       (t.core id).ring = { c.ring with inflight := rest }) ∧
     (tagOf s id = m.tag → (s.delivery id a 32).1 = false → ∃ t, exec (.queueEntryLands id) s = .next t ∧
       (t.core id).mem = c.mem ∧ (t.core id).ring = c.ring))

/-- 14 R326, R330, R332 to R335: the waggle instructions on an owned lane: an entry makes the holder pending and registers at the
first slot boundary from 4 cycles on, its word the key above the core's number; a result reads the holder; a wait ends when
it is no longer pending; a withdrawal cancels it; a lane the context does not own traps. 14 R324 to R330, R335, R336: the
life of a frame: an entry on an idle lane opens the gathering of a frame that starts 224 cycles later; the frame takes the
lane's number; in each slot a leading contender whose bit is 0 where the line is 1 stops leading; the end resolves the
holders of all entrants with the winner; a withdrawal by the sole leader voids the frame, whose survivors go on into the next
frame with REQ, while one withdrawn in its settle slots is cancelled; each holder written sets its core's latch. -/
def Obligations.WagglesDecide : Prop :=
  (∀ (s : State) (c : Core) (x : Nat) (d a l : BitVec 5) (sel : BitVec 2), IssuesPlain s c → c.ctx = some x →
     let n := l.toNat
     let h := look Holder.reset n c.holders
     let lane := s.lane n
     let mask := (s.ctx x).laneMask
     let at' := (s.now + 7) / 4 * 4
     let enters (i : Instr) (key : Word) (word : Option (BitVec 53)) :=
       let s1 := s.setLane n { lane with sent := lane.sent ++ [(⟨s.cur, word, false, false, false, .no⟩, at')] }
       let made : Holder := ⟨.pending, false, false, word.isNone, false, false, 0, key, 0, 0, 0⟩
       exec i s = .next (s1.completed { c with holders := put n made c.holders } i .next)
     let stalls (i : Instr) := exec i s = .next (s.setCore s.cur { c with wait := .stall, held := some i, readyAt := s.now + 1 })
     (mask.getLsbD n = false → ∀ i ∈ [(Instr.wgent a l, (0 : Word)), (.wgentL l, 0), (.wgres d sel l, 1), (.wgwait d l, 2),
       (.wgcan l, 3)], exec i.1 s = .next (s.takeTrap s.cur ⟨0x09, BitVec.ofNat 32 n, mask, i.2, 0⟩ c.pc)) ∧
     (mask.getLsbD n = true →
       (h.st ≠ .pending → enters (.wgent a l) (c.readG a) (some (c.readG a ++ BitVec.ofNat 21 s.cur)) ∧
         enters (.wgentL l) 0 none ∧
         exec (.wgwait d l) s = .next (s.completed (c.landG s.now d (holderWord h)) (.wgwait d l) .next) ∧
         exec (.wgcan l) s = .next (s.completed c (.wgcan l) .next)) ∧
       (h.st = .pending → stalls (.wgent a l) ∧ stalls (.wgentL l) ∧ stalls (.wgwait d l) ∧
         (inSettle s lane s.cur = false → ∃ t, exec (.wgcan l) s = .next t ∧ ((t.core s.cur).holder n).st = .cancelled ∧
           ∀ k, k ≠ s.cur → t.core k = s.core k)) ∧
       ∀ v, (v = if sel = 0 then holderWord h else if h.st ≠ .resolved then 0 else if sel = 1 then h.winKey
           else if sel = 2 then h.winL else h.winner) →
         exec (.wgres d sel l) s = .next (s.completed (c.landG s.now d v) (.wgres d sel l) .next))) ∧
  (∀ (s : State) (n id : Nat) (e w : Entrant) (b : Nat),
     let l := s.lane n
     (l.sent = [(e, b)] → e.core = id →
       (s.now < b → exec (.waggleEntryRegister id n) s = .next s) ∧
       (b ≤ s.now → l.st = .idle → exec (.waggleEntryRegister id n) s =
         .next (s.setLane n { l with sent := [], st := .gathering, start := s.now + 224, entrants := [e] })) ∧
       (b ≤ s.now → l.st = .gathering → exec (.waggleEntryRegister id n) s =
         .next (s.setLane n { l with sent := [], entrants := l.entrants ++ [e] })) ∧
       (b ≤ s.now → l.st = .running → l.start < s.now → ∃ t, exec (.waggleEntryRegister id n) s = .next t ∧
         t.lane n = { l with sent := [], queue := l.queue ++ [e] } ∧
         (((s.core id).holder n).st = .pending → ((t.core id).holder n).late = true))) ∧
     (l.st = .gathering → l.start ≤ s.now → ∃ t, exec (.frameStart n) s = .next t ∧ (t.lane n).st = .running ∧
       (t.lane n).start = l.start ∧ (t.lane n).frame = l.fn ∧ (t.lane n).fn = l.fn + 1 ∧ (t.lane n).slot = 0 ∧
       (t.lane n).entrants = l.entrants.map (fun e => { e with leading := e.word.isSome }) ∧ (t.lane n).queue = []) ∧
     (l.st = .gathering → s.now < l.start → exec (.frameStart n) s = .next s) ∧
     (l.st = .running → l.slot < 53 → l.start + 4 * (l.slot + 1) ≤ s.now →
       let k := 52 - l.slot
       let one (e : Entrant) : Bool := e.leading && (e.word.getD 0).getLsbD k
       let line := l.entrants.any one
       exec (.resolutionSlot n) s = .next (s.setLane n { l with
         slot := l.slot + 1
         entrants := l.entrants.map fun e => { e with leading := e.leading && (one e || !line) }
         bits := if line then l.bits ||| BitVec.twoPow 53 k else l.bits })) ∧
     (l.st = .running → l.start + 224 ≤ s.now → l.void = false → l.queue = [] → l.entrants = [e] → e.core = id → e.gone = false →
       e.mute = false → e.leading = true → ((s.core id).holder n).st = .pending → ∃ t, exec (.frameEnd n) s = .next t ∧
         t.lane n = { l with st := .idle, entrants := [], queue := [], void := false } ∧ (t.core id).latch = true ∧
         ∃ h, (t.core id).holder n = h ∧ h.st = .resolved ∧ h.won = true ∧ h.empty = false ∧ h.frame = l.frame ∧
           h.winKey = (l.bits >>> 21).setWidth 32 ∧ h.winner = BitVec.ofNat 32 id ∧ h.winL = BitVec.ofNat 32 (s.core id).lcore) ∧
     (l.st = .running → l.start + 224 ≤ s.now → l.void = false → l.queue = [] → l.entrants = [e, w] → e.core = id → w.core ≠ id →
       e.gone = false → e.mute = false → e.leading = false → w.gone = false → w.leading = true →
       ((s.core id).holder n).st = .pending →
       ∃ t, exec (.frameEnd n) s = .next t ∧ ((t.core id).holder n).st = .resolved ∧ ((t.core id).holder n).won = false ∧
         ((t.core id).holder n).winner = BitVec.ofNat 32 w.core) ∧
     (l.st = .running → l.start + 224 ≤ s.now → l.void = true → l.queue = [] → l.entrants = [e] → e.core = id → e.gone = false →
       e.mute = false → ((s.core id).holder n).st = .pending → e.settled ≠ .halted →
       ∃ t, exec (.frameEnd n) s = .next t ∧ (t.core id).latch = true ∧
         (e.settled = .cancelled → ((t.core id).holder n).st = .cancelled ∧ (t.lane n).st = .idle) ∧
         (e.settled = .no → ((t.core id).holder n).st = .pending ∧ ((t.core id).holder n).req = true ∧
           (t.lane n).st = .running ∧ (t.lane n).start = l.start + 224 ∧ (t.lane n).void = false)) ∧
     (l.st = .running → l.withdraw = [(id, b)] → b ≤ s.now → l.queue = [] → l.entrants = [e] → e.core = id → e.leading = true →
       e.gone = false → exec (.waggleWithdrawal id n) s = .next (s.setLane n
         { l with withdraw := [], entrants := [{ e with gone := true, leading := false }], void := true })) ∧
     (l.st = .gathering → l.withdraw = [(id, b)] → b ≤ s.now → l.entrants = [e] → e.core = id →
       exec (.waggleWithdrawal id n) s = .next (s.setLane n { l with withdraw := [], entrants := [] })))

/-- 17 R384, R387, R389, R390: the forage instructions: FPOST posts the image at its address or answers 0 where the pool is full;
FORAGE and FQUIET take an eligible record by retiring and picking it up; FORAGE answers 0 without one, and FQUIET waits quiet
and answers 1 once the group is quiescent; YIELD makes its record of the image once, retires, and posts it and goes idle or
takes it up itself; CEND retires and goes idle. 17 R382, R384, R390: an idle core takes an eligible record that passes its
check, and one that fails is discarded and reported; members that wait quiet go on once every member of the group is quiet or
idle and the pool holds none of its records; records are checked by CRC-32C. 17 R380 to R383; 13 R298: what a pick-up leaves
in the core: the entry, the arguments and LINK in the scalar registers, everything of the former continuation at its initial
value, local memory and what the launch gave as they were; it passes the slots of an exchange under way. -/
def Obligations.ForagePools : Prop :=
  (∀ (s k : State) (c : Core) (x : Nat) (d a : BitVec 5) (r : PoolRec) (bs : List Byte), IssuesPlain s c →
     c.ctx = some x →
     let at' := (c.readG a).toNat
     let lands (i : Instr) (q : State) (v : Word) := exec i s = .next (q.completed ((q.core s.cur).landG s.now d v) i .next)
     let yields (bs : List Byte) : Prop :=
       (retire (s.leaveRendezvous s.cur) s.cur = .wait k → exec (.yield a) s = .next (k.setCore s.cur
         { k.core s.cur with wait := .yielding bs, held := some (.yield a), readyAt := k.now + 1 })) ∧
       (retire (s.leaveRendezvous s.cur) s.cur = .done k →
         (poolFull k x = false → exec (.yield a) s = .next ((k.post x (dieOf s.cur) bs).goIdle s.cur)) ∧
         (poolFull k x = true → exec (.yield a) s = .next (k.pickUp s.cur bs (s.now + 1))))
     (c.localDone = true → contTrap c at' = none →
       (poolFull s x = true → lands (.fpost d a) s 0) ∧
       (poolFull s x = false → lands (.fpost d a) (s.post x (dieOf s.cur) (imageRecord c at')) 1) ∧
       ((∀ r, c.wait ≠ .yielding r) → bs = imageRecord c at' → yields bs)) ∧
     (c.wait = .yielding bs → yields bs) ∧
     (c.localDone = true → 0x8000 ≤ at' → (∀ r, c.wait ≠ .yielding r) → ∀ i ∈ [Instr.fpost d a, .yield a],
       exec i s = .next (s.takeTrap s.cur ⟨0x06, c.readG a, 14, 0, 0⟩ c.pc)) ∧
     (retire (s.leaveRendezvous s.cur) s.cur = .done k → exec .cend s = .next (k.goIdle s.cur)) ∧
     ((∀ n, c.wait ≠ .reserved n) →
       (eligibleRec s c = none → lands (.forage d) s 0) ∧
       (eligibleRec s c = some r → contOk r.bytes = true → ((s.ctx x).pool.map PoolRec.id).Nodup →
         retire (s.markRec c r.id true) s.cur = .done k →
         exec (.forage d) s = .next ((k.takeRec c r.id).pickUp s.cur r.bytes (s.now + 1))) ∧
       (eligibleRec s c = some r → contOk r.bytes = false → exec (.forage d) s =
         .next ((s.takeRec c r.id).takeTrap s.cur ⟨0x0B, 0, 5, 0, 0⟩ c.pc)) ∧
       (c.group ≠ none → c.wait ≠ .quiet → eligibleRec s c = none → exec (.fquiet d) s = .next (s.setCore s.cur
         { c with quiet := true, wait := .quiet, held := some (.fquiet d), readyAt := s.now + 1 })) ∧
       (c.group ≠ none → c.wait = .quiet → c.quiet = false → lands (.fquiet d) s 1) ∧
       (c.group = none → exec (.fquiet d) s = .next (s.takeTrap s.cur ⟨0x07, 7, 0, 0, 0⟩ c.pc)))) ∧
  ((∀ (s : State) (id n x l g : Nat) (c : Core) (r : PoolRec) (q : Launch) (u : Group), s.core id = c → c.ctx = some x →
     ((s.ctx x).pool.find? (fun r => r.id == n && eligible' c r) = some r → s.launchOf c = some q → q.st = .running →
       (s.ctx x).st = .running → c.status = .idle → c.haltReq = .none → pickUpOpen s c = true → c.zeroUntil ≤ s.now →
       (c.retention = .awake → contOk r.bytes = true → exec (.poolTakeIdle id n) s =
         .next (((s.takeRec c n).pickUp id r.bytes s.now).standRunning id)) ∧
       (c.retention = .awake → contOk r.bytes = false → ∃ t, exec (.poolTakeIdle id n) s = .next t ∧ t.cores = s.cores ∧
         (t.ctx x).pool = (s.ctx x).pool.filter (fun r => r.id != n) ∧ (t.func (s.ctx x).func).note.kind = 10) ∧
       (c.retention = .retained → exec (.poolTakeIdle id n) s =
         .next (s.setCore id { c with retention := .exiting (s.now + 2048) }))) ∧
     (s.group x l g = some u → quiescent s x l g u = false → exec (.groupQuiescent x l g) s = .next s) ∧
     (s.group x l g = some u → quiescent s x l g u = true → u.members = [c.lcore] → memberCore s x c.lcore = some id →
       exec (.groupQuiescent x l g) s = .next (s.setCore id { c with quiet := false }))) ∧
   (∀ (e f k : Word) (as : List Word), as.length = 12 → contOk (contBytes e f as k) = true ∧ (contBytes e f as k).length = 64) ∧
   crc32c [0x31, 0x32, 0x33, 0x34, 0x35, 0x36, 0x37, 0x38, 0x39] = 0xE3069283) ∧
  (∀ (s : State) (id start : Nat) (bs : List Byte),
     let c := s.core id
     let t := s.pickUp id bs start
     let k := t.core id
     let word (i : Nat) : Word := BitVec.ofNat 32 (leNat ((bs.drop (4 * i)).take 4))
     k.status = .running ∧ k.readyAt = start ∧ k.pc = word 0 ∧ k.flagsWord = word 1 ∧ k.link = word 14 ∧
     (∀ r : BitVec 5, k.readG r = if r = 0 then 0 else if r.toNat ≤ 12 then word (r.toNat + 1) else if r = 13 then word 14 else 0) ∧
     (∀ r, k.readA r = 0) ∧ (∀ r, k.readV r = 0) ∧ (∀ r : BitVec 3, k.readM r = if r = 0 then 0xFF else 0) ∧
     k.z = Vector.replicate 128 0 ∧ k.handler = false ∧ k.fpflags = 0 ∧ k.rmode = 0 ∧ k.bankhash = 0 ∧ k.vshare = 8 ∧
     k.winbind = Vector.replicate 8 0 ∧ k.gangstat = 0 ∧ k.holders = [] ∧ k.channels = [] ∧ k.tickets = [] ∧ k.loops = [] ∧
     k.mem = c.mem ∧ k.ctx = c.ctx ∧ k.lslot = c.lslot ∧ k.group = c.group ∧ k.lcore = c.lcore ∧ k.target = c.target ∧
     k.ring = c.ring ∧ k.step = c.step ∧ k.resVregs = c.resVregs ∧ k.resLocal = c.resLocal ∧
     (∀ m, m ≠ id → t.core m = s.core m) ∧ t.hbm = s.hbm ∧ t.hostMem = s.hostMem ∧
     (s.groupOf c = none → t.contexts = s.contexts) ∧
     ∀ g, s.groupOf c = some g → t.contexts = (s.setGroupOf c { g with inX := g.inX.filter (· != c.lcore) }).contexts)

/-- 17 R391; 16 R365, R369; 18 R408: LAUNCH waits as a release does, admits the record in local memory in the lowest free slot
and answers its ticket; a record that admission rejects answers the ticket and counts a rejection; one whose patch table is
in a page on demand waits; without a free slot the answer is 0. 17 R375, R379, R381; 03 R76; 08 R215; 16 R365; 21 R448; that
a launch holds back later ones of contexts that run, and that the end of the last clears the stops asked for, are the model's
choices (logs 84, 85), and so is the place of the 512 cycles of zeroing (log 67): a launch in PLACING whose core is free is
loaded: the core takes the kernel's limits, its place and its local image, zeroed when it comes from another owner. A loaded
launch starts with the initial continuation; a memory in retention leaves it first; a launch with nothing left to run is
reported and unbound, once every late copy has landed. 17 R378; 12 R282: the checks of admission in their order, each with
its reason. That an image's handle is the number of its context, and that check 4 keeps a launch's units, are the model's
choices (logs 21, 84). -/
def Obligations.LaunchesRun : Prop :=
  (∀ (s q : State) (c : Core) (x n reason : Nat) (d a : BitVec 5) (p : Launch) (patch : List Word) (gs : List Group),
     IssuesPlain s c → c.ctx = some x → s.launchOf c = some p →
     let at' := (c.readG a).toNat
     let r := { decodeRecord (readBytes c.mem at' 256) with image := p.record.image }
     let i := Instr.launch d a
     let lands (q : State) (v : Word) := exec i s = .next (q.completed ((q.core s.cur).landG s.now d v) i .next)
     (c.released = false ∨ c.localDone = false ∨ c.acquiring = true ∨ s.late ≠ [] →
       exec i s = .next (s.setCore s.cur { c with wait := .stall, held := some i, readyAt := s.now + 1 })) ∧
     (c.released = true → c.localDone = true → c.acquiring = false → s.late = [] → imageTrap c at' 256 = none → c.badWord at' 256 = none →
       (freeSlot s x = none → lands (s.childRejected (childQueue p)) 0) ∧
       (freeSlot s x = some n → admission s x r = .ok patch gs →
         lands (s.place x n r patch gs none (childQueue p)) (BitVec.ofNat 32 (2 ^ 31 + n))) ∧
       (freeSlot s x = some n → admission s x r = .reject reason →
         lands ((s.patchErrors x r reason).childRejected (childQueue p)) (BitVec.ofNat 32 (2 ^ 31 + n))) ∧
       (freeSlot s x = some n → admission s x r = .stall q →
         exec i s = .next (q.setCore s.cur { q.core s.cur with wait := .stall, held := some i, readyAt := q.now + 1 }))) ∧
     (c.released = true → c.localDone = true → c.acquiring = false → s.late = [] → 0x8000 ≤ at' →
       exec i s = .next (s.takeTrap s.cur ⟨0x06, c.readG a, 14, 0, 0⟩ c.pc))) ∧
  (∀ (s s1 : State) (x l n id : Nat) (q : Launch) (k : Kernel), s.launch x l = some q → (s.ctx x).st = .running →
     let c := s.core id
     (q.st = .placing → areaOf q.record = [n] → grantedCore s x n = some id → earlierWaits s x q = false →
       coreFree s x id = true → c.retention = .awake → q.groups = [] → k.runs = [] → c.memBad = [] →
       (s.ctx x).image.kernels.find? (fun p => p.1 == q.record.kernel) = some (q.record.kernel, k) →
       installAll x q.record.kernel (s.ctx x).tag k.macros [id / 8] s = some s1 →
       ∃ t, exec (.launchLoad x l) s = .next t ∧ t.launch x l = some { q with st := .loading } ∧
         let d := t.core id
         d.ctx = some x ∧ d.lslot = l ∧ d.lcore = n ∧ d.tag = (s.ctx x).tag ∧ d.group = none ∧ d.status = .idle ∧
         d.resVregs = BitVec.ofNat 32 k.header.vregs ∧ d.resBars = BitVec.ofNat 32 k.header.bars ∧
         d.resLocal = BitVec.ofNat 32 k.header.localLen ∧ d.resMacros = BitVec.ofNat 32 k.header.macros ∧ d.barmember = 0 ∧
         d.ring = Ring.reset ∧ (∀ y < k.header.localLen, readByte d.mem y = 0) ∧
         (∀ y, k.header.localLen ≤ y → readByte d.mem y = if c.ctx = some x then readByte c.mem y else 0) ∧
         ∀ m, m ≠ id → t.core m = s.core m) ∧
     (q.st = .placing → areaOf q.record = [n] → grantedCore s x n = some id → earlierWaits s x q = false →
       coreFree s x id = true → c.retention = .retained →
       (s.ctx x).image.kernels.find? (fun p => p.1 == q.record.kernel) = some (q.record.kernel, k) →
       exec (.launchLoad x l) s = .next (s.setCore id { c with retention := .exiting (s.now + 2048) })) ∧
     (q.st = .placing → earlierWaits s x q = true → exec (.launchLoad x l) s = .next s) ∧
     (q.st = .placing → areaOf q.record = [n] → grantedCore s x n = some id → coreFree s x id = false →
       exec (.launchLoad x l) s = .next s) ∧
     (q.st = .loading → (s.ctx x).pending = false → (s.ctx x).haltKind = .none → coresIn s x l = [id] →
       (s.now < c.zeroUntil → exec (.launchStart x l) s = .next s) ∧
       (c.zeroUntil ≤ s.now → c.retention = .retained →
         exec (.launchStart x l) s = .next (s.setCore id { c with retention := .exiting (s.now + 2048) })) ∧
       (c.zeroUntil ≤ s.now → c.retention = .awake → exec (.launchStart x l) s = .next (((s.setLaunch x l { q with st := .running }).pickUp id
         (contBytes (BitVec.ofNat 32 q.record.entry) (contFlags x l c.group true) (BitVec.ofNat 32 c.lcore :: q.record.args) 0)
         s.now).standRunning id))) ∧
     (q.st = .running → s.late ≠ [] → exec (.launchEnd x l) s = .next s) ∧
     (∀ t, q.st = .running → launchDone s x l = true → s.late = [] → reportWaits s q.origin = some t → exec (.launchEnd x l) s = .next t) ∧
     (q.st = .running → launchDone s x l = true → s.late = [] → reportWaits s q.origin = none → q.record.sigAddr = 0 →
       (s.ctx x).launches = [(l, q)] →
       ∃ t, exec (.launchEnd x l) s = .next t ∧ t.launch x l = none ∧ (t.ctx x).st = .ready ∧ (t.ctx x).pending = false ∧
         (t.ctx x).haltKind = .none ∧ (∀ m, (s.core m).ctx = some x → (t.core m).haltReq = .none) ∧
         (∀ m, (s.core m).ctx = some x → (s.core m).lslot = l → (t.core m).group = none ∧ (t.core m).lslot = 16) ∧
         ∀ f j r : Nat, q.origin = some (f, j, r) → (s.queue f j).hostMem = true → hostReach s f = true → memWf s.hostMem = true →
           let at' := (s.queue f j).repBase + 16 * (r % 2 ^ (s.queue f j).log2n)
           (∀ i < 16, some (readByte t.hostMem (at' + i)) = (reportBytes (BitVec.ofNat 32 r) 2 0 l)[i]?) ∧
           ∀ y, y < at' ∨ at' + 16 ≤ y → readByte t.hostMem y = readByte s.hostMem y) ∧
     (q.st = .running → launchDone s x l = false → exec (.launchEnd x l) s = .next s)) ∧
  (∀ (s : State) (x : Nat) (r : LaunchRec) (k : Kernel),
     (r.ok = false → admission s x r = .reject 1) ∧
     (r.ok = true → r.image ≠ x → admission s x r = .reject 2) ∧
     (r.ok = true → r.image = x → (s.ctx x).image.kernels.find? (fun p => p.1 == r.kernel) = some (r.kernel, k) →
       let gs := formGroups s x k r
       let good2 := k.header.ok = true ∧ r.lindex < k.nLaunch ∧ r.entry % 4 = 0 ∧ r.entry < k.header.codeLen
       let good3 := 1 ≤ r.rows ∧ r.rows ≤ 512 ∧ 1 ≤ r.cols ∧ r.cols ≤ 1280 ∧ r.col0 < 1280 ∧
         ∀ g ∈ k.groups, g.launch = r.lindex → g.row0 + g.rows ≤ r.rows ∧ g.col0 + g.cols ≤ r.cols
       let good4 := levelsOk s x r.levels = true ∧ unitsKept s x r = true
       let good5 := ∀ n ∈ areaOf r, grantedCore s x n ≠ none
       let good6 := rootsOk s x gs = true
       let good7 := ∀ g ∈ gs, tableOk g k.header.localLen = true
       (¬good2 → admission s x r = .reject 2) ∧
       (good2 → ¬good3 → admission s x r = .reject 3) ∧
       (good2 → good3 → ¬good4 → admission s x r = .reject 4) ∧
       (good2 → good3 → good4 → ¬good5 → admission s x r = .reject 5) ∧
       (good2 → good3 → good4 → good5 → ¬good6 → admission s x r = .reject 6) ∧
       (good2 → good3 → good4 → good5 → good6 → ¬good7 → admission s x r = .reject 7) ∧
       (good2 → good3 → good4 → good5 → good6 → good7 → r.povr = false →
         (freeSlot s x = none → admission s x r = .reject 9) ∧
         (freeSlot s x ≠ none → r.waitAddr = 0 → r.sigAddr = 0 → k.macros = [] → admission s x r = .ok k.patch gs))))

/-- 18 R399, R400, R402, R403, R407: a doorbell with too many records is an error; another sets TAIL, and the head of an empty
queue becomes READY, or WAITING on its counter, or waits for a link that retrains, or puts the queue in ERROR where it cannot
be read; a counter is polled until it reaches the value; a record is taken from the chosen queue of the active function, HEAD
rising, and its launch enters PLACING; a doorbell at a port that a refused boot has closed does nothing (20 R433; 21 R444,
R450). 18 R407: of the contexts that may have a record taken the one of the smallest pass is chosen, the lowest number on a
tie; of its READY queues one of the highest priority. -/
def Obligations.QueuesChoose : Prop :=
  (∀ (s : State) (f j x tag l : Nat) (tail : Word) (bs cs : List Byte) (patch : List Word) (gs : List Group),
     let q := s.queue f j
     let r := decodeRecord bs
     (closedTo s f = true → exec (.doorbell f j tail) s = .next s) ∧
     (j < 1024 → (s.func f).resetting = false → closedTo s f = false → q.enabled = true →
       (2 ^ q.log2n < (tail - q.head).toNat → exec (.doorbell f j tail) s =
         .next (s.setQueue f j { q with st := .error, err := 1 })) ∧
       ((tail - q.head).toNat ≤ 2 ^ q.log2n → q.st = .empty →
         (tail = q.head → exec (.doorbell f j tail) s = .next ((s.setQueue f j { q with tail := tail }).setQueue f j
           { q with tail := tail })) ∧
         (tail ≠ q.head → q.hostMem = true → hostHeld s f = true → exec (.doorbell f j tail) s = .next
           ((s.setQueue f j { q with tail := tail }).setQueue f j { q with tail := tail, st := .waiting, pollAt := s.time })) ∧
         (tail ≠ q.head → ringHeld s f q = false → headBytes s f q = .none → ∃ t, exec (.doorbell f j tail) s = .next t ∧
           t.queue f j = { q with tail := tail, st := .error, err := 2 }) ∧
         (tail ≠ q.head → q.hostMem = true → hostReach s f = true → hostHeld s f = false →
           bs = readBytes s.hostMem (q.ringBase + 256 * (q.head.toNat % 2 ^ q.log2n)) 256 → r.waitAddr = 0 →
           ∃ t, exec (.doorbell f j tail) s = .next t ∧ t.queue f j = { q with tail := tail, st := .ready }))) ∧
     (q.enabled = false → exec (.doorbell f j tail) s = .next s) ∧
     (q.st = .waiting → q.pollAt ≤ s.time → q.tail ≠ q.head → q.hostMem = true → hostReach s f = true → hostHeld s f = false →
       bs = readBytes s.hostMem (q.ringBase + 256 * (q.head.toNat % 2 ^ q.log2n)) 256 → r.waitAddr ≠ 0 →
       counterOk s q.ctx r.waitAddr = true → readWhole s q.ctx r.waitAddr 8 = .bytes cs →
       (r.waitVal ≤ leNat cs → ∃ t, exec (.eventCounterPoll f j) s = .next t ∧ t.queue f j = { q with st := .ready }) ∧
       (leNat cs < r.waitVal → exec (.eventCounterPoll f j) s =
         .next (s.setQueue f j { q with st := .waiting, pollAt := s.time + timeOf 10 }))) ∧
     (s.time < q.pollAt → exec (.eventCounterPoll f j) s = .next s) ∧
     ((look [] tag s.rotations).head? = some f → s.mode = .service → s.overTemp = false → sliceOver s tag = false →
       (s.func f).resetting = false → leastCtx s ((ctxsOf s f).filter (mayTake s)) = some x →
       (∃ p, chosenQueue s x = some (j, p)) → ringHeld s f q = false → headBytes s f q = .bytes bs →
       (∀ k, admission s x r ≠ .stall k) → admission (s.takeHead f x j) x r = .ok patch gs →
       freeSlot (s.takeHead f x j) x = some l →
       ∃ t, exec (.queueTake tag) s = .next t ∧ (t.queue f j).head = q.head + 1 ∧ (t.queue f j).tail = q.tail ∧
         (t.ctx x).st = .running ∧ ∃ u, t.launch x l = some u ∧ u.st = .placing ∧ u.record = r ∧ u.patch = patch ∧ u.groups = gs ∧
           u.origin = some (f, j, q.head.toNat)) ∧
     (s.mode = .maintenance ∨ s.overTemp = true → exec (.queueTake tag) s = .next s)) ∧
  (∀ (s : State) (xs : List Nat) (x q : Nat) (r : HQueue),
     (xs.Pairwise (· < ·) → leastCtx s xs = some x → x ∈ xs ∧
       ∀ y ∈ xs, (s.ctx x).pass < (s.ctx y).pass ∨ (s.ctx x).pass = (s.ctx y).pass ∧ x ≤ y) ∧
     (chosenQueue s x = some (q, r) → (q, r) ∈ queuesOf s x ∧ r.st = .ready ∧
       ∀ p ∈ queuesOf s x, p.2.st = .ready → p.2.prio ≤ r.prio))

/-- 18 R405; 19 R412, R414 to R416; 08 R215: the end of a slice, or its function's having no work, pre-empts the running contexts
of its function, and rotates once none runs; a boundary wait that expires forces the cores that have not halted, and lets an
idle one pick up nothing more; a pre-emption, or a halt, completes once every core rests and no memory is in retention: the
cores go to the save area and are released. 10 R263; 19 R411, R412, R416, R418, R425, R427, R428; 08 R215; 20 R433: SAVE and
DUMP begin, and complete once the context has stopped, its reports are written (log 28) and its memories awake: the image is
written to host memory within the limit, its header at its start with mark, length and manifest, and the command answers its
length; the last harvest of SAVE stands behind the image, within the limit, and a word of ones ends it (log 70); beyond the
limit it fails with ERR 5, and a context that was running goes on (log 63). RESTORE checks the header, the logical cores, the
queues, lanes and roots in order, and installs the image (logs 9, 64, 86). -/
def Obligations.ContextsStopAndSave : Prop :=
  (∀ (s : State) (tag f g x : Nat),
     let c := s.ctx x
     let kept (t : State) : Prop := (t.ctx x).saveArea = savedCores s x ∧ (t.ctx x).pending = false ∧
       ∀ id, (s.core id).ctx = some x → (t.core id).ctx = none ∧ (t.core id).status = .idle ∧ (t.core id).mem = []
     (look [] tag s.rotations = [f, g] → look 0 tag s.sliceEnd ≤ s.time ∨ idleFunc s f = true →
       ((∀ y ∈ ctxsOf s f, (s.ctx y).st ≠ .running) → ∃ t, exec (.sliceExpiry tag) s = .next t ∧
         look [] tag t.rotations = [g, f] ∧ t.cores = s.cores ∧
         (f ≠ g → look 0 tag t.sliceEnd = s.time + max (timeOf 250) (timeOf (s.func g).sliceUs - (s.func g).owed))) ∧
       ((ctxsOf s f).filter (fun y => (s.ctx y).st == .running) = [x] → c.haltKind = .none → c.pending = false →
         collectiveOpen s x = false → exec (.sliceExpiry tag) s = .next ((s.setCtx x
           { c with pending := true, deferred := false, pendingAt := s.time, paused := .slice }).askHalt x .boundary))) ∧
     (look [] tag s.rotations = [f] → exec (.sliceExpiry tag) s = .next s) ∧
     (c.st = .running → c.pending = true → c.deferred = false →
       (c.forced = false → allRest s x = false →
         c.pendingAt + timeOf (1000 * (s.func c.func).waitMs) ≤ s.time → ∃ t, exec (.boundaryWaitExpiry x) s = .next t ∧
           (t.ctx x) = { c with forced := true } ∧
           (∀ id, (s.core id).ctx = some x → (s.core id).status = .running ∨ (s.core id).status = .debugStopped →
             t.core id = { s.core id with haltReq := .forced, latch := true }) ∧
           (∀ id, (s.core id).ctx = some x → (s.core id).status = .idle → t.core id = { s.core id with haltReq := .halt }) ∧
           ∀ id, (s.core id).ctx ≠ some x → t.core id = s.core id) ∧
       (s.time < c.pendingAt + timeOf (1000 * (s.func c.func).waitMs) → exec (.boundaryWaitExpiry x) s = .next s) ∧
       (c.haltKind = .none → allRest s x = true → memoriesAwake s x = false →
         exec (.preemptionComplete x) s = .next (s.rouseCores x)) ∧
       (c.haltKind = .none → allRest s x = true → memoriesAwake s x = true → ∃ t, exec (.preemptionComplete x) s = .next t ∧ (t.ctx x).st = .preempted ∧
         kept t) ∧
       (allRest s x = false → exec (.preemptionComplete x) s = .next s)) ∧
     (c.st = .running → c.deferred = false →
       (c.haltKind = .halt → allRest s x = true → memoriesAwake s x = true → ∃ t, exec (.haltComplete x) s = .next t ∧ (t.ctx x).st = .quiesced ∧
         (t.ctx x).halted = true ∧ (t.ctx x).haltKind = .none ∧ kept t) ∧
       (c.haltKind ≠ .none → allRest s x = false → exec (.haltComplete x) s = .next s))) ∧
  (∀ (s q : State) (f x out limit e : Nat) (qs : List Nat), out < 2 ^ 64 → hostReach s f = true → (s.ctx x).func = f →
     let c := s.ctx x
     let im := imageOf (s.setCtx x { c with haltKind := .none, halted := c.halted || c.st == .running }) x (c.st == .faulted)
     let began (t : State) : Prop := (t.func f).busy = true ∧ (t.func f).done = false ∧ (t.ctx x).haltKind = .save ∧
       (t.ctx x).saveArgs = (out, limit) ∧ t.hostMem = s.hostMem
     let answered (t : State) : Prop := (t.func f).done = true ∧ (t.func f).err = 0 ∧
       (t.func f).args[1] = BitVec.ofNat 32 im.1 ∧ (t.func f).args[2] = BitVec.ofNat 32 (im.1 / 2 ^ 32)
     let units := (dirtyUnits s x).take ((limit - im.1) / 8 - 1)
     let wrote (t : State) : Prop := answered t ∧ (∀ i < im.1, readByte t.hostMem (out + i) = readByte im.2 i) ∧
       (∀ y, y < out ∨ out + limit ≤ y → readByte t.hostMem y = readByte s.hostMem y) ∧
       (im.1 + 8 ≤ limit →
         (∀ i, ∀ u, units[i]? = some u → leNat (readBytes t.hostMem (out + im.1 + 8 * i) 8) = u.1 % 2 ^ 64) ∧
         leNat (readBytes t.hostMem (out + im.1 + 8 * units.length) 8) = 2 ^ 64 - 1 ∧
         (c.st ≠ .running → t.dirty = s.dirty.filter fun n => !(units.any fun u => u.2.contains n))) ∧
       (limit < im.1 + 8 → c.st ≠ .running → t.dirty = s.dirty)
     let failed (t : State) : Prop := t.hostMem = s.hostMem ∧ (t.func f).done = true ∧ (t.func f).busy = false ∧ (t.func f).err = 5
     (Owns s f x → c.st = .preempted ∨ c.st = .quiesced → ∃ t, exec (.save f x out limit) s = .next t ∧ began t ∧ t.cores = s.cores) ∧
     (Owns s f x → c.st = .running → c.haltKind ≠ .halt → collectiveOpen s x = false → ∃ t,
       exec (.save f x out limit) s = .next t ∧ began t ∧ (t.ctx x).repend = c.pending ∧ (t.ctx x).pending = false ∧
       (t.ctx x).forced = false ∧ ∀ id, (s.core id).ctx = some x → t.core id = { s.core id with haltReq := .halt, latch := true }) ∧
     (Owns s f x → c.st = .running → c.haltKind = .halt → ∃ t, exec (.save f x out limit) s = .next t ∧ began t ∧
       (t.ctx x).halted = true ∧ t.cores = s.cores) ∧
     (Owns s f x → c.st = .faulted → ∃ t, exec (.dump f x out limit) s = .next t ∧ began t ∧ t.cores = s.cores) ∧
     (c.haltKind = .save → (c.st ≠ .running ∨ allRest s x = false) → c.st ≠ .preempted → c.st ≠ .quiesced →
       c.st ≠ .faulted → exec (.saveComplete x) s = .next s) ∧
     (hostHeld s f = true → exec (.saveComplete x) s = .next s) ∧
     (imageReady s x = true → hostHeld s f = false → memoriesAwake s x = false →
       exec (.saveComplete x) s = .next (s.rouseCores x)) ∧
     (imageReady s x = true → hostHeld s f = false → memoriesAwake s x = true → c.saveArgs = (out, limit) →
       memWf s.hostMem = true →
       (limit < im.1 → c.st ≠ .running → ∃ t, exec (.saveComplete x) s = .next t ∧ failed t ∧ (t.ctx x).st = c.st) ∧
       (limit < im.1 → c.st = .running → c.halted = false → ∃ t, exec (.saveComplete x) s = .next t ∧ failed t ∧
         (t.ctx x).st = .running ∧ (t.ctx x).haltKind = .none) ∧
       (im.1 ≤ limit → c.st = .preempted ∨ c.st = .quiesced → ∃ t, exec (.saveComplete x) s = .next t ∧ wrote t ∧
         (t.ctx x).st = .saved ∧ t.cores = s.cores) ∧
       (im.1 ≤ limit → c.st = .faulted → ∃ t, exec (.saveComplete x) s = .next t ∧ answered t ∧
         t.hostMem = copyRange s.hostMem out im.2 0 im.1 ∧ t.dirty = s.dirty ∧ (t.ctx x).st = .faulted) ∧
       (im.1 ≤ limit → c.st = .running → ∃ t, exec (.saveComplete x) s = .next t ∧ wrote t ∧ (t.ctx x).st = .saved ∧
         (t.ctx x).saveArea = savedCores s x)) ∧
     (∃ m, im.2 = writeBytes m 0 (leBytes 0x58544E43 4 ++ leBytes 1 2 ++ leBytes 1 2 ++ leBytes x 2 ++
       leBytes ((if c.forced then 1 else 0) + (if c.st = .faulted then 2 else 0) +
         (if c.halted ∨ c.st = .running then 4 else 0)) 2 ++ leBytes 8 4 ++ leBytes im.1 8 ++
         leBytes c.image.manifest.toNat 32)) ∧
     (Owns s f x → c.st = .ready → c.launches = [] →
       let got := readImageAt s f x out qs
       let granted := ∀ r ∈ got.cores, grantedCore s x r.core.lcore ≠ none
       (headerError s x out = some e → exec (.restore f x out) s = .next (s.finish f e [])) ∧
       (headerError s x out = none → queueNumbers s f (sectionAt s.hostMem out 8).1 = some qs →
         (¬granted → exec (.restore f x out) s = .next (s.finish f 2 [])) ∧
         (granted → (∃ n < 32, laneBusy s x n = true) → exec (.restore f x out) s = .next (s.finish f 5 [])) ∧
         (granted → (∀ n < 32, laneBusy s x n = false) →
           (∀ p ∈ got.lanes, (s.lane p.1).owner = none ∨ (s.lane p.1).owner = some x) →
           rootsApart s (got.launches.flatMap fun p => p.2.groups.map (resumedGroup s x)) = true →
           s.installImage f x got qs = some q → exec (.restore f x out) s = .next (q.finish f 0 []) ∧ (q.ctx x).st = .saved))))

/-- 19 R410, R411; 20 R442; 21 R450; that the errors 2, 3 and 4 are found in this order, and for which states, is the model's
choice (log 50): every command on a context checks its mailbox, the number, the context's state and its function in order; a
command given while another executes, while the function is being reset, or at a port that a refused boot has closed, changes
nothing; a command that completes leaves DONE, its error and its results; an unknown code gives ERR 1. 19 R411, R412, R416,
R417, R419; 21 R448: what the commands that start, stop and steer a context do. That PREEMPT, HALT and RESUME are done at
their acceptance is the model's choice (log 49). A context that comes back to cores of another waits for their zeroing (log
67). -/
def Obligations.ContextCommands : Prop :=
  (∀ (s : State) (f x n va : Nat) (code : BitVec 16) (m : BitVec 32) (u : BitVec 8),
     (∀ i ∈ [Instr.terminate f x, .unmap f x va, .evict f x va, .preempt f x, .resume f x, .signal f x code, .halt f x,
       .trackStart f x, .trackStop f x, .qctlDisable f x n, .qctlEnable f x n, .qctlReset f x n, .setparmWeight f x n,
       .setparmSlice f x n, .setparmBoundaryWait f x n, .setparmLaneRequest f x m, .setparmPageQuota f x n, .dbggo f x n,
       .harvest f x va n, .save f x va n, .restore f x va, .dump f x va n],
       ((s.func f).busy = true ∨ (s.func f).resetting = true ∨ 512 < f ∨ closedTo s f = true → exec i s = .next s) ∧
       (Accepts s f →
         (4096 ≤ x → exec i s = .next (s.finish f 2 [])) ∧
         (x < 4096 → (s.ctx x).st = .free → exec i s = .next (s.finish f 3 [])) ∧
         (x < 4096 → (s.ctx x).st ≠ .free → (s.ctx x).func ≠ f → exec i s = .next (s.finish f 4 [])))) ∧
     (Owns s f x → (s.ctx x).st = .loading → ∀ i ∈ [Instr.unmap f x va, .evict f x va, .preempt f x, .resume f x, .signal f x code,
       .halt f x, .dbggo f x n, .save f x va n, .restore f x va, .dump f x va n], exec i s = .next (s.finish f 3 [])) ∧
     (Accepts s f → commandCode u = false → exec (.mbcmdUnknownCode f u) s = .next (s.finish f 1 [])) ∧
     (let r := (s.finish f n [(1, m)]).func f
      r.busy = false ∧ r.done = true ∧ r.vec0 = (s.func f).vec0 + 1 ∧ r.err = n ∧ r.args = (s.func f).args.set 1 m ∧ r.windows = (s.func f).windows ∧
        r.tag = (s.func f).tag)) ∧
  (∀ (s s1 : State) (f x lcore id : Nat) (code : BitVec 16) (ps : List (Nat × Core)), Owns s f x →
     let c := s.ctx x
     let done (t : State) : Prop := (t.func f).done = true ∧ (t.func f).busy = false ∧ (t.func f).err = 0
     (c.st = .terminated → exec (.terminate f x) s = .next (s.finish f 0 [])) ∧
     (c.st ≠ .terminated → ∃ t, exec (.terminate f x) s = .next t ∧ (t.ctx x).st = .terminated ∧ (t.ctx x).launches = [] ∧
       (t.ctx x).pool = [] ∧ done t ∧ ∀ id, (s.core id).ctx = some x → (t.core id).ctx = none ∧ (t.core id).status = .idle) ∧
     (c.st = .running → c.haltKind = .none → c.pending = false → collectiveOpen s x = false → exec (.preempt f x) s =
       .next (((s.setCtx x { c with pending := true, deferred := false, pendingAt := s.time, paused := .host }).askHalt x
         .boundary).finish f 0 [])) ∧
     (c.st = .running → exec (.halt f x) s = .next (((s.setCtx x { c with
       haltKind := .halt, pending := false, deferred := false, forced := false }).askHalt x .halt).finish f 0 [])) ∧
     (c.st = .preempted → exec (.halt f x) s = .next ((s.setCtx x { c with
       st := .quiesced, resuming := false, paused := .host }).finish f 0 [])) ∧
     (c.st = .preempted ∨ c.st = .quiesced ∨ c.st = .saved →
       (c.suspended = true → exec (.resume f x) s = .next (s.finish f 3 [])) ∧
       (let s0 := s.setCtx x { c with resuming := true, paused := .host }
        c.suspended = false → c.haltKind = .none → s.mode = .service → s.overTemp = false → activeFunc s f = true →
          placesOf s0 x c.saveArea = some ps →
          rootsApart s0 (c.launches.flatMap fun p => p.2.groups.map (resumedGroup s0 x)) = true → placesFree s0 x ps = true →
          (placesClean s0 x ps = false → exec (.resume f x) s = .next ((s0.passCores x ps).finish f 0 [])) ∧
          (placesClean s0 x ps = true → installLaunches x c.tag ps c.launches s0 = some s1 →
          exec (.resume f x) s = .next ((s1.restoreCores x ps).finish f 0 []) ∧ ((s1.restoreCores x ps).ctx x).st = .running))) ∧
     (c.st = .running → ∃ t, exec (.signal f x code) s = .next t ∧ done t ∧
       (∀ id, (s.core id).ctx = some x →
         ((s.core id).status ≠ .idle → (s.core id).status ≠ .stopped →
           t.core id = { s.core id with signal := some code, latch := true }) ∧
         ((s.core id).status = .idle ∨ (s.core id).status = .stopped → t.core id = { s.core id with latch := true })) ∧
       ∀ id, (s.core id).ctx ≠ some x → t.core id = s.core id) ∧
     (c.st = .running → memberCore s x lcore = some id → (s.core id).status = .debugStopped → exec (.dbggo f x lcore) s =
       .next ((s.setCore id { (s.core id).transfer (s.core id).tpc with status := .running, readyAt := max s.now (s.core id).readyAt }).finish f 0 [])) ∧
     (c.st = .running → memberCore s x lcore = some id → (s.core id).status = .debugHalted → exec (.dbggo f x lcore) s =
       .next ((s.setCore id { (s.core id).transfer (s.core id).tpc with status := .halted }).finish f 0 [])) ∧
     (c.st = .running → memberCore s x lcore = some id → (s.core id).status ≠ .debugStopped →
       (s.core id).status ≠ .debugHalted → exec (.dbggo f x lcore) s = .next (s.finish f 2 [])) ∧
     (c.st = .running → memberCore s x lcore = none → exec (.dbggo f x lcore) s = .next (s.finish f 2 [])))

/-- 18 R402, R405, R406; 10 R253; 14 R322; 19 R411, R415: QUEUE, QCTL and SETPARM. That the slice is in microseconds and the
boundary wait in milliseconds, that each command is done at once, and that lanes are granted as far as they are free, are the
model's choices (logs 5, 49, 88). -/
def Obligations.QueueAndParameterCommands : Prop :=
  ∀ (s : State) (f x j n ring rep : Nat) (host : Bool) (prio log2n : Nat) (m : BitVec 32), Owns s f x →
    let c := s.ctx x
    let q := s.queue f j
    (mappingStates c.st = true → prio ≤ 7 → 4 ≤ log2n → log2n ≤ 16 → ring % 4096 = 0 → rep % 4096 = 0 → ring < 2 ^ 64 →
      rep < 2 ^ 64 → j < 1024 → q.st = .absent → (∀ k < j, (s.queue f k).st ≠ .absent) →
      exec (.queue f x ring rep host prio log2n) s = .next ((s.setQueue f j { HQueue.reset with
        ctx := x, repBase := rep, ringBase := ring, hostMem := host, prio := prio, log2n := log2n, st := .empty }).finish f 0
          [(1, BitVec.ofNat 32 j)])) ∧
    (mappingStates c.st = true → 7 < prio ∨ log2n < 4 ∨ 16 < log2n ∨ ring % 4096 ≠ 0 →
      exec (.queue f x ring rep host prio log2n) s = .next (s.finish f 2 [])) ∧
    (c.st ≠ .terminated → j < 1024 → q.st ≠ .absent → q.ctx = x →
      exec (.qctlDisable f x j) s = .next ((s.setQueue f j { q with st := .disabled }).finish f 0 []) ∧
      (q.st = .disabled → exec (.qctlEnable f x j) s = .next ((s.setQueue f j { q with
        st := .empty, head := 0, tail := 0, sigErr := false, err := 0, childRej := 0 }).finish f 0 [])) ∧
      (q.st = .error → exec (.qctlReset f x j) s =
        .next ((s.setQueue f j { q with st := .empty, head := q.tail, err := 0 }).finish f 0 []))) ∧
    (c.st ≠ .faulted → c.st ≠ .terminated →
      (1 ≤ n → n ≤ 255 → exec (.setparmWeight f x n) s = .next ((s.setCtx x { c with weight := n }).finish f 0 [])) ∧
      (n = 0 ∨ 255 < n → exec (.setparmWeight f x n) s = .next (s.finish f 2 [])) ∧
      (250 ≤ n → n ≤ 64000 → exec (.setparmSlice f x n) s =
        .next ((s.setFunc f { s.func f with sliceUs := n }).finish f 0 [])) ∧
      (n < 250 ∨ 64000 < n → exec (.setparmSlice f x n) s = .next (s.finish f 2 [])) ∧
      (1 ≤ n → n ≤ 1000 → exec (.setparmBoundaryWait f x n) s =
        .next ((s.setFunc f { s.func f with waitMs := n }).finish f 0 [])) ∧
      (n = 0 ∨ 1000 < n → exec (.setparmBoundaryWait f x n) s = .next (s.finish f 2 [])) ∧
      exec (.setparmPageQuota f x n) s = .next ((s.setCtx x { c with quota := n }).finish f 0 []) ∧
      ∃ t, exec (.setparmLaneRequest f x m) s = .next t ∧ (t.func f).done = true ∧ (t.func f).err = 0 ∧ ∀ k < 32,
        (m.getLsbD k = true → (s.lane k).owner = none → (t.lane k).owner = some x ∧ (t.ctx x).laneMask.getLsbD k = true) ∧
        (m.getLsbD k = false ∨ (s.lane k).owner ≠ none → t.lane k = s.lane k ∧
          (t.ctx x).laneMask.getLsbD k = c.laneMask.getLsbD k))

/-- 19 R411, R412, R421, R424; 08 R215; 21 R448, R450: the life of a context and of a partition: CREATE takes the lowest free
number for an image that passes the loader's checks; loading completes with READY; zeroing a terminated context blanks its
frames and frees it; PARTSET moves the cores of its bitmap that no context loses at once, once those in retention are awake,
PARTFUNC binds a function. That CREATE goes on after its acceptance while PARTSET and PARTDROP are done at theirs, where what
is chosen stands, and that ERR 5 at the end of loading tells of tables or frames that are missing are the model's choices
(logs 5, 49, 105). -/
def Obligations.ContextAndPartitionLife : Prop :=
  ∀ (s q : State) (f g x image key tag map : Nat) (im im' : Image) (ts : List (Nat × Nat × BitVec 256))
    (trees : Table (BitVec 256)),
    let cores := bitmapCores s.hostMem map
    (Accepts s f → (s.func f).tag ≠ 0 → image < 2 ^ 64 → key < 2 ^ 64 → hostReach s f = true → s.overTemp = false →
      x < 4096 → (s.ctx x).st = .free → (∀ y < x, (s.ctx y).st ≠ .free) → loadImage s.hostMem image key = some (im, ts) →
      layoutFor im ts = some (im', trees) → ∃ t, exec (.create f image key 0) s = .next t ∧ (t.func f).busy = true ∧
        t.ctx x = { Context.reset with st := .loading, func := f, tag := (s.func f).tag, image := im', trees := trees } ∧
        t.cores = s.cores ∧ t.hbm = s.hbm) ∧
    (Accepts s f → (s.func f).tag = 0 → exec (.create f image key 0) s = .next (s.finish f 4 [])) ∧
    (Accepts s f → (s.func f).tag ≠ 0 → image < 2 ^ 64 → key < 2 ^ 64 → hostReach s f = true → s.overTemp = false →
      x < 4096 → (s.ctx x).st = .free → loadImage s.hostMem image key = none →
      exec (.create f image key 0) s = .next (s.finish f 6 [])) ∧
    ((s.ctx x).st = .loading → (s.ctx x).func = f → s.loadContext x = some q →
      ∃ t, exec (.contextLoadComplete x) s = .next t ∧ (t.ctx x).st = .ready ∧ (t.func f).done = true ∧ (t.func f).err = 0 ∧
        (t.func f).args[0] = BitVec.ofNat 32 x ∧ t.hbm = q.hbm) ∧
    ((s.ctx x).st = .loading → (s.ctx x).func = f → s.loadContext x = none → ∃ t, exec (.contextLoadComplete x) s = .next t ∧
      (t.ctx x).st = .free ∧ (t.func f).err = 5) ∧
    ((s.ctx x).st = .terminated → (∀ d ∈ s.shoot, d.ctx ≠ x) → owesReports s x = false → ∃ t, exec (.zeroingComplete x) s = .next t ∧
      t.ctx x = Context.reset ∧ ∀ r ∈ rangesOf s x, ∀ y, r.1 ≤ y → y < r.1 + r.2 → readByte t.hbm y = 0) ∧
    (Accepts s 512 → 1 ≤ tag → tag ≤ 1023 → map < 2 ^ 64 → hostReach s 512 = true →
      (∀ c ∈ cores, namesCore c = true ∧ rowEnabled s (dieOf c) (rowOf c) = true) → s.pendTags = [] → losers s cores tag = [] →
      (∀ c ∈ cores, tagOf s c ≠ tag → (s.core c).retention = .awake) →
      ∃ t, exec (.partset 512 tag map) s = .next t ∧ (t.func 512).done = true ∧ (t.func 512).err = 0 ∧
        ∀ c, tagOf t c = if c ∈ cores then tag else tagOf s c) ∧
    (Accepts s 512 → 1 ≤ tag → tag ≤ 1023 → coresOfTag s tag ≠ [] → s.pendTags = [] → losers s (coresOfTag s tag) 0 = [] →
      (∀ c ∈ coresOfTag s tag, (s.core c).retention = .awake) →
      ∃ t, exec (.partdrop 512 tag) s = .next t ∧ (t.func 512).done = true ∧ (t.func 512).err = 0 ∧
        ∀ c, tagOf t c = if c ∈ coresOfTag s tag then 0 else tagOf s c) ∧
    (Accepts s 512 → g < 512 → ctxsOf s g = [] → coresOfTag s tag ≠ [] → exec (.partfunc 512 g tag) s =
      .next ((s.setFunc g { s.func g with tag := tag }).finish 512 0 [])) ∧
    (Accepts s f → f ≠ 512 → ∀ i ∈ [Instr.partset f tag map, .partdrop f tag, .partfunc f g tag],
      exec i s = .next (s.finish f 4 []))

/-- 00 R8; 18 R400; 19 R410, R411; 20 R436; 21 R450: what the host's writes to registers do, each of which completes: argument
words, DONE, QSTAT's clearable bits, the doorbell; MBCMD starts the command that its code names on the arguments in MBARG, as
log 88 lays them out. A window's fields are written while it is not in force; enabling a window checks it, and the first
check that fails gives its error; disabling one with an open epoch aborts it (log 57). At a port that a refused boot has
closed no write does anything. 20 R437 to R441; that closes by AXCHG and ACAS are applied one by one, that a merged result
its home refuses is lost, and what members tell each other and when, are the model's choices (logs 43, 44, 57): a
contribution is accepted once and answered 0; a close ends its module's part; an epoch that every member has closed is
delivered: its merged results in rising order of their elements, then the closes merged into one atomic on CTR, each applied
at home as one atomic, and the epoch number rises; contributions of one op to an element merge, others follow; an epoch whose
watchdog runs out, or that another member aborts, is aborted in every core of the context; what was accepted for the next
epoch opens it; the watchdog starts when another member stops and ends when all run again. -/
def Obligations.HostAndCollectives : Prop :=
  (∀ (s : State) (f i w j : Nat) (v : Word), f ≤ 512 → (s.func f).resetting = false →
     let r := s.func f
     let d := look Window.reset w r.windows
     let n := v.toNat
     let set (d' : Window) : State := s.setFunc f { r with windows := put w d' r.windows }
     let write (off : Nat) := exec (.registerWrite f off v) s
     let word (k : Nat) := write (0x200000 + 64 * w + 4 * k)
     let x := argOf s f 0
     let a := argOf s f 1
     let wide := argPair s f 1
     let wide3 := argPair s f 3
     let key := f * 64 + w
     let ep := look Epoch.reset key s.epochs
     (∀ off, ∃ t, exec (.registerWrite f off v) s = .next t) ∧
     (closedTo s f = true → ∀ off, exec (.registerWrite f off v) s = .next s) ∧ (closedTo s f = false →
     (∀ h : i < 32, write (0x40 + 4 * i) = .next (s.setFunc f { r with args := r.args.set i v })) ∧
     write 4 = .next (s.setFunc f { r with done := r.done && !v.getLsbD 30 }) ∧
     (j < 1024 → let q := s.queue f j
       write (0x100000 + 16 * j) = exec (.doorbell f j v) s ∧
       write (0x100004 + 16 * j) = .next (s.setQueue f j { q with
         sigErr := q.sigErr && !v.getLsbD 28, childRej := q.childRej - (q.childRej &&& n / 2 ^ 16 % 2 ^ 8) })) ∧
     (∀ p ∈ [(0x01, Instr.create f wide wide3 (argPair s f 5)), (0x02, .terminate f x), (0x04, .unmap f x wide), (0x07, .preempt f x),
       (0x08, .resume f x), (0x0A, .halt f x), (0x0C, .harvest f x wide (argOf s f 3)), (0x0D, .save f x wide wide3),
       (0x0E, .restore f x wide), (0x0F, .dump f x wide wide3), (0x11, .dbggo f x a), (0x12, .evict f x wide),
       (0x20, .partset f a (argPair s f 2)), (0x21, .partdrop f a), (0x22, .partfunc f a (argOf s f 2))],
       n % 256 = p.1 → write 0 = exec p.2 s) ∧
     (w < 64 →
       (d.en = true → (∀ k < 16, k ≠ 0 → word k = .next s) ∧ exec (.windowEnable f w) s = .next s ∧
         (v.getLsbD 0 = true → word 0 = .next s) ∧ (v.getLsbD 0 = false → word 0 = exec (.windowDisable f w) s)) ∧
       (d.en = false →
         (v.getLsbD 0 = false → word 0 = .next (set { d with kind := v.getLsbD 2 })) ∧
         (v.getLsbD 0 = true → word 0 = exec (.windowEnable f w) (set { d with kind := v.getLsbD 2 })) ∧
         word 8 = .next (set { d with lctx := n % 2 ^ 12, rctx := n / 2 ^ 12 % 2 ^ 12, home := n / 2 ^ 24 % 2 ^ 6,
                                      wdog := d.wdog / 4 * 4 + n / 2 ^ 30 % 2 ^ 2 }) ∧
         word 9 = .next (set { d with wdog := d.wdog % 4 + n % 2 ^ 8 * 4, len := n / 2 ^ 8 % 2 ^ 24 }) ∧
         word 10 = .next (set { d with members := BitVec.ofNat 64 (d.members.toNat / 2 ^ 32 * 2 ^ 32 + n) }) ∧
         word 11 = .next (set { d with members := BitVec.ofNat 64 (d.members.toNat % 2 ^ 32 + n * 2 ^ 32) }) ∧
         word 12 = .next (set { d with ctr := d.ctr / 2 ^ 32 * 2 ^ 32 + n }) ∧
         word 13 = .next (set { d with ctr := d.ctr % 2 ^ 32 + n * 2 ^ 32 }) ∧
         word 14 = .next (set { d with base := d.base / 2 ^ 32 * 2 ^ 32 + n }) ∧
         word 15 = .next (set { d with base := d.base % 2 ^ 32 + n * 2 ^ 32 }) ∧
         exec (.windowDisable f w) s = .next s ∧
         (d.fieldsOk = false → exec (.windowEnable f w) s = .next (set { d with en := false, errc := 1 })) ∧
         (d.fieldsOk = true → windowMeets r w d = true → exec (.windowEnable f w) s = .next (set { d with en := false, errc := 2 })) ∧
         (d.fieldsOk = true → windowMeets r w d = false → (s.ctx d.lctx).st = .free ∨ (s.ctx d.lctx).func ≠ f →
           exec (.windowEnable f w) s = .next (set { d with en := false, errc := 3 })) ∧
         (d.fieldsOk = true → windowMeets r w d = false → (s.ctx d.lctx).st ≠ .free → (s.ctx d.lctx).func = f →
           (d.home = s.modNum ∧ d.kind = true ∨ d.home ≠ s.modNum ∧ reaches s d.home = true →
             exec (.windowEnable f w) s = .next (set { d with en := true, errc := 0 })) ∧
           (d.home = s.modNum ∧ d.kind = false ∨ d.home ≠ s.modNum ∧ reaches s d.home = false →
             exec (.windowEnable f w) s = .next (set { d with en := false, errc := 4 }))))) ∧
     (w < 64 → d.en = true → d.isOpen = false → exec (.windowDisable f w) s = .next (set { d with en := false })) ∧
     (w < 64 → d.en = true → d.isOpen = true → ∃ t, exec (.windowDisable f w) s = .next t ∧
       look Window.reset w (t.func f).windows =
         { d with en := false, isOpen := !ep.nextPart.isEmpty || !ep.nextClos.isEmpty, epoch := d.epoch + 1 } ∧
       ∀ id, (s.core id).ctx = some d.lctx → (s.core id).status = .running → (t.core id).abort = some (w, d.epoch.toNat, 4)))) ∧
  (∀ (s : State) (x w core seq va pa e page m reason : Nat) (st : PageState) (op : BitVec 4) (v u : Word) (a : Atom) (c : Core)
     (p1 p2 : Contrib),
     let f := (s.ctx x).func
     let d := look Window.reset w (s.func f).windows
     let ep := look Epoch.reset (f * 64 + w) s.epochs
     let now' (t : State) : Window := look Window.reset w (t.func f).windows
     let kept (t : State) : Epoch := look Epoch.reset (f * 64 + w) t.epochs
     let ended (t : State) : Prop :=
       now' t = { d with epoch := d.epoch + 1, isOpen := !ep.nextPart.isEmpty || !ep.nextClos.isEmpty } ∧
       kept t = { Epoch.reset with parts := ep.nextPart, closes := ep.nextClos, stopped := ep.stopped }
     let aborted (t : State) (why : Nat) : Prop := ended t ∧ t.hbm = s.hbm ∧
       (∀ id, (s.core id).ctx = some x → (s.core id).status ≠ .idle →
         t.core id = { s.core id with abort := some (w, d.epoch.toNat, why), latch := true }) ∧
       ∀ id, (s.core id).ctx ≠ some x → t.core id = s.core id
     let other := m < 64 ∧ m ≠ s.modNum ∧ d.members.getLsbD m = true
     let own := (s.core core = c ∧ c.ctx = some x ∧ c.atoms = [a] ∧ a.seq = seq ∧ a.op = op ∧ a.va = va ∧ a.operand = v ∧
       a.place = .switch w ∧ a.applied = false)
     let answered (t : State) : Prop := (a.posted = true → (t.core core).atoms = []) ∧
       (a.posted = false → (t.core core).atoms = [{ a with applied := true, old := 0, flags := 0, bad := false }]) ∧ t.hbm = s.hbm
     d.en = true → d.kind = true → d.lctx = x →
     (own → (∀ k ∈ ep.closes, k.1 ≠ s.modNum) →
       ∃ t, exec (.contributionAccept x w (.value s.modNum core seq op va v)) s = .next t ∧ (now' t).isOpen = true ∧
         (kept t).parts = ep.parts ++ [⟨s.modNum, core, seq, op, va, v, ep.parts.length⟩] ∧ answered t) ∧
     (own → (∃ k ∈ ep.closes, k.1 = s.modNum) → (∀ k ∈ ep.nextClos, k.1 ≠ s.modNum) →
       ∃ t, exec (.contributionAccept x w (.value s.modNum core seq op va v)) s = .next t ∧ (kept t).parts = ep.parts ∧
         (kept t).nextPart = ep.nextPart ++ [⟨s.modNum, core, seq, op, va, v, ep.nextPart.length⟩] ∧ answered t) ∧
     (own → s.cores = [(core, c)] → a.sysRel = true → a.compare = u → d.ctr ≤ va → va < d.ctr + 4 →
       (∀ k ∈ ep.closes, k.1 ≠ s.modNum) →
       ∃ t, exec (.contributionAccept x w (.close s.modNum op v u)) s = .next t ∧ (now' t).isOpen = true ∧
         (kept t).closes = ep.closes ++ [(s.modNum, op, v, u)] ∧ answered t) ∧
     (other → (∀ k ∈ ep.closes, k.1 ≠ m) → op.toNat ≤ 10 →
       ∃ t, exec (.contributionAccept x w (.close m op v u)) s = .next t ∧ (now' t).isOpen = true ∧
         (kept t).closes = ep.closes ++ [(m, op, v, u)] ∧ t.cores = s.cores ∧ t.hbm = s.hbm) ∧
     (d.isOpen = true → (∃ m < 64, d.members.getLsbD m = true ∧ ∀ k ∈ ep.closes, k.1 ≠ m) →
       exec (.epochDeliver x w) s = .next s) ∧
     (d.isOpen = true → (∀ m < 64, d.members.getLsbD m = true → ∃ k ∈ ep.closes, k.1 = m) →
       (d.home ≠ s.modNum → ∃ t, exec (.epochDeliver x w) s = .next t ∧ ended t ∧ t.hbm = s.hbm) ∧
       (d.home = s.modNum → epochStall s d.rctx (epochAtomics d ep) = some (page, st) →
         exec (.epochDeliver x w) s = .next (s.requestPage d.rctx page st)) ∧
       (d.home = s.modNum → epochStall s d.rctx (epochAtomics d ep) = none →
         exec (.epochDeliver x w) s = .next (((epochAtomics d ep).foldl (applyMerged d.rctx) s).nextEpoch f w d)) ∧
       (d.home = s.modNum → ep.parts = [p1, p2] → ep.closes = [] → p1.va = va → p2.va = va →
         p1.op = 0 → p2.op = 0 → translate s d.rctx (s.ctx d.rctx).tag va .atomic = .ok pa e → leafState e ≠ some .replicated →
         s.rangeGood (pa - pa % 256) ((pa % 256 + 4 + 255) / 256 * 256) = true → memWf s.hbm = true →
         ∃ t, exec (.epochDeliver x w) s = .next t ∧ ended t ∧
           readWord t.hbm pa = readWord s.hbm pa + (p1.operand + p2.operand) ∧
           ∀ y, y < pa ∨ pa + 4 ≤ y → readByte t.hbm y = readByte s.hbm y)) ∧
     (p1.op = p2.op → p1.op ≠ 10 → elementAtomics [p1, p2] = [(p1.op, (atomicValue p1.op p1.operand p2.operand).1)]) ∧
     (p1.op ≠ p2.op → elementAtomics [p1, p2] = [(p1.op, mergedValue p1.op [p1]), (p2.op, p2.operand)]) ∧
     closeAtomics [(m, 0, v, u)] = [(0, v, 0)] ∧ closeAtomics [(m, 8, v, u)] = [(8, v, u)] ∧
     closeAtomics [(m, 9, v, u)] = [(9, v, u)] ∧
     (other → ∃ t, execMemberStop x w m true s = .next t ∧ m ∈ (kept t).stopped ∧ t.cores = s.cores ∧ t.hbm = s.hbm ∧
       (d.isOpen = true → ep.watchAt = none → (kept t).watchAt = some s.time)) ∧
     (other → ep.stopped = [m] → ∃ t, execMemberStop x w m false s = .next t ∧ (kept t).stopped = [] ∧ t.cores = s.cores ∧
       ((s.ctx x).st = .running → (s.ctx x).deferred = false → (kept t).watchAt = none)) ∧
     (other → d.isOpen = true → (s.func f).windows.find? (fun p => p.1 == w) = some (w, d) → 1 ≤ reason → reason ≤ 4 →
       ∃ t, execMemberAbort x w m reason s = .next t ∧ aborted t reason) ∧
     (ep.watchAt = none → exec (.collectiveWatchdogExpiry x w) s = .next s) ∧
     (∀ at', ep.watchAt = some at' → d.isOpen = true → (s.func f).windows.find? (fun p => p.1 == w) = some (w, d) →
       let limit := timeOf (1000 * (if d.wdog = 0 then 50 else d.wdog))
       (s.time < at' + limit → exec (.collectiveWatchdogExpiry x w) s = .next s) ∧
       (at' + limit ≤ s.time → ∃ t, exec (.collectiveWatchdogExpiry x w) s = .next t ∧ aborted t 1)))

/-- 20 R433, R434; that a port's row of replays begins anew with another flit is the model's choice (log 56): the life of a port:
enabling trains it, training ends UP, DEGRADED or FAILED and tells a scale-up port which modules its switch reaches, the
eighth replay in a row that fails retrains it, retraining ends within 10 ms or fails, disabling returns it to DOWN; what a
lost host port carried goes to ERROR; after a boot that refused its image no port is enabled (21 R450). 20 R442: a reset of a
function refuses its mailbox and doorbells, terminates its contexts and discards its packets wherever they are bound; it
completes once they are gone, with the registers at their reset values, which are the family's (log 58). 21 R444, R446, R447:
an uncorrectable error marks its word and declares its unit, that of a word of HBM its pseudo-channel, that of a cache or a
buffer the unit around it; corrected errors declare a unit once more than its limit fall within 10 ms; a declared unit is
retired once no context uses it, and the host told: its row gives way to a spare row, a MAC row lowers MAXROWS by 2. The
pseudo-channel of an address, that a unit with a lasting fault takes part by itself, what the MAC row loses and the word that
names a unit are the model's choices (logs 59, 60, 96, 106). 16 R365; 20 R432; 21 R450 to R452; 01 R24: boot, which harvests
what the fuses and the log of lasting faults name and refuses an image below the fused minimum, the module's mode, the host's
access to its reserved range, attestation, power and temperature. The clock of 1,500 MHz, what counts as an active partition,
what boot measures and fixes, the host's own access to the range and what a thermal trip leaves are the model's choices (logs
7, 61, 71, 76, 97, 107). -/
def Obligations.PortsErrorsAndModule : Prop :=
  (∀ (s : State) (p number : Nat) (peers : BitVec 64) (full : Bool), p < 68 →
     let r := look Port.reset p s.ports
     let st (t : State) : LinkState := (look Port.reset p t.ports).st
     let hostLost (t : State) : Prop := p < 4 → ∀ f j : Nat, j < 1024 → (s.queue f j).hostMem = true →
       (s.queue f j).enabled = true → portOf f = p → (t.queue f j).st = .error ∧ (t.queue f j).err = 2
     (s.refused = true → exec (.portEnable p) s = .next s) ∧
     (s.refused = false → r.st = .down ∨ r.st = .failed → ∃ t, exec (.portEnable p) s = .next t ∧ st t = .training ∧ t.cores = s.cores) ∧
     (r.st = .training →
       (∃ t, exec (.trainingComplete p full number peers) s = .next t ∧ st t = (if full then .up else .degraded) ∧
         (4 ≤ p → t.modNum = number % 64 ∧ (look Port.reset p t.ports).peers = peers) ∧ (p < 4 → t.modNum = s.modNum)) ∧
       ∃ t, exec (.trainingFailure p) s = .next t ∧ st t = .failed ∧ (t.func 512).note.kind = 8 ∧ hostLost t) ∧
     (r.st ≠ .training → exec (.trainingComplete p full number peers) s = .next s ∧ exec (.trainingFailure p) s = .next s) ∧
     (r.st = .up ∨ r.st = .degraded →
       (∃ t, exec (.flitCrcFail p false) s = .next t ∧ st t = r.st ∧ (look Port.reset p t.ports).replays = 0) ∧
       (r.replays < 7 → ∃ t, exec (.flitCrcFail p true) s = .next t ∧ st t = r.st ∧
         (look Port.reset p t.ports).replays = r.replays + 1) ∧
       (7 ≤ r.replays → ∃ t, exec (.flitCrcFail p true) s = .next t ∧ st t = .retraining ∧
         (look Port.reset p t.ports).since = s.time)) ∧
     (r.st = .retraining →
       (s.time ≤ r.since + timeOf 10000 → ∃ t, exec (.retrainingComplete p full) s = .next t ∧
         st t = (if full then .up else .degraded)) ∧
       (s.time < r.since + timeOf 10000 → exec (.retrainingTimeout p) s = .next s) ∧
       (r.since + timeOf 10000 ≤ s.time → ∃ t, exec (.retrainingTimeout p) s = .next t ∧ st t = .failed ∧ hostLost t)) ∧
     (∃ t, exec (.portDisable p) s = .next t ∧ st t = .down ∧ hostLost t)) ∧
  (∀ (s : State) (f x j : Nat) (tail : Word),
     (f < 512 → (s.ctx x).func = f → (s.ctx x).st ≠ .free → ∃ t, exec (.functionLevelReset f) s = .next t ∧
       (t.func f).resetting = true ∧ (t.ctx x).st = .terminated ∧
       ∀ id, ∀ m ∈ (t.core id).ring.inflight, m.func ≠ f) ∧
     ((s.func f).resetting = true → exec (.doorbell f j tail) s = .next s ∧ exec (.terminate f x) s = .next s ∧
       (ctxsOf s f ≠ [] → exec (.flrComplete f) s = .next s) ∧
       (ctxsOf s f = [] → ∃ t, exec (.flrComplete f) s = .next t ∧ (t.func f).resetting = false ∧ (t.func f).windows = [] ∧
         (t.func f).args = Vector.replicate 32 0 ∧ (t.func f).busy = false ∧ (t.func f).sliceUs = 2000 ∧
         (t.func f).waitMs = 20 ∧ (t.func f).tag = (s.func f).tag ∧
         t.epochs = s.epochs.filter fun p => p.1 / 64 != f))) ∧
  (∀ (s : State) (c k place row die sp : Nat) (u : HwUnit),
     (place < 32768 → (s.core c).slice.lock = none → ∃ t, exec (.uncorrectableError (.core c) place) s = .next t ∧
       t.core c = { s.core c with memBad := insertNat (place / 4) (s.core c).memBad } ∧ .core c ∈ t.lasting ∧
       (∀ m, m ≠ c → t.core m = s.core m)) ∧
     (∃ t, exec (.uncorrectableError (.controlStore k) place) s = .next t ∧ place ∈ (t.cluster k).slotsBad ∧
       .controlStore k ∈ t.lasting) ∧
     (let channel := HwUnit.channel (place / 2 ^ 36) (Config.channelOf place)
      (∃ t, exec (.uncorrectableError (.hbmWord place) 0) s = .next t ∧ t.hbmBad = insertNat (place / 4) s.hbmBad ∧
        t.hbm = s.hbm ∧ t.cores = s.cores ∧ (channel ∉ s.logged → channel ∈ t.lasting)) ∧
      (∃ t, exec (.uncorrectableError (.parcel place) 0) s = .next t ∧ t.parcelBad = insertNat (place / 256) s.parcelBad ∧
        t.hbm = s.hbm ∧ t.cores = s.cores ∧ (channel ∉ s.logged → channel ∈ t.lasting)) ∧
      (s.errors = List.replicate 256 (.hbmWord place, s.time) → s.lasting = [] → channel ∉ s.logged → ∃ t,
        exec (.correctedError (.hbmWord place)) s = .next t ∧ t.lasting = [channel])) ∧
     (∀ p ∈ [(HwUnit.xlateCache k, HwUnit.row (dieOf (8 * k)) (rowOf (8 * k))),
       (.treeCache k, .row (dieOf (8 * k)) (rowOf (8 * k))), (.copyBuffer k, .copyUnit k)],
       ∃ t, exec (.uncorrectableError p.1 0) s = .next t ∧ p.1 ∈ t.marks ∧ p.2 ∈ t.lasting ∧ t.hbm = s.hbm ∧ t.cores = s.cores) ∧
     (∀ u ∈ [HwUnit.dieXlate k, .retryBuffer k], ∃ t, exec (.uncorrectableError u 0) s = .next t ∧ u ∈ t.marks ∧
       t.lasting = s.lasting) ∧
     (s.errors = [] → exec (.correctedError (.core c)) s = .next { s with errors := [(.core c, s.time)] }) ∧
     (s.errors = List.replicate 16 (.copyUnit k, s.time) → s.lasting = [] → ∃ t,
       exec (.correctedError (.copyUnit k)) s = .next t ∧ t.lasting = [.copyUnit k]) ∧
     (u ∉ s.lasting → exec (.unitRetire u sp) s = .next s) ∧
     (.macRow c ∈ s.lasting → (s.core c).slice.st = .unbound → (s.core c).sparse = none → usersOf s (.macRow c) = [] →
       ∃ t, exec (.unitRetire (.macRow c) 0) s = .next t ∧ look 8 c t.macRows = max 2 (look 8 c s.macRows - 2) ∧
         t.cores = s.cores ∧ (t.func 512).note.kind = 7 ∧ (t.func 512).note.t0 = BitVec.ofNat 32 (2 ^ 29 + c % 2 ^ 28)) ∧
     (u ∈ s.lasting → sliceAtWork s u = false → usersOf s u = [] → ∃ t, exec (.unitRetire u sp) s = .next t ∧
       t.lasting = s.lasting.erase u ∧ (t.func 512).note.kind = 7 ∧ t.hbm = s.hbm) ∧
     (.row die row ∈ s.lasting → rowEnabled s die row = true → usersOf s (.row die row) = [] → s.tags = [] →
       spareFor s die sp = some sp → row < 256 → ∃ t, exec (.unitRetire (.row die row) sp) s = .next t ∧
         rowEnabled t die row = false ∧ rowEnabled t die sp = true ∧ ∀ d r, (d ≠ die ∨ r ≠ row ∧ r ≠ sp) → r < 256 →
           rowEnabled t d r = rowEnabled s d r) ∧
     (∀ x, (s.ctx x).st = .running → usersOf s u = [x] → u ∈ s.lasting → sliceAtWork s u = false →
       exec (.unitRetire u sp) s = .next (s.preemptCtx x .repair))) ∧
  (∀ (s : State) (image version hdm nonce mw die addr m : Nat) (hv mr : List (Nat × Nat)) (data : List Byte),
     (s.minVer ≤ version → Config.firmwareAccepts (BitVec.ofNat 256 image) version = true → ∃ t, exec (.boot image version hdm hv mr) s = .next t ∧
       t.cores = [] ∧ t.contexts = [] ∧ t.hbm = [] ∧ t.tags = [] ∧ t.mode = .service ∧ t.firmware = BitVec.ofNat 256 image ∧
       t.secVer = version ∧ t.refused = false ∧ t.logged = s.logged ∧ t.minVer = s.minVer ∧ t.hostMem = s.hostMem ∧
       (s.logged = [] → t.retired = hv) ∧ (∀ r ∈ hv, r ∈ t.retired) ∧
       (∀ u ∈ s.logged, ∀ r, retiredRow u = some r → r ∈ t.retired) ∧
       (s.logged = [.macRow m] → mr = [] → look 8 m t.macRows = 6) ∧
       (∀ p < 68, (look Port.reset p t.ports).st = .training) ∧ (hdm % 2 ^ 22 = 0 → hdm ≤ 2 ^ 36 → t.hdm = hdm)) ∧
     (version < s.minVer ∨ Config.firmwareAccepts (BitVec.ofNat 256 image) version = false →
       ∃ t, exec (.boot image version hdm hv mr) s = .next t ∧
         t.mode = .maintenance ∧ t.refused = true ∧ t.ports = [] ∧ t.cores = [] ∧ t.hbm = []) ∧
     (s.refused = true → exec (.modeChange true) s = .next s) ∧
     (∀ m' : Mode, (m' = .service ∧ s.refused = false ∨ m' = .maintenance ∧ ∀ p ∈ s.contexts, p.2.st ≠ .running) →
       let change := exec (.modeChange (m' == .service)) s
       (s.mode = m' → change = .next s) ∧
       (s.mode ≠ m' → ∃ t, change = .next t ∧ t.mode = m' ∧ t.modeLog = s.modeLog ++ [m'] ∧ t.late = [] ∧ t.cores = s.cores ∧
         t.contexts = s.contexts)) ∧
     exec (.cxlMemAccess false addr data) s = .next s ∧
     (∀ q, data ≠ [] → hostReach s 512 = true → ((cutsOf addr data.length).any fun c => !edgesGood s (hdmAddr s c.2.1) c.2.2) = false →
       writePlace s 512 0 (.hdm addr) data.length (pieceOf data) = .done q → exec (.cxlMemAccess true addr data) s = .next q) ∧
     exec (.attestationRequest nonce) s =
       .next { s with attested := Config.attestSignature (measurements s) s.secVer nonce } ∧
     (mw < 7000000 → s.overTemp = false → activeTags s = [m] →
       exec (.powerSample mw) s = .next { s with power := mw, mhz := 1500 }) ∧
     (7000000 ≤ mw ∨ s.overTemp = true ∨ 2 ≤ (activeTags s).length →
       exec (.powerSample mw) s = .next { s with power := mw, mhz := 1250 }) ∧
     (18 ≤ die → exec (.overTemperature die) s = .next s ∧ exec (.thermalTrip die) s = .next s) ∧
     (die < 18 → (∀ p ∈ s.contexts, p.2.st ≠ .running) → ∃ t, exec (.overTemperature die) s = .next t ∧ t.overTemp = true ∧ t.mhz = 1250 ∧
       (t.func 512).note.kind = 11 ∧ (t.func 512).note.t0 = BitVec.ofNat 32 die ∧ t.cores = s.cores) ∧
     (die < 18 → ∃ t, exec (.thermalTrip die) s = .next t ∧ t.clockOff = true ∧ t.hbm = s.hbm ∧ t.cores = [] ∧ step t = .fault .clocksStopped))

/-- 05 R103, R108, R130; 06 R146; 10 R243, R249, R257, R259, R260; 19 R417; 20 R441; 21 R444: a fetch beyond the code, from a
page without permission or from an unmapped one, which the host is told of, traps where it would issue; one from a page on
demand requests it and holds the core; a page that fails its hash stops the context, once what the core has under way has
landed; a word that cannot be read traps (log 94). A core takes a pending uncorrectable error of a vector load, in its
handler too, or outside it an abort or a SIGNAL, at its next instruction boundary, with the next address in TPC; that the
error goes before the abort and the abort before the SIGNAL where several are due at once is the model's choice (log 77). -/
def Obligations.FetchesAndBoundaryTraps : Prop :=
  ∀ (s : State) (id x page w a : Nat) (c : Core) (k : Kernel) (st : PageState) (code : BitVec 16) (at' : Word),
    s.core id = c → c.ctx = some x → c.inGang = false → c.held = none → c.ops = [] → c.frame = none → c.md = none →
    let fetchPa (pa e : Nat) := readAt pa e (dieOf id)
    (c.issuable s.now = true → s.kernelOf c = some k →
      let va := k.codeVa + c.pc.toNat
      (paddedLen k ≤ c.pc.toNat → exec (.instructionFetch id) s =
        .next ({ s with cur := id }.takeTrap id ⟨0x06, c.pc, 1, 0, 0⟩ c.pc)) ∧
      (c.pc.toNat < paddedLen k → s.marks = [] → translate s x c.tag va .fetch = .stall page st → ∃ t, exec (.instructionFetch id) s = .next t ∧
        t.core id = { c with readyAt := s.now + 1, fetchVa := some page } ∧ ∀ m, m ≠ id → t.core m = s.core m) ∧
      (∀ lo len, c.pc.toNat < paddedLen k → s.marks = [] → translate s x c.tag va .fetch = .denied lo len →
        exec (.instructionFetch id) s = .next ({ s with cur := id }.takeTrap id ⟨0x06, c.pc, 15, 0, 0⟩ c.pc)) ∧
      (∀ lo len bad, c.pc.toNat < paddedLen k → s.marks = [] → translate s x c.tag va .fetch = .unmapped lo len bad →
        let told := (({ s with cur := id } : State).tableError bad).notify (s.ctx x).func 9 x (BitVec.ofNat 32 c.lcore) 5 c.pc c.pc
          0 0x400
        exec (.instructionFetch id) s = .next (told.takeTrap id ⟨0x05, c.pc, 0, 0x400, 0⟩ c.pc)) ∧
      (∀ pa e, c.pc.toNat < paddedLen k → s.marks = [] → translate s x c.tag va .fetch = .ok pa e → bitsOf e 7 1 = 1 →
        (s.rangeGood (fetchPa pa e) 4 = true → fetchAt s id c.pc = .word (readWord s.hbm (fetchPa pa e)) ∧
          exec (.instructionFetch id) s = .next s) ∧
        (s.rangeGood (fetchPa pa e) 4 = false → exec (.instructionFetch id) s = .next
          ((({ s with cur := id } : State).spendMark none (fetchPa pa e)).takeTrap id ⟨0x0B, c.pc, 0, 0, 0⟩ c.pc))) ∧
      (∀ pa e, c.pc.toNat < paddedLen k → s.marks = [] → translate s x c.tag va .fetch = .ok pa e → bitsOf e 7 1 = 0 →
        (s.ctx x).faultRec = none → (∀ m, (s.core m).ctx = some x → (s.core m).fatal = none) → ∃ t,
          exec (.instructionFetch id) s = .next t ∧
          (c.pend = [] → c.feeds = false → (t.core id).status = .stopped ∧ (t.core id).cause = 0x0A ∧
            (t.core id).tpc = c.pc ∧ (t.ctx x).st = .faulted) ∧
          (c.pend ≠ [] ∨ c.feeds = true → (t.core id).status = c.status ∧ (t.core id).pend = c.pend ∧
            (t.core id).fatal = some (⟨0x0A, c.pc, BitVec.ofNat 32 (c.pc.toNat / 131072), 0, 0⟩, c.pc)))) ∧
    (c.status = .running → c.fatal = none → c.wait = .none → c.dataErr = some (a, at') →
      exec (.trapEntry id 0x0B c.pc (BitVec.ofNat 32 a) at' 0 0) s =
        .next ((s.setCore id { c with dataErr := none }).takeTrap id ⟨0x0B, BitVec.ofNat 32 a, at', 0, 0⟩ c.pc)) ∧
    (c.status = .running → c.fatal = none → c.wait = .none → c.handler = false → c.dataErr = none →
      (c.abort = none → c.signal = some code → exec (.trapEntry id 0x10 c.pc (code.setWidth 32) (BitVec.ofNat 32 x) 0 0) s =
        .next ((s.setCore id { c with signal := none }).takeTrap id ⟨0x10, code.setWidth 32, BitVec.ofNat 32 x, 0, 0⟩ c.pc)) ∧
      (∀ e r : Nat, c.abort = some (w, e, r) → exec (.trapEntry id 0x0E c.pc (BitVec.ofNat 32 w) (BitVec.ofNat 32 e)
        (BitVec.ofNat 32 r) 0) s = .next ((s.setCore id { c with abort := none }).takeTrap id
          ⟨0x0E, BitVec.ofNat 32 w, BitVec.ofNat 32 e, BitVec.ofNat 32 r, 0⟩ c.pc))) ∧
    (c.status = .running → c.fatal = none → c.wait ≠ .none → ∀ (cause : BitVec 8) (p t0 t1 t2 t3 : Word),
      exec (.trapEntry id cause p t0 t1 t2 t3) s = .next s) ∧
    (c.status = .running → c.fatal = none → c.wait = .none → c.handler = true → c.dataErr = none →
      ∀ (cause : BitVec 8) (p t0 t1 t2 t3 : Word), exec (.trapEntry id cause p t0 t1 t2 t3) s = .next s) ∧
    (∀ (cause : BitVec 8) (p t0 t1 t2 t3 : Word), c.status = .running → c.fatal = some (⟨cause, t0, t1, t2, t3⟩, p) →
      exec (.trapEntry id cause p t0 t1 t2 t3) s = .next (if c.mayEnd then s.endTrap id ⟨cause, t0, t1, t2, t3⟩ p else s))

/-- 01 R14, R24; 16 R365; 18 R398; 19 R410, R412; 20 R433, R436 (with log 2 for the registers no rule gives a value, and log 107
for the fused minimum version): what reset leaves: no core runs, no context exists, every memory reads blank, every link is
down, and every memory is canonical. -/
def Obligations.ResetLeaves : Prop :=
  let s := State.reset
  memoryWf s = true ∧ s.now = 0 ∧ s.mode = .service ∧ s.mhz = 1250 ∧ s.clockOff = false ∧ s.agenda = [] ∧ s.inputs = [] ∧
  s.time = 0 ∧ s.late = [] ∧ s.modeLog = [] ∧ s.retired = [] ∧ s.spareRows = [] ∧ s.marks = [] ∧ s.lasting = [] ∧ s.logged = [] ∧
  s.refused = false ∧ s.minVer = 0 ∧
  (∀ a, readByte s.hbm a = 0 ∧ readByte s.hostMem a = 0) ∧
  (∀ c, let k := s.core c
    k.status = .idle ∧ k.ctx = none ∧ k.pc = 0 ∧ k.handler = false ∧ k.cause = 0 ∧ k.tpc = 0 ∧ k.fpflags = 0 ∧ k.rmode = 0 ∧
    k.vshare = 8 ∧ k.gangstat = 0 ∧ k.barmember = 0 ∧ k.pend = [] ∧ k.loops = [] ∧ k.frame = none ∧ k.vq = [] ∧ k.vfly = [] ∧
    k.slice.st = .unbound ∧ k.channels = [] ∧ k.tickets = [] ∧ k.atoms = [] ∧ k.ring.isOpen = false ∧ k.holders = [] ∧
    k.retention = .awake ∧ (∀ r, k.readG r = 0) ∧ (∀ r, k.readA r = 0) ∧ (∀ r, k.readV r = 0) ∧
    (∀ r : BitVec 3, k.readM r = if r = 0 then 0xFF else 0) ∧ (∀ t r n, k.readZ t r n = 0) ∧ ∀ a, readByte k.mem a = 0) ∧
  (∀ x, (s.ctx x).st = .free) ∧ (∀ n, (s.lane n).st = .idle ∧ (s.lane n).owner = none) ∧
  (∀ f q, (s.queue f q).st = .absent ∧ (s.queue f q).log2n = 0) ∧ (∀ p, (look Port.reset p s.ports).st = .down) ∧ ∀ c, tagOf s c = 0

/-- 05 R103; 10 R260; 04 R97, R98; 21 R444: a step of the module, with no event at hand and no trap due, runs the instruction
that the word at the program counter of the next core decodes to; a word that decodes to none is illegal, with its reason. -/
def Obligations.StepRunsDecoded : Prop :=
  ∀ (s : State) (id x pa e : Nat) (c : Core) (k : Kernel) (i : Instr) (r : DecodeError),
    s.clockOff = false → s.agenda = [] → nextCore s = some id → trapDue s id = none → s.core id = c → c.held = none → c.ops = [] →
    c.replaying = false → c.ctx = some x → s.kernelOf c = some k → c.pc.toNat < paddedLen k →
    s.marks = [] → translate s x c.tag (k.codeVa + c.pc.toNat) .fetch = .ok pa e → bitsOf e 7 1 = 1 →
    s.rangeGood (readAt pa e (dieOf id)) 4 = true →
    let b (n : Nat) : Byte := readByte s.hbm (readAt pa e (dieOf id) + n)
    let w : Word := b 3 ++ b 2 ++ b 1 ++ b 0
    (decodeWord w = .ok i → step s = exec i { s with cur := id }) ∧
    (decodeWord w = .error r → w.toNat / 2 ^ 26 ≠ 0x3E → step s = .next ({ s with cur := id }.leaderTrap id
      ⟨0x01, w, c.mdWord, BitVec.ofNat 32 (if c.capturing = true ∧ arithWord w = false then min r.code 6 else r.code), 0⟩
      (c.pc + 4)))

/-- 00 R1; 21 R452: a step always answers: the one fault is that of the stopped clocks; an instruction of a core that may not
issue now changes nothing. -/
def Obligations.StepAlwaysAnswers : Prop :=
  ∀ (s : State) (i : Instr),
    (s.clockOff = true → step s = .fault .clocksStopped) ∧ (s.clockOff = false → ∃ t, step s = .next t) ∧
    (∃ t, exec i s = .next t) ∧ (encode i ≠ none → (s.core s.cur).mayIssue s.now = false → exec i s = .next s)

/-- 04 R86 to R94: words written out field by field from the encoding tables decode to the instructions they stand for. -/
def Obligations.WordsDecode : Prop :=
  decodeWord (0x01#6 ++ 3#5 ++ 1#5 ++ 2#5 ++ 0#11) = .ok (.add 3 1 2) ∧
  decodeWord 0x47E00010 = .ok (.jal 31 16) ∧ decodeWord 0x481F0000 = .ok (.jalr 0 31 0) ∧
  decodeWord 0x313FFFFD = .ok (.bnez 1 7 0x7FFFD) ∧ decodeWord 0xC0000440 = .ok (.trap 17) ∧
  decodeWord 0xC0000005 = .ok (.bkpt 0) ∧ decodeWord 0xC0400007 = .ok (.ident 2) ∧ decodeWord 0xB0A60000 = .ok (.fpost 5 6) ∧
  decodeWord 0xB0000003 = .ok .cend ∧ decodeWord 0xB4800003 = .ok (.patchi 4 3) ∧ decodeWord 0 = .error .reservedMajor

/-- 04 R84 to R97: every well-formed instruction that has a word is read back from it, with every operand at every value; and a
word that decodes is the word of the instruction it gives, which is well formed: no bit of an encoding is dropped. -/
def Obligations.EncodingsRoundTrip : Prop :=
  (∀ (i : Instr) (w : Word), wellFormed i = true → encode i = some w → decodeWord w = .ok i) ∧
  ∀ (w : Word) (i : Instr), decodeWord w = .ok i → encode i = some w ∧ wellFormed i = true

/-- 21 R448, R450 (the model's canonical memory): a step keeps every memory of the module in its canonical form: HBM, host
memory, and the local memory of every core, also where a context that is saved or restored keeps it. -/
def Obligations.MemoryStaysCanonical : Prop :=
  ∀ s t : State, memoryWf s = true → step s = .next t → memoryWf t = true

/-- 11 R279 (layout by R273): VAWAIT waits until every atomic is applied and every vector atomic complete, then raises the error
record, or does nothing further and takes one cycle. -/
def Obligations.VawaitRaisesOrPasses : Prop :=
  ∀ (s : State) (c : Core) (e : AErr), IssuesPlain s c →
    let unapplied := (∃ a ∈ c.atoms, a.applied = false) ∨ (∃ q ∈ c.vq, isVAtomic q.instr = true) ∨
      ∃ f ∈ c.vfly, isVAtomic f.instr = true
    (unapplied → exec .vawait s = .next (s.setCore s.cur
      { c with wait := .stall, held := some .vawait, readyAt := s.now + 1 })) ∧
    (¬unapplied → c.aerr = none → exec .vawait s = .next (s.completed c .vawait .next)) ∧
    (¬unapplied → c.aerr = some e → exec .vawait s = .next ((s.setCore s.cur { c with aerr := none }).takeTrap s.cur
      ⟨0x0B, e.fpath.setWidth 32, (e.fpath >>> 32).setWidth 32, e.kind, e.lane⟩ c.pc))

/-- 12 R293: BPH writes TARGET above the phase, as they stand when it issues, and never waits; an arrival is outstanding exactly
when the low half less the high half is negative. -/
def Obligations.BphReadsChannel : Prop :=
  ∀ (s : State) (c : Core) (d : BitVec 5) (ch : BitVec 4) (g : Group), IssuesPlain s c → ch.toNat < c.resBars.toNat →
    c.barmember.getLsbD ch.toNat = true → s.groupOf c = some g →
    let w : Word := c.targetOf ch.toNat ++ g.phase
    exec (.bph d ch) s = .next (s.completed (c.landG s.now d w) (.bph d ch) .next) ∧
    (outstanding s c ch.toNat = true ↔ (w.extractLsb' 0 16 - w.extractLsb' 16 16).toInt < 0)

/-- 13 R319: QCNT's word in its fields; it never waits, and its latency is 1. -/
def Obligations.QcntReadsRing : Prop :=
  ∀ (s : State) (c : Core) (d : BitVec 5), IssuesPlain s c →
    let reads (w : Word) := exec (.qcnt d) s = .next (s.completed (c.landG s.now d w) (.qcnt d) .next)
    (c.ring.isOpen = false → reads 0) ∧
    (c.ring.isOpen = true → 0 < c.ring.size → c.ring.base + 32 * c.ring.size ≤ 0x8000 → c.ring.landed ≤ 256 →
      ∃ w : Word, reads w ∧ w.getLsbD 31 = true ∧
        (w.extractLsb' 16 15).toNat = c.ring.base + 32 * (c.ring.head % c.ring.size) ∧ w.extractLsb' 9 7 = 0 ∧
        (w.extractLsb' 0 9).toNat = c.ring.landed)

/-- 17 R393: PATCHI's fields, the value it places, and its trap on an index at or beyond PATCHLEN; it is not arithmetic. -/
def Obligations.PatchiReadsTable : Prop :=
  (∀ (d a : BitVec 5) (h l : BitVec 8), decodeWord (0x2D#6 ++ d ++ a ++ h ++ l) =
    if a = 0 ∧ h = 0 then .ok (.patchi d l) else .error .reservedField) ∧
  decodeWord 0xB4800003 = .ok (.patchi 4 3) ∧ DecodeError.reservedField.code = 3 ∧ (∀ d i, isArith (.patchi d i) = false) ∧
  ∀ (s : State) (c : Core) (d : BitVec 5) (i : BitVec 8) (l : Launch), IssuesPlain s c → s.launchOf c = some l →
    (i.toNat < l.patch.length → exec (.patchi d i) s =
      .next (s.completed (c.landG s.now d (l.patch.getD i.toNat 0)) (.patchi d i) .next)) ∧
    (l.patch.length ≤ i.toNat → exec (.patchi d i) s =
      .next (s.takeTrap s.cur ⟨0x01, 0x2D#6 ++ d ++ 0#13 ++ i, 0, 7, 0⟩ c.pc))

end
end

