-- ==== Sys2Proof/Laws/State.lean ====
section
/-!
SUPPORT. Reading a table after a write, and for every update of the state or of a core one lemma per field it leaves as it was, or
sets, so that no proof unfolds a record update.
-/

namespace Sys2Proof.Machine

/-! ### Tables -/

/-- The record just put stands. -/
@[simp] theorem look_put_same {α : Type} (d x : α) (k : Nat) (t : Table α) : look d k (put k x t) = x := by
  induction t with
  | nil => simp [put, look]
  | cons p t ih =>
    obtain ⟨i, y⟩ := p
    by_cases h : i = k
    · simp [put, look, h]
    · by_cases h2 : k < i
      · simp [put, look, h, h2]
      · simp [put, look, h, h2, ih]

/-- Putting a record leaves every other record as it was. -/
theorem look_put_other {α : Type} (d x : α) (k n : Nat) (h : n ≠ k) (t : Table α) : look d n (put k x t) = look d n t := by
  induction t with
  | nil => simp [put, look, Ne.symm h]
  | cons p t ih =>
    obtain ⟨i, y⟩ := p
    by_cases h1 : i = k
    · subst h1
      simp [put, look, Ne.symm h]
    · by_cases h2 : k < i
      · simp [put, look, h1, h2, Ne.symm h]
      · by_cases h3 : i = n
        · subst h3
          simp [put, look, h1, h2]
        · simp [put, look, h1, h2, h3, ih]

/-- Putting twice is putting the last. -/
@[simp] theorem put_put {α : Type} (k : Nat) (x y : α) (t : Table α) : put k y (put k x t) = put k y t := by
  induction t with
  | nil => simp [put]
  | cons p t ih =>
    obtain ⟨i, z⟩ := p
    by_cases h : i = k
    · simp [put, h]
    · by_cases h2 : k < i
      · simp [put, h, h2]
      · simp [put, h, h2, ih]

/-! ### State.setCore -/

@[simp] theorem State.setCore_now (s : State) (c : Nat) (x : Core) : (s.setCore c x).now = s.now := rfl
@[simp] theorem State.setCore_time (s : State) (c : Nat) (x : Core) : (s.setCore c x).time = s.time := rfl
@[simp] theorem State.setCore_cur (s : State) (c : Nat) (x : Core) : (s.setCore c x).cur = s.cur := rfl
@[simp] theorem State.setCore_agenda (s : State) (c : Nat) (x : Core) : (s.setCore c x).agenda = s.agenda := rfl
@[simp] theorem State.setCore_inputs (s : State) (c : Nat) (x : Core) : (s.setCore c x).inputs = s.inputs := rfl
@[simp] theorem State.setCore_draws (s : State) (c : Nat) (x : Core) : (s.setCore c x).draws = s.draws := rfl
@[simp] theorem State.setCore_swept (s : State) (c : Nat) (x : Core) : (s.setCore c x).swept = s.swept := rfl
@[simp] theorem State.setCore_clusters (s : State) (c : Nat) (x : Core) : (s.setCore c x).clusters = s.clusters := rfl
@[simp] theorem State.setCore_contexts (s : State) (c : Nat) (x : Core) : (s.setCore c x).contexts = s.contexts := rfl
@[simp] theorem State.setCore_lanes (s : State) (c : Nat) (x : Core) : (s.setCore c x).lanes = s.lanes := rfl
@[simp] theorem State.setCore_funcs (s : State) (c : Nat) (x : Core) : (s.setCore c x).funcs = s.funcs := rfl
@[simp] theorem State.setCore_queues (s : State) (c : Nat) (x : Core) : (s.setCore c x).queues = s.queues := rfl
@[simp] theorem State.setCore_hbm (s : State) (c : Nat) (x : Core) : (s.setCore c x).hbm = s.hbm := rfl
@[simp] theorem State.setCore_hostMem (s : State) (c : Nat) (x : Core) : (s.setCore c x).hostMem = s.hostMem := rfl
@[simp] theorem State.setCore_hbmBad (s : State) (c : Nat) (x : Core) : (s.setCore c x).hbmBad = s.hbmBad := rfl
@[simp] theorem State.setCore_parcelBad (s : State) (c : Nat) (x : Core) : (s.setCore c x).parcelBad = s.parcelBad := rfl
@[simp] theorem State.setCore_dirty (s : State) (c : Nat) (x : Core) : (s.setCore c x).dirty = s.dirty := rfl
@[simp] theorem State.setCore_requests (s : State) (c : Nat) (x : Core) : (s.setCore c x).requests = s.requests := rfl
@[simp] theorem State.setCore_waiting (s : State) (c : Nat) (x : Core) : (s.setCore c x).waiting = s.waiting := rfl
@[simp] theorem State.setCore_tableErrs (s : State) (c : Nat) (x : Core) : (s.setCore c x).tableErrs = s.tableErrs := rfl
@[simp] theorem State.setCore_shoot (s : State) (c : Nat) (x : Core) : (s.setCore c x).shoot = s.shoot := rfl
@[simp] theorem State.setCore_freeTable (s : State) (c : Nat) (x : Core) : (s.setCore c x).freeTable = s.freeTable := rfl
@[simp] theorem State.setCore_spareRows (s : State) (c : Nat) (x : Core) : (s.setCore c x).spareRows = s.spareRows := rfl
@[simp] theorem State.setCore_retired (s : State) (c : Nat) (x : Core) : (s.setCore c x).retired = s.retired := rfl
@[simp] theorem State.setCore_macRows (s : State) (c : Nat) (x : Core) : (s.setCore c x).macRows = s.macRows := rfl
@[simp] theorem State.setCore_rotations (s : State) (c : Nat) (x : Core) : (s.setCore c x).rotations = s.rotations := rfl
@[simp] theorem State.setCore_sliceEnd (s : State) (c : Nat) (x : Core) : (s.setCore c x).sliceEnd = s.sliceEnd := rfl
@[simp] theorem State.setCore_tags (s : State) (c : Nat) (x : Core) : (s.setCore c x).tags = s.tags := rfl
@[simp] theorem State.setCore_pendTags (s : State) (c : Nat) (x : Core) : (s.setCore c x).pendTags = s.pendTags := rfl
@[simp] theorem State.setCore_launchSeq (s : State) (c : Nat) (x : Core) : (s.setCore c x).launchSeq = s.launchSeq := rfl
@[simp] theorem State.setCore_lastServed (s : State) (c : Nat) (x : Core) : (s.setCore c x).lastServed = s.lastServed := rfl
@[simp] theorem State.setCore_ports (s : State) (c : Nat) (x : Core) : (s.setCore c x).ports = s.ports := rfl
@[simp] theorem State.setCore_modNum (s : State) (c : Nat) (x : Core) : (s.setCore c x).modNum = s.modNum := rfl
@[simp] theorem State.setCore_epochs (s : State) (c : Nat) (x : Core) : (s.setCore c x).epochs = s.epochs := rfl
@[simp] theorem State.setCore_hdm (s : State) (c : Nat) (x : Core) : (s.setCore c x).hdm = s.hdm := rfl
@[simp] theorem State.setCore_mode (s : State) (c : Nat) (x : Core) : (s.setCore c x).mode = s.mode := rfl
@[simp] theorem State.setCore_mhz (s : State) (c : Nat) (x : Core) : (s.setCore c x).mhz = s.mhz := rfl
@[simp] theorem State.setCore_power (s : State) (c : Nat) (x : Core) : (s.setCore c x).power = s.power := rfl
@[simp] theorem State.setCore_overTemp (s : State) (c : Nat) (x : Core) : (s.setCore c x).overTemp = s.overTemp := rfl
@[simp] theorem State.setCore_clockOff (s : State) (c : Nat) (x : Core) : (s.setCore c x).clockOff = s.clockOff := rfl
@[simp] theorem State.setCore_errors (s : State) (c : Nat) (x : Core) : (s.setCore c x).errors = s.errors := rfl
@[simp] theorem State.setCore_lasting (s : State) (c : Nat) (x : Core) : (s.setCore c x).lasting = s.lasting := rfl
@[simp] theorem State.setCore_firmware (s : State) (c : Nat) (x : Core) : (s.setCore c x).firmware = s.firmware := rfl
@[simp] theorem State.setCore_secVer (s : State) (c : Nat) (x : Core) : (s.setCore c x).secVer = s.secVer := rfl
@[simp] theorem State.setCore_attested (s : State) (c : Nat) (x : Core) : (s.setCore c x).attested = s.attested := rfl
@[simp] theorem State.setCore_late (s : State) (c : Nat) (x : Core) : (s.setCore c x).late = s.late := rfl
@[simp] theorem State.setCore_modeLog (s : State) (c : Nat) (x : Core) : (s.setCore c x).modeLog = s.modeLog := rfl
@[simp] theorem State.core_setCore_same (s : State) (c : Nat) (x : Core) : (s.setCore c x).core c = x := by
  simp [State.core, State.setCore]
theorem State.core_setCore_other (s : State) (c : Nat) (x : Core) (n : Nat) (h : n ≠ c) : (s.setCore c x).core n = s.core n := by
  simp [State.core, State.setCore, look_put_other _ _ _ _ h]
@[simp] theorem State.setCore_setCore (s : State) (c : Nat) (x : Core) (y : Core) : (s.setCore c x).setCore c y = s.setCore c y := by
  simp [State.setCore]
@[simp] theorem State.setCore_cluster (s : State) (c : Nat) (x : Core) (k' : Nat) : (s.setCore c x).cluster k' = s.cluster k' := rfl
@[simp] theorem State.setCore_ctx (s : State) (c : Nat) (x : Core) (k' : Nat) : (s.setCore c x).ctx k' = s.ctx k' := rfl
@[simp] theorem State.setCore_lane (s : State) (c : Nat) (x : Core) (n' : Nat) : (s.setCore c x).lane n' = s.lane n' := rfl
@[simp] theorem State.setCore_func (s : State) (c : Nat) (x : Core) (f' : Nat) : (s.setCore c x).func f' = s.func f' := rfl
@[simp] theorem State.setCore_queue (s : State) (c : Nat) (x : Core) (f' : Nat) (q' : Nat) : (s.setCore c x).queue f' q' = s.queue f' q' := rfl

/-! ### State.setCluster -/

@[simp] theorem State.setCluster_now (s : State) (k : Nat) (x : Cluster) : (s.setCluster k x).now = s.now := rfl
@[simp] theorem State.setCluster_time (s : State) (k : Nat) (x : Cluster) : (s.setCluster k x).time = s.time := rfl
@[simp] theorem State.setCluster_cur (s : State) (k : Nat) (x : Cluster) : (s.setCluster k x).cur = s.cur := rfl
@[simp] theorem State.setCluster_agenda (s : State) (k : Nat) (x : Cluster) : (s.setCluster k x).agenda = s.agenda := rfl
@[simp] theorem State.setCluster_inputs (s : State) (k : Nat) (x : Cluster) : (s.setCluster k x).inputs = s.inputs := rfl
@[simp] theorem State.setCluster_draws (s : State) (k : Nat) (x : Cluster) : (s.setCluster k x).draws = s.draws := rfl
@[simp] theorem State.setCluster_swept (s : State) (k : Nat) (x : Cluster) : (s.setCluster k x).swept = s.swept := rfl
@[simp] theorem State.setCluster_cores (s : State) (k : Nat) (x : Cluster) : (s.setCluster k x).cores = s.cores := rfl
@[simp] theorem State.setCluster_contexts (s : State) (k : Nat) (x : Cluster) : (s.setCluster k x).contexts = s.contexts := rfl
@[simp] theorem State.setCluster_lanes (s : State) (k : Nat) (x : Cluster) : (s.setCluster k x).lanes = s.lanes := rfl
@[simp] theorem State.setCluster_funcs (s : State) (k : Nat) (x : Cluster) : (s.setCluster k x).funcs = s.funcs := rfl
@[simp] theorem State.setCluster_queues (s : State) (k : Nat) (x : Cluster) : (s.setCluster k x).queues = s.queues := rfl
@[simp] theorem State.setCluster_hbm (s : State) (k : Nat) (x : Cluster) : (s.setCluster k x).hbm = s.hbm := rfl
@[simp] theorem State.setCluster_hostMem (s : State) (k : Nat) (x : Cluster) : (s.setCluster k x).hostMem = s.hostMem := rfl
@[simp] theorem State.setCluster_hbmBad (s : State) (k : Nat) (x : Cluster) : (s.setCluster k x).hbmBad = s.hbmBad := rfl
@[simp] theorem State.setCluster_parcelBad (s : State) (k : Nat) (x : Cluster) : (s.setCluster k x).parcelBad = s.parcelBad := rfl
@[simp] theorem State.setCluster_dirty (s : State) (k : Nat) (x : Cluster) : (s.setCluster k x).dirty = s.dirty := rfl
@[simp] theorem State.setCluster_requests (s : State) (k : Nat) (x : Cluster) : (s.setCluster k x).requests = s.requests := rfl
@[simp] theorem State.setCluster_waiting (s : State) (k : Nat) (x : Cluster) : (s.setCluster k x).waiting = s.waiting := rfl
@[simp] theorem State.setCluster_tableErrs (s : State) (k : Nat) (x : Cluster) : (s.setCluster k x).tableErrs = s.tableErrs := rfl
@[simp] theorem State.setCluster_shoot (s : State) (k : Nat) (x : Cluster) : (s.setCluster k x).shoot = s.shoot := rfl
@[simp] theorem State.setCluster_freeTable (s : State) (k : Nat) (x : Cluster) : (s.setCluster k x).freeTable = s.freeTable := rfl
@[simp] theorem State.setCluster_spareRows (s : State) (k : Nat) (x : Cluster) : (s.setCluster k x).spareRows = s.spareRows := rfl
@[simp] theorem State.setCluster_retired (s : State) (k : Nat) (x : Cluster) : (s.setCluster k x).retired = s.retired := rfl
@[simp] theorem State.setCluster_macRows (s : State) (k : Nat) (x : Cluster) : (s.setCluster k x).macRows = s.macRows := rfl
@[simp] theorem State.setCluster_rotations (s : State) (k : Nat) (x : Cluster) : (s.setCluster k x).rotations = s.rotations := rfl
@[simp] theorem State.setCluster_sliceEnd (s : State) (k : Nat) (x : Cluster) : (s.setCluster k x).sliceEnd = s.sliceEnd := rfl
@[simp] theorem State.setCluster_tags (s : State) (k : Nat) (x : Cluster) : (s.setCluster k x).tags = s.tags := rfl
@[simp] theorem State.setCluster_pendTags (s : State) (k : Nat) (x : Cluster) : (s.setCluster k x).pendTags = s.pendTags := rfl
@[simp] theorem State.setCluster_launchSeq (s : State) (k : Nat) (x : Cluster) : (s.setCluster k x).launchSeq = s.launchSeq := rfl
@[simp] theorem State.setCluster_lastServed (s : State) (k : Nat) (x : Cluster) : (s.setCluster k x).lastServed = s.lastServed := rfl
@[simp] theorem State.setCluster_ports (s : State) (k : Nat) (x : Cluster) : (s.setCluster k x).ports = s.ports := rfl
@[simp] theorem State.setCluster_modNum (s : State) (k : Nat) (x : Cluster) : (s.setCluster k x).modNum = s.modNum := rfl
@[simp] theorem State.setCluster_epochs (s : State) (k : Nat) (x : Cluster) : (s.setCluster k x).epochs = s.epochs := rfl
@[simp] theorem State.setCluster_hdm (s : State) (k : Nat) (x : Cluster) : (s.setCluster k x).hdm = s.hdm := rfl
@[simp] theorem State.setCluster_mode (s : State) (k : Nat) (x : Cluster) : (s.setCluster k x).mode = s.mode := rfl
@[simp] theorem State.setCluster_mhz (s : State) (k : Nat) (x : Cluster) : (s.setCluster k x).mhz = s.mhz := rfl
@[simp] theorem State.setCluster_power (s : State) (k : Nat) (x : Cluster) : (s.setCluster k x).power = s.power := rfl
@[simp] theorem State.setCluster_overTemp (s : State) (k : Nat) (x : Cluster) : (s.setCluster k x).overTemp = s.overTemp := rfl
@[simp] theorem State.setCluster_clockOff (s : State) (k : Nat) (x : Cluster) : (s.setCluster k x).clockOff = s.clockOff := rfl
@[simp] theorem State.setCluster_errors (s : State) (k : Nat) (x : Cluster) : (s.setCluster k x).errors = s.errors := rfl
@[simp] theorem State.setCluster_lasting (s : State) (k : Nat) (x : Cluster) : (s.setCluster k x).lasting = s.lasting := rfl
@[simp] theorem State.setCluster_firmware (s : State) (k : Nat) (x : Cluster) : (s.setCluster k x).firmware = s.firmware := rfl
@[simp] theorem State.setCluster_secVer (s : State) (k : Nat) (x : Cluster) : (s.setCluster k x).secVer = s.secVer := rfl
@[simp] theorem State.setCluster_attested (s : State) (k : Nat) (x : Cluster) : (s.setCluster k x).attested = s.attested := rfl
@[simp] theorem State.setCluster_late (s : State) (k : Nat) (x : Cluster) : (s.setCluster k x).late = s.late := rfl
@[simp] theorem State.setCluster_modeLog (s : State) (k : Nat) (x : Cluster) : (s.setCluster k x).modeLog = s.modeLog := rfl
@[simp] theorem State.cluster_setCluster_same (s : State) (k : Nat) (x : Cluster) : (s.setCluster k x).cluster k = x := by
  simp [State.cluster, State.setCluster]
theorem State.cluster_setCluster_other (s : State) (k : Nat) (x : Cluster) (n : Nat) (h : n ≠ k) : (s.setCluster k x).cluster n = s.cluster n := by
  simp [State.cluster, State.setCluster, look_put_other _ _ _ _ h]
@[simp] theorem State.setCluster_setCluster (s : State) (k : Nat) (x : Cluster) (y : Cluster) : (s.setCluster k x).setCluster k y = s.setCluster k y := by
  simp [State.setCluster]
@[simp] theorem State.setCluster_core (s : State) (k : Nat) (x : Cluster) (c' : Nat) : (s.setCluster k x).core c' = s.core c' := rfl
@[simp] theorem State.setCluster_ctx (s : State) (k : Nat) (x : Cluster) (k' : Nat) : (s.setCluster k x).ctx k' = s.ctx k' := rfl
@[simp] theorem State.setCluster_lane (s : State) (k : Nat) (x : Cluster) (n' : Nat) : (s.setCluster k x).lane n' = s.lane n' := rfl
@[simp] theorem State.setCluster_func (s : State) (k : Nat) (x : Cluster) (f' : Nat) : (s.setCluster k x).func f' = s.func f' := rfl
@[simp] theorem State.setCluster_queue (s : State) (k : Nat) (x : Cluster) (f' : Nat) (q' : Nat) : (s.setCluster k x).queue f' q' = s.queue f' q' := rfl

/-! ### State.setCtx -/

@[simp] theorem State.setCtx_now (s : State) (k : Nat) (x : Context) : (s.setCtx k x).now = s.now := rfl
@[simp] theorem State.setCtx_time (s : State) (k : Nat) (x : Context) : (s.setCtx k x).time = s.time := rfl
@[simp] theorem State.setCtx_cur (s : State) (k : Nat) (x : Context) : (s.setCtx k x).cur = s.cur := rfl
@[simp] theorem State.setCtx_agenda (s : State) (k : Nat) (x : Context) : (s.setCtx k x).agenda = s.agenda := rfl
@[simp] theorem State.setCtx_inputs (s : State) (k : Nat) (x : Context) : (s.setCtx k x).inputs = s.inputs := rfl
@[simp] theorem State.setCtx_draws (s : State) (k : Nat) (x : Context) : (s.setCtx k x).draws = s.draws := rfl
@[simp] theorem State.setCtx_swept (s : State) (k : Nat) (x : Context) : (s.setCtx k x).swept = s.swept := rfl
@[simp] theorem State.setCtx_cores (s : State) (k : Nat) (x : Context) : (s.setCtx k x).cores = s.cores := rfl
@[simp] theorem State.setCtx_clusters (s : State) (k : Nat) (x : Context) : (s.setCtx k x).clusters = s.clusters := rfl
@[simp] theorem State.setCtx_lanes (s : State) (k : Nat) (x : Context) : (s.setCtx k x).lanes = s.lanes := rfl
@[simp] theorem State.setCtx_funcs (s : State) (k : Nat) (x : Context) : (s.setCtx k x).funcs = s.funcs := rfl
@[simp] theorem State.setCtx_queues (s : State) (k : Nat) (x : Context) : (s.setCtx k x).queues = s.queues := rfl
@[simp] theorem State.setCtx_hbm (s : State) (k : Nat) (x : Context) : (s.setCtx k x).hbm = s.hbm := rfl
@[simp] theorem State.setCtx_hostMem (s : State) (k : Nat) (x : Context) : (s.setCtx k x).hostMem = s.hostMem := rfl
@[simp] theorem State.setCtx_hbmBad (s : State) (k : Nat) (x : Context) : (s.setCtx k x).hbmBad = s.hbmBad := rfl
@[simp] theorem State.setCtx_parcelBad (s : State) (k : Nat) (x : Context) : (s.setCtx k x).parcelBad = s.parcelBad := rfl
@[simp] theorem State.setCtx_dirty (s : State) (k : Nat) (x : Context) : (s.setCtx k x).dirty = s.dirty := rfl
@[simp] theorem State.setCtx_requests (s : State) (k : Nat) (x : Context) : (s.setCtx k x).requests = s.requests := rfl
@[simp] theorem State.setCtx_waiting (s : State) (k : Nat) (x : Context) : (s.setCtx k x).waiting = s.waiting := rfl
@[simp] theorem State.setCtx_tableErrs (s : State) (k : Nat) (x : Context) : (s.setCtx k x).tableErrs = s.tableErrs := rfl
@[simp] theorem State.setCtx_shoot (s : State) (k : Nat) (x : Context) : (s.setCtx k x).shoot = s.shoot := rfl
@[simp] theorem State.setCtx_freeTable (s : State) (k : Nat) (x : Context) : (s.setCtx k x).freeTable = s.freeTable := rfl
@[simp] theorem State.setCtx_spareRows (s : State) (k : Nat) (x : Context) : (s.setCtx k x).spareRows = s.spareRows := rfl
@[simp] theorem State.setCtx_retired (s : State) (k : Nat) (x : Context) : (s.setCtx k x).retired = s.retired := rfl
@[simp] theorem State.setCtx_macRows (s : State) (k : Nat) (x : Context) : (s.setCtx k x).macRows = s.macRows := rfl
@[simp] theorem State.setCtx_rotations (s : State) (k : Nat) (x : Context) : (s.setCtx k x).rotations = s.rotations := rfl
@[simp] theorem State.setCtx_sliceEnd (s : State) (k : Nat) (x : Context) : (s.setCtx k x).sliceEnd = s.sliceEnd := rfl
@[simp] theorem State.setCtx_tags (s : State) (k : Nat) (x : Context) : (s.setCtx k x).tags = s.tags := rfl
@[simp] theorem State.setCtx_pendTags (s : State) (k : Nat) (x : Context) : (s.setCtx k x).pendTags = s.pendTags := rfl
@[simp] theorem State.setCtx_launchSeq (s : State) (k : Nat) (x : Context) : (s.setCtx k x).launchSeq = s.launchSeq := rfl
@[simp] theorem State.setCtx_lastServed (s : State) (k : Nat) (x : Context) : (s.setCtx k x).lastServed = s.lastServed := rfl
@[simp] theorem State.setCtx_ports (s : State) (k : Nat) (x : Context) : (s.setCtx k x).ports = s.ports := rfl
@[simp] theorem State.setCtx_modNum (s : State) (k : Nat) (x : Context) : (s.setCtx k x).modNum = s.modNum := rfl
@[simp] theorem State.setCtx_epochs (s : State) (k : Nat) (x : Context) : (s.setCtx k x).epochs = s.epochs := rfl
@[simp] theorem State.setCtx_hdm (s : State) (k : Nat) (x : Context) : (s.setCtx k x).hdm = s.hdm := rfl
@[simp] theorem State.setCtx_mode (s : State) (k : Nat) (x : Context) : (s.setCtx k x).mode = s.mode := rfl
@[simp] theorem State.setCtx_mhz (s : State) (k : Nat) (x : Context) : (s.setCtx k x).mhz = s.mhz := rfl
@[simp] theorem State.setCtx_power (s : State) (k : Nat) (x : Context) : (s.setCtx k x).power = s.power := rfl
@[simp] theorem State.setCtx_overTemp (s : State) (k : Nat) (x : Context) : (s.setCtx k x).overTemp = s.overTemp := rfl
@[simp] theorem State.setCtx_clockOff (s : State) (k : Nat) (x : Context) : (s.setCtx k x).clockOff = s.clockOff := rfl
@[simp] theorem State.setCtx_errors (s : State) (k : Nat) (x : Context) : (s.setCtx k x).errors = s.errors := rfl
@[simp] theorem State.setCtx_lasting (s : State) (k : Nat) (x : Context) : (s.setCtx k x).lasting = s.lasting := rfl
@[simp] theorem State.setCtx_firmware (s : State) (k : Nat) (x : Context) : (s.setCtx k x).firmware = s.firmware := rfl
@[simp] theorem State.setCtx_secVer (s : State) (k : Nat) (x : Context) : (s.setCtx k x).secVer = s.secVer := rfl
@[simp] theorem State.setCtx_attested (s : State) (k : Nat) (x : Context) : (s.setCtx k x).attested = s.attested := rfl
@[simp] theorem State.setCtx_late (s : State) (k : Nat) (x : Context) : (s.setCtx k x).late = s.late := rfl
@[simp] theorem State.setCtx_modeLog (s : State) (k : Nat) (x : Context) : (s.setCtx k x).modeLog = s.modeLog := rfl
@[simp] theorem State.ctx_setCtx_same (s : State) (k : Nat) (x : Context) : (s.setCtx k x).ctx k = x := by
  simp [State.ctx, State.setCtx]
theorem State.ctx_setCtx_other (s : State) (k : Nat) (x : Context) (n : Nat) (h : n ≠ k) : (s.setCtx k x).ctx n = s.ctx n := by
  simp [State.ctx, State.setCtx, look_put_other _ _ _ _ h]
@[simp] theorem State.setCtx_setCtx (s : State) (k : Nat) (x : Context) (y : Context) : (s.setCtx k x).setCtx k y = s.setCtx k y := by
  simp [State.setCtx]
@[simp] theorem State.setCtx_core (s : State) (k : Nat) (x : Context) (c' : Nat) : (s.setCtx k x).core c' = s.core c' := rfl
@[simp] theorem State.setCtx_cluster (s : State) (k : Nat) (x : Context) (k' : Nat) : (s.setCtx k x).cluster k' = s.cluster k' := rfl
@[simp] theorem State.setCtx_lane (s : State) (k : Nat) (x : Context) (n' : Nat) : (s.setCtx k x).lane n' = s.lane n' := rfl
@[simp] theorem State.setCtx_func (s : State) (k : Nat) (x : Context) (f' : Nat) : (s.setCtx k x).func f' = s.func f' := rfl
@[simp] theorem State.setCtx_queue (s : State) (k : Nat) (x : Context) (f' : Nat) (q' : Nat) : (s.setCtx k x).queue f' q' = s.queue f' q' := rfl

/-! ### State.setLane -/

@[simp] theorem State.setLane_now (s : State) (n : Nat) (x : Lane) : (s.setLane n x).now = s.now := rfl
@[simp] theorem State.setLane_time (s : State) (n : Nat) (x : Lane) : (s.setLane n x).time = s.time := rfl
@[simp] theorem State.setLane_cur (s : State) (n : Nat) (x : Lane) : (s.setLane n x).cur = s.cur := rfl
@[simp] theorem State.setLane_agenda (s : State) (n : Nat) (x : Lane) : (s.setLane n x).agenda = s.agenda := rfl
@[simp] theorem State.setLane_inputs (s : State) (n : Nat) (x : Lane) : (s.setLane n x).inputs = s.inputs := rfl
@[simp] theorem State.setLane_draws (s : State) (n : Nat) (x : Lane) : (s.setLane n x).draws = s.draws := rfl
@[simp] theorem State.setLane_swept (s : State) (n : Nat) (x : Lane) : (s.setLane n x).swept = s.swept := rfl
@[simp] theorem State.setLane_cores (s : State) (n : Nat) (x : Lane) : (s.setLane n x).cores = s.cores := rfl
@[simp] theorem State.setLane_clusters (s : State) (n : Nat) (x : Lane) : (s.setLane n x).clusters = s.clusters := rfl
@[simp] theorem State.setLane_contexts (s : State) (n : Nat) (x : Lane) : (s.setLane n x).contexts = s.contexts := rfl
@[simp] theorem State.setLane_funcs (s : State) (n : Nat) (x : Lane) : (s.setLane n x).funcs = s.funcs := rfl
@[simp] theorem State.setLane_queues (s : State) (n : Nat) (x : Lane) : (s.setLane n x).queues = s.queues := rfl
@[simp] theorem State.setLane_hbm (s : State) (n : Nat) (x : Lane) : (s.setLane n x).hbm = s.hbm := rfl
@[simp] theorem State.setLane_hostMem (s : State) (n : Nat) (x : Lane) : (s.setLane n x).hostMem = s.hostMem := rfl
@[simp] theorem State.setLane_hbmBad (s : State) (n : Nat) (x : Lane) : (s.setLane n x).hbmBad = s.hbmBad := rfl
@[simp] theorem State.setLane_parcelBad (s : State) (n : Nat) (x : Lane) : (s.setLane n x).parcelBad = s.parcelBad := rfl
@[simp] theorem State.setLane_dirty (s : State) (n : Nat) (x : Lane) : (s.setLane n x).dirty = s.dirty := rfl
@[simp] theorem State.setLane_requests (s : State) (n : Nat) (x : Lane) : (s.setLane n x).requests = s.requests := rfl
@[simp] theorem State.setLane_waiting (s : State) (n : Nat) (x : Lane) : (s.setLane n x).waiting = s.waiting := rfl
@[simp] theorem State.setLane_tableErrs (s : State) (n : Nat) (x : Lane) : (s.setLane n x).tableErrs = s.tableErrs := rfl
@[simp] theorem State.setLane_shoot (s : State) (n : Nat) (x : Lane) : (s.setLane n x).shoot = s.shoot := rfl
@[simp] theorem State.setLane_freeTable (s : State) (n : Nat) (x : Lane) : (s.setLane n x).freeTable = s.freeTable := rfl
@[simp] theorem State.setLane_spareRows (s : State) (n : Nat) (x : Lane) : (s.setLane n x).spareRows = s.spareRows := rfl
@[simp] theorem State.setLane_retired (s : State) (n : Nat) (x : Lane) : (s.setLane n x).retired = s.retired := rfl
@[simp] theorem State.setLane_macRows (s : State) (n : Nat) (x : Lane) : (s.setLane n x).macRows = s.macRows := rfl
@[simp] theorem State.setLane_rotations (s : State) (n : Nat) (x : Lane) : (s.setLane n x).rotations = s.rotations := rfl
@[simp] theorem State.setLane_sliceEnd (s : State) (n : Nat) (x : Lane) : (s.setLane n x).sliceEnd = s.sliceEnd := rfl
@[simp] theorem State.setLane_tags (s : State) (n : Nat) (x : Lane) : (s.setLane n x).tags = s.tags := rfl
@[simp] theorem State.setLane_pendTags (s : State) (n : Nat) (x : Lane) : (s.setLane n x).pendTags = s.pendTags := rfl
@[simp] theorem State.setLane_launchSeq (s : State) (n : Nat) (x : Lane) : (s.setLane n x).launchSeq = s.launchSeq := rfl
@[simp] theorem State.setLane_lastServed (s : State) (n : Nat) (x : Lane) : (s.setLane n x).lastServed = s.lastServed := rfl
@[simp] theorem State.setLane_ports (s : State) (n : Nat) (x : Lane) : (s.setLane n x).ports = s.ports := rfl
@[simp] theorem State.setLane_modNum (s : State) (n : Nat) (x : Lane) : (s.setLane n x).modNum = s.modNum := rfl
@[simp] theorem State.setLane_epochs (s : State) (n : Nat) (x : Lane) : (s.setLane n x).epochs = s.epochs := rfl
@[simp] theorem State.setLane_hdm (s : State) (n : Nat) (x : Lane) : (s.setLane n x).hdm = s.hdm := rfl
@[simp] theorem State.setLane_mode (s : State) (n : Nat) (x : Lane) : (s.setLane n x).mode = s.mode := rfl
@[simp] theorem State.setLane_mhz (s : State) (n : Nat) (x : Lane) : (s.setLane n x).mhz = s.mhz := rfl
@[simp] theorem State.setLane_power (s : State) (n : Nat) (x : Lane) : (s.setLane n x).power = s.power := rfl
@[simp] theorem State.setLane_overTemp (s : State) (n : Nat) (x : Lane) : (s.setLane n x).overTemp = s.overTemp := rfl
@[simp] theorem State.setLane_clockOff (s : State) (n : Nat) (x : Lane) : (s.setLane n x).clockOff = s.clockOff := rfl
@[simp] theorem State.setLane_errors (s : State) (n : Nat) (x : Lane) : (s.setLane n x).errors = s.errors := rfl
@[simp] theorem State.setLane_lasting (s : State) (n : Nat) (x : Lane) : (s.setLane n x).lasting = s.lasting := rfl
@[simp] theorem State.setLane_firmware (s : State) (n : Nat) (x : Lane) : (s.setLane n x).firmware = s.firmware := rfl
@[simp] theorem State.setLane_secVer (s : State) (n : Nat) (x : Lane) : (s.setLane n x).secVer = s.secVer := rfl
@[simp] theorem State.setLane_attested (s : State) (n : Nat) (x : Lane) : (s.setLane n x).attested = s.attested := rfl
@[simp] theorem State.setLane_late (s : State) (n : Nat) (x : Lane) : (s.setLane n x).late = s.late := rfl
@[simp] theorem State.setLane_modeLog (s : State) (n : Nat) (x : Lane) : (s.setLane n x).modeLog = s.modeLog := rfl
@[simp] theorem State.lane_setLane_same (s : State) (n : Nat) (x : Lane) : (s.setLane n x).lane n = x := by
  simp [State.lane, State.setLane]
theorem State.lane_setLane_other (s : State) (m : Nat) (x : Lane) (n : Nat) (h : n ≠ m) : (s.setLane m x).lane n = s.lane n := by
  simp [State.lane, State.setLane, look_put_other _ _ _ _ h]
@[simp] theorem State.setLane_setLane (s : State) (n : Nat) (x : Lane) (y : Lane) : (s.setLane n x).setLane n y = s.setLane n y := by
  simp [State.setLane]
@[simp] theorem State.setLane_core (s : State) (n : Nat) (x : Lane) (c' : Nat) : (s.setLane n x).core c' = s.core c' := rfl
@[simp] theorem State.setLane_cluster (s : State) (n : Nat) (x : Lane) (k' : Nat) : (s.setLane n x).cluster k' = s.cluster k' := rfl
@[simp] theorem State.setLane_ctx (s : State) (n : Nat) (x : Lane) (k' : Nat) : (s.setLane n x).ctx k' = s.ctx k' := rfl
@[simp] theorem State.setLane_func (s : State) (n : Nat) (x : Lane) (f' : Nat) : (s.setLane n x).func f' = s.func f' := rfl
@[simp] theorem State.setLane_queue (s : State) (n : Nat) (x : Lane) (f' : Nat) (q' : Nat) : (s.setLane n x).queue f' q' = s.queue f' q' := rfl

/-! ### State.setFunc -/

@[simp] theorem State.setFunc_now (s : State) (f : Nat) (x : Func) : (s.setFunc f x).now = s.now := rfl
@[simp] theorem State.setFunc_time (s : State) (f : Nat) (x : Func) : (s.setFunc f x).time = s.time := rfl
@[simp] theorem State.setFunc_cur (s : State) (f : Nat) (x : Func) : (s.setFunc f x).cur = s.cur := rfl
@[simp] theorem State.setFunc_agenda (s : State) (f : Nat) (x : Func) : (s.setFunc f x).agenda = s.agenda := rfl
@[simp] theorem State.setFunc_inputs (s : State) (f : Nat) (x : Func) : (s.setFunc f x).inputs = s.inputs := rfl
@[simp] theorem State.setFunc_draws (s : State) (f : Nat) (x : Func) : (s.setFunc f x).draws = s.draws := rfl
@[simp] theorem State.setFunc_swept (s : State) (f : Nat) (x : Func) : (s.setFunc f x).swept = s.swept := rfl
@[simp] theorem State.setFunc_cores (s : State) (f : Nat) (x : Func) : (s.setFunc f x).cores = s.cores := rfl
@[simp] theorem State.setFunc_clusters (s : State) (f : Nat) (x : Func) : (s.setFunc f x).clusters = s.clusters := rfl
@[simp] theorem State.setFunc_contexts (s : State) (f : Nat) (x : Func) : (s.setFunc f x).contexts = s.contexts := rfl
@[simp] theorem State.setFunc_lanes (s : State) (f : Nat) (x : Func) : (s.setFunc f x).lanes = s.lanes := rfl
@[simp] theorem State.setFunc_queues (s : State) (f : Nat) (x : Func) : (s.setFunc f x).queues = s.queues := rfl
@[simp] theorem State.setFunc_hbm (s : State) (f : Nat) (x : Func) : (s.setFunc f x).hbm = s.hbm := rfl
@[simp] theorem State.setFunc_hostMem (s : State) (f : Nat) (x : Func) : (s.setFunc f x).hostMem = s.hostMem := rfl
@[simp] theorem State.setFunc_hbmBad (s : State) (f : Nat) (x : Func) : (s.setFunc f x).hbmBad = s.hbmBad := rfl
@[simp] theorem State.setFunc_parcelBad (s : State) (f : Nat) (x : Func) : (s.setFunc f x).parcelBad = s.parcelBad := rfl
@[simp] theorem State.setFunc_dirty (s : State) (f : Nat) (x : Func) : (s.setFunc f x).dirty = s.dirty := rfl
@[simp] theorem State.setFunc_requests (s : State) (f : Nat) (x : Func) : (s.setFunc f x).requests = s.requests := rfl
@[simp] theorem State.setFunc_waiting (s : State) (f : Nat) (x : Func) : (s.setFunc f x).waiting = s.waiting := rfl
@[simp] theorem State.setFunc_tableErrs (s : State) (f : Nat) (x : Func) : (s.setFunc f x).tableErrs = s.tableErrs := rfl
@[simp] theorem State.setFunc_shoot (s : State) (f : Nat) (x : Func) : (s.setFunc f x).shoot = s.shoot := rfl
@[simp] theorem State.setFunc_freeTable (s : State) (f : Nat) (x : Func) : (s.setFunc f x).freeTable = s.freeTable := rfl
@[simp] theorem State.setFunc_spareRows (s : State) (f : Nat) (x : Func) : (s.setFunc f x).spareRows = s.spareRows := rfl
@[simp] theorem State.setFunc_retired (s : State) (f : Nat) (x : Func) : (s.setFunc f x).retired = s.retired := rfl
@[simp] theorem State.setFunc_macRows (s : State) (f : Nat) (x : Func) : (s.setFunc f x).macRows = s.macRows := rfl
@[simp] theorem State.setFunc_rotations (s : State) (f : Nat) (x : Func) : (s.setFunc f x).rotations = s.rotations := rfl
@[simp] theorem State.setFunc_sliceEnd (s : State) (f : Nat) (x : Func) : (s.setFunc f x).sliceEnd = s.sliceEnd := rfl
@[simp] theorem State.setFunc_tags (s : State) (f : Nat) (x : Func) : (s.setFunc f x).tags = s.tags := rfl
@[simp] theorem State.setFunc_pendTags (s : State) (f : Nat) (x : Func) : (s.setFunc f x).pendTags = s.pendTags := rfl
@[simp] theorem State.setFunc_launchSeq (s : State) (f : Nat) (x : Func) : (s.setFunc f x).launchSeq = s.launchSeq := rfl
@[simp] theorem State.setFunc_lastServed (s : State) (f : Nat) (x : Func) : (s.setFunc f x).lastServed = s.lastServed := rfl
@[simp] theorem State.setFunc_ports (s : State) (f : Nat) (x : Func) : (s.setFunc f x).ports = s.ports := rfl
@[simp] theorem State.setFunc_modNum (s : State) (f : Nat) (x : Func) : (s.setFunc f x).modNum = s.modNum := rfl
@[simp] theorem State.setFunc_epochs (s : State) (f : Nat) (x : Func) : (s.setFunc f x).epochs = s.epochs := rfl
@[simp] theorem State.setFunc_hdm (s : State) (f : Nat) (x : Func) : (s.setFunc f x).hdm = s.hdm := rfl
@[simp] theorem State.setFunc_mode (s : State) (f : Nat) (x : Func) : (s.setFunc f x).mode = s.mode := rfl
@[simp] theorem State.setFunc_mhz (s : State) (f : Nat) (x : Func) : (s.setFunc f x).mhz = s.mhz := rfl
@[simp] theorem State.setFunc_power (s : State) (f : Nat) (x : Func) : (s.setFunc f x).power = s.power := rfl
@[simp] theorem State.setFunc_overTemp (s : State) (f : Nat) (x : Func) : (s.setFunc f x).overTemp = s.overTemp := rfl
@[simp] theorem State.setFunc_clockOff (s : State) (f : Nat) (x : Func) : (s.setFunc f x).clockOff = s.clockOff := rfl
@[simp] theorem State.setFunc_errors (s : State) (f : Nat) (x : Func) : (s.setFunc f x).errors = s.errors := rfl
@[simp] theorem State.setFunc_lasting (s : State) (f : Nat) (x : Func) : (s.setFunc f x).lasting = s.lasting := rfl
@[simp] theorem State.setFunc_firmware (s : State) (f : Nat) (x : Func) : (s.setFunc f x).firmware = s.firmware := rfl
@[simp] theorem State.setFunc_secVer (s : State) (f : Nat) (x : Func) : (s.setFunc f x).secVer = s.secVer := rfl
@[simp] theorem State.setFunc_attested (s : State) (f : Nat) (x : Func) : (s.setFunc f x).attested = s.attested := rfl
@[simp] theorem State.setFunc_late (s : State) (f : Nat) (x : Func) : (s.setFunc f x).late = s.late := rfl
@[simp] theorem State.setFunc_modeLog (s : State) (f : Nat) (x : Func) : (s.setFunc f x).modeLog = s.modeLog := rfl
@[simp] theorem State.func_setFunc_same (s : State) (f : Nat) (x : Func) : (s.setFunc f x).func f = x := by
  simp [State.func, State.setFunc]
theorem State.func_setFunc_other (s : State) (f : Nat) (x : Func) (n : Nat) (h : n ≠ f) : (s.setFunc f x).func n = s.func n := by
  simp [State.func, State.setFunc, look_put_other _ _ _ _ h]
@[simp] theorem State.setFunc_setFunc (s : State) (f : Nat) (x : Func) (y : Func) : (s.setFunc f x).setFunc f y = s.setFunc f y := by
  simp [State.setFunc]
@[simp] theorem State.setFunc_core (s : State) (f : Nat) (x : Func) (c' : Nat) : (s.setFunc f x).core c' = s.core c' := rfl
@[simp] theorem State.setFunc_cluster (s : State) (f : Nat) (x : Func) (k' : Nat) : (s.setFunc f x).cluster k' = s.cluster k' := rfl
@[simp] theorem State.setFunc_ctx (s : State) (f : Nat) (x : Func) (k' : Nat) : (s.setFunc f x).ctx k' = s.ctx k' := rfl
@[simp] theorem State.setFunc_lane (s : State) (f : Nat) (x : Func) (n' : Nat) : (s.setFunc f x).lane n' = s.lane n' := rfl
@[simp] theorem State.setFunc_queue (s : State) (f : Nat) (x : Func) (f' : Nat) (q' : Nat) : (s.setFunc f x).queue f' q' = s.queue f' q' := rfl

/-! ### State.setQueue -/

@[simp] theorem State.setQueue_now (s : State) (f q : Nat) (x : HQueue) : (s.setQueue f q x).now = s.now := rfl
@[simp] theorem State.setQueue_time (s : State) (f q : Nat) (x : HQueue) : (s.setQueue f q x).time = s.time := rfl
@[simp] theorem State.setQueue_cur (s : State) (f q : Nat) (x : HQueue) : (s.setQueue f q x).cur = s.cur := rfl
@[simp] theorem State.setQueue_agenda (s : State) (f q : Nat) (x : HQueue) : (s.setQueue f q x).agenda = s.agenda := rfl
@[simp] theorem State.setQueue_inputs (s : State) (f q : Nat) (x : HQueue) : (s.setQueue f q x).inputs = s.inputs := rfl
@[simp] theorem State.setQueue_draws (s : State) (f q : Nat) (x : HQueue) : (s.setQueue f q x).draws = s.draws := rfl
@[simp] theorem State.setQueue_swept (s : State) (f q : Nat) (x : HQueue) : (s.setQueue f q x).swept = s.swept := rfl
@[simp] theorem State.setQueue_cores (s : State) (f q : Nat) (x : HQueue) : (s.setQueue f q x).cores = s.cores := rfl
@[simp] theorem State.setQueue_clusters (s : State) (f q : Nat) (x : HQueue) : (s.setQueue f q x).clusters = s.clusters := rfl
@[simp] theorem State.setQueue_contexts (s : State) (f q : Nat) (x : HQueue) : (s.setQueue f q x).contexts = s.contexts := rfl
@[simp] theorem State.setQueue_lanes (s : State) (f q : Nat) (x : HQueue) : (s.setQueue f q x).lanes = s.lanes := rfl
@[simp] theorem State.setQueue_funcs (s : State) (f q : Nat) (x : HQueue) : (s.setQueue f q x).funcs = s.funcs := rfl
@[simp] theorem State.setQueue_hbm (s : State) (f q : Nat) (x : HQueue) : (s.setQueue f q x).hbm = s.hbm := rfl
@[simp] theorem State.setQueue_hostMem (s : State) (f q : Nat) (x : HQueue) : (s.setQueue f q x).hostMem = s.hostMem := rfl
@[simp] theorem State.setQueue_hbmBad (s : State) (f q : Nat) (x : HQueue) : (s.setQueue f q x).hbmBad = s.hbmBad := rfl
@[simp] theorem State.setQueue_parcelBad (s : State) (f q : Nat) (x : HQueue) : (s.setQueue f q x).parcelBad = s.parcelBad := rfl
@[simp] theorem State.setQueue_dirty (s : State) (f q : Nat) (x : HQueue) : (s.setQueue f q x).dirty = s.dirty := rfl
@[simp] theorem State.setQueue_requests (s : State) (f q : Nat) (x : HQueue) : (s.setQueue f q x).requests = s.requests := rfl
@[simp] theorem State.setQueue_waiting (s : State) (f q : Nat) (x : HQueue) : (s.setQueue f q x).waiting = s.waiting := rfl
@[simp] theorem State.setQueue_tableErrs (s : State) (f q : Nat) (x : HQueue) : (s.setQueue f q x).tableErrs = s.tableErrs := rfl
@[simp] theorem State.setQueue_shoot (s : State) (f q : Nat) (x : HQueue) : (s.setQueue f q x).shoot = s.shoot := rfl
@[simp] theorem State.setQueue_freeTable (s : State) (f q : Nat) (x : HQueue) : (s.setQueue f q x).freeTable = s.freeTable := rfl
@[simp] theorem State.setQueue_spareRows (s : State) (f q : Nat) (x : HQueue) : (s.setQueue f q x).spareRows = s.spareRows := rfl
@[simp] theorem State.setQueue_retired (s : State) (f q : Nat) (x : HQueue) : (s.setQueue f q x).retired = s.retired := rfl
@[simp] theorem State.setQueue_macRows (s : State) (f q : Nat) (x : HQueue) : (s.setQueue f q x).macRows = s.macRows := rfl
@[simp] theorem State.setQueue_rotations (s : State) (f q : Nat) (x : HQueue) : (s.setQueue f q x).rotations = s.rotations := rfl
@[simp] theorem State.setQueue_sliceEnd (s : State) (f q : Nat) (x : HQueue) : (s.setQueue f q x).sliceEnd = s.sliceEnd := rfl
@[simp] theorem State.setQueue_tags (s : State) (f q : Nat) (x : HQueue) : (s.setQueue f q x).tags = s.tags := rfl
@[simp] theorem State.setQueue_pendTags (s : State) (f q : Nat) (x : HQueue) : (s.setQueue f q x).pendTags = s.pendTags := rfl
@[simp] theorem State.setQueue_launchSeq (s : State) (f q : Nat) (x : HQueue) : (s.setQueue f q x).launchSeq = s.launchSeq := rfl
@[simp] theorem State.setQueue_lastServed (s : State) (f q : Nat) (x : HQueue) : (s.setQueue f q x).lastServed = s.lastServed := rfl
@[simp] theorem State.setQueue_ports (s : State) (f q : Nat) (x : HQueue) : (s.setQueue f q x).ports = s.ports := rfl
@[simp] theorem State.setQueue_modNum (s : State) (f q : Nat) (x : HQueue) : (s.setQueue f q x).modNum = s.modNum := rfl
@[simp] theorem State.setQueue_epochs (s : State) (f q : Nat) (x : HQueue) : (s.setQueue f q x).epochs = s.epochs := rfl
@[simp] theorem State.setQueue_hdm (s : State) (f q : Nat) (x : HQueue) : (s.setQueue f q x).hdm = s.hdm := rfl
@[simp] theorem State.setQueue_mode (s : State) (f q : Nat) (x : HQueue) : (s.setQueue f q x).mode = s.mode := rfl
@[simp] theorem State.setQueue_mhz (s : State) (f q : Nat) (x : HQueue) : (s.setQueue f q x).mhz = s.mhz := rfl
@[simp] theorem State.setQueue_power (s : State) (f q : Nat) (x : HQueue) : (s.setQueue f q x).power = s.power := rfl
@[simp] theorem State.setQueue_overTemp (s : State) (f q : Nat) (x : HQueue) : (s.setQueue f q x).overTemp = s.overTemp := rfl
@[simp] theorem State.setQueue_clockOff (s : State) (f q : Nat) (x : HQueue) : (s.setQueue f q x).clockOff = s.clockOff := rfl
@[simp] theorem State.setQueue_errors (s : State) (f q : Nat) (x : HQueue) : (s.setQueue f q x).errors = s.errors := rfl
@[simp] theorem State.setQueue_lasting (s : State) (f q : Nat) (x : HQueue) : (s.setQueue f q x).lasting = s.lasting := rfl
@[simp] theorem State.setQueue_firmware (s : State) (f q : Nat) (x : HQueue) : (s.setQueue f q x).firmware = s.firmware := rfl
@[simp] theorem State.setQueue_secVer (s : State) (f q : Nat) (x : HQueue) : (s.setQueue f q x).secVer = s.secVer := rfl
@[simp] theorem State.setQueue_attested (s : State) (f q : Nat) (x : HQueue) : (s.setQueue f q x).attested = s.attested := rfl
@[simp] theorem State.setQueue_late (s : State) (f q : Nat) (x : HQueue) : (s.setQueue f q x).late = s.late := rfl
@[simp] theorem State.setQueue_modeLog (s : State) (f q : Nat) (x : HQueue) : (s.setQueue f q x).modeLog = s.modeLog := rfl
@[simp] theorem State.queue_setQueue_same (s : State) (f q : Nat) (x : HQueue) : (s.setQueue f q x).queue f q = x := by
  simp [State.queue, State.setQueue]
@[simp] theorem State.setQueue_setQueue (s : State) (f q : Nat) (x : HQueue) (y : HQueue) : (s.setQueue f q x).setQueue f q y = s.setQueue f q y := by
  simp [State.setQueue]
@[simp] theorem State.setQueue_core (s : State) (f q : Nat) (x : HQueue) (c' : Nat) : (s.setQueue f q x).core c' = s.core c' := rfl
@[simp] theorem State.setQueue_cluster (s : State) (f q : Nat) (x : HQueue) (k' : Nat) : (s.setQueue f q x).cluster k' = s.cluster k' := rfl
@[simp] theorem State.setQueue_ctx (s : State) (f q : Nat) (x : HQueue) (k' : Nat) : (s.setQueue f q x).ctx k' = s.ctx k' := rfl
@[simp] theorem State.setQueue_lane (s : State) (f q : Nat) (x : HQueue) (n' : Nat) : (s.setQueue f q x).lane n' = s.lane n' := rfl
@[simp] theorem State.setQueue_func (s : State) (f q : Nat) (x : HQueue) (f' : Nat) : (s.setQueue f q x).func f' = s.func f' := rfl

/-! ### Writing several scalar registers -/

/-- Landing writes changes the scalar registers alone. -/
theorem Core.foldl_writeG (l : List Pend) (c : Core) :
    l.foldl (fun k p => k.writeG p.reg p.value) c = { c with g := (l.foldl (fun k p => k.writeG p.reg p.value) c).g } := by
  induction l generalizing c with
  | nil => rfl
  | cons p l ih =>
    have h : c.writeG p.reg p.value = { c with g := (c.writeG p.reg p.value).g } := by unfold Core.writeG; split <;> rfl
    simp only [List.foldl_cons]
    rw [ih, h]

/-- Landing writes in several steps changes the scalar registers alone. -/
theorem Core.foldl_foldl_writeG (f : Nat → List Pend) (l : List Nat) (c : Core) :
    l.foldl (fun k t => (f t).foldl (fun k p => k.writeG p.reg p.value) k) c =
      { c with g := (l.foldl (fun k t => (f t).foldl (fun k p => k.writeG p.reg p.value) k) c).g } := by
  induction l generalizing c with
  | nil => rfl
  | cons t l ih =>
    simp only [List.foldl_cons]
    rw [ih, Core.foldl_writeG]

theorem Core.landDue_eq (c : Core) (t : Nat) :
    c.landDue t = { c with g := (c.landDue t).g, pend := c.pend.filter fun p => decide (t < p.landAt) } := by
  unfold Core.landDue
  rw [Core.foldl_writeG]

theorem Core.landAll_eq (c : Core) : c.landAll = { c with g := c.landAll.g, pend := [] } := by
  unfold Core.landAll
  simp only
  rw [Core.foldl_foldl_writeG]

/-! ### Core.writeG -/

@[simp] theorem Core.writeG_ctx (c : Core) (r : BitVec 5) (w : Word) : (c.writeG r w).ctx = c.ctx := by
  unfold Core.writeG; split <;> rfl
@[simp] theorem Core.writeG_lslot (c : Core) (r : BitVec 5) (w : Word) : (c.writeG r w).lslot = c.lslot := by
  unfold Core.writeG; split <;> rfl
@[simp] theorem Core.writeG_group (c : Core) (r : BitVec 5) (w : Word) : (c.writeG r w).group = c.group := by
  unfold Core.writeG; split <;> rfl
@[simp] theorem Core.writeG_member (c : Core) (r : BitVec 5) (w : Word) : (c.writeG r w).member = c.member := by
  unfold Core.writeG; split <;> rfl
@[simp] theorem Core.writeG_lcore (c : Core) (r : BitVec 5) (w : Word) : (c.writeG r w).lcore = c.lcore := by
  unfold Core.writeG; split <;> rfl
@[simp] theorem Core.writeG_tag (c : Core) (r : BitVec 5) (w : Word) : (c.writeG r w).tag = c.tag := by
  unfold Core.writeG; split <;> rfl
@[simp] theorem Core.writeG_status (c : Core) (r : BitVec 5) (w : Word) : (c.writeG r w).status = c.status := by
  unfold Core.writeG; split <;> rfl
@[simp] theorem Core.writeG_haltReq (c : Core) (r : BitVec 5) (w : Word) : (c.writeG r w).haltReq = c.haltReq := by
  unfold Core.writeG; split <;> rfl
@[simp] theorem Core.writeG_signal (c : Core) (r : BitVec 5) (w : Word) : (c.writeG r w).signal = c.signal := by
  unfold Core.writeG; split <;> rfl
@[simp] theorem Core.writeG_abort (c : Core) (r : BitVec 5) (w : Word) : (c.writeG r w).abort = c.abort := by
  unfold Core.writeG; split <;> rfl
@[simp] theorem Core.writeG_dataErr (c : Core) (r : BitVec 5) (w : Word) : (c.writeG r w).dataErr = c.dataErr := by
  unfold Core.writeG; split <;> rfl
@[simp] theorem Core.writeG_wait (c : Core) (r : BitVec 5) (w : Word) : (c.writeG r w).wait = c.wait := by
  unfold Core.writeG; split <;> rfl
@[simp] theorem Core.writeG_held (c : Core) (r : BitVec 5) (w : Word) : (c.writeG r w).held = c.held := by
  unfold Core.writeG; split <;> rfl
@[simp] theorem Core.writeG_readyAt (c : Core) (r : BitVec 5) (w : Word) : (c.writeG r w).readyAt = c.readyAt := by
  unfold Core.writeG; split <;> rfl
@[simp] theorem Core.writeG_latch (c : Core) (r : BitVec 5) (w : Word) : (c.writeG r w).latch = c.latch := by
  unfold Core.writeG; split <;> rfl
@[simp] theorem Core.writeG_flagsWord (c : Core) (r : BitVec 5) (w : Word) : (c.writeG r w).flagsWord = c.flagsWord := by
  unfold Core.writeG; split <;> rfl
@[simp] theorem Core.writeG_link (c : Core) (r : BitVec 5) (w : Word) : (c.writeG r w).link = c.link := by
  unfold Core.writeG; split <;> rfl
@[simp] theorem Core.writeG_pc (c : Core) (r : BitVec 5) (w : Word) : (c.writeG r w).pc = c.pc := by
  unfold Core.writeG; split <;> rfl
@[simp] theorem Core.writeG_a (c : Core) (r : BitVec 5) (w : Word) : (c.writeG r w).a = c.a := by
  unfold Core.writeG; split <;> rfl
@[simp] theorem Core.writeG_v (c : Core) (r : BitVec 5) (w : Word) : (c.writeG r w).v = c.v := by
  unfold Core.writeG; split <;> rfl
@[simp] theorem Core.writeG_m (c : Core) (r : BitVec 5) (w : Word) : (c.writeG r w).m = c.m := by
  unfold Core.writeG; split <;> rfl
@[simp] theorem Core.writeG_z (c : Core) (r : BitVec 5) (w : Word) : (c.writeG r w).z = c.z := by
  unfold Core.writeG; split <;> rfl
@[simp] theorem Core.writeG_pend (c : Core) (r : BitVec 5) (w : Word) : (c.writeG r w).pend = c.pend := by
  unfold Core.writeG; split <;> rfl
@[simp] theorem Core.writeG_loops (c : Core) (r : BitVec 5) (w : Word) : (c.writeG r w).loops = c.loops := by
  unfold Core.writeG; split <;> rfl
@[simp] theorem Core.writeG_aside (c : Core) (r : BitVec 5) (w : Word) : (c.writeG r w).aside = c.aside := by
  unfold Core.writeG; split <;> rfl
@[simp] theorem Core.writeG_md (c : Core) (r : BitVec 5) (w : Word) : (c.writeG r w).md = c.md := by
  unfold Core.writeG; split <;> rfl
@[simp] theorem Core.writeG_mdAt (c : Core) (r : BitVec 5) (w : Word) : (c.writeG r w).mdAt = c.mdAt := by
  unfold Core.writeG; split <;> rfl
@[simp] theorem Core.writeG_frame (c : Core) (r : BitVec 5) (w : Word) : (c.writeG r w).frame = c.frame := by
  unfold Core.writeG; split <;> rfl
@[simp] theorem Core.writeG_trapFeed (c : Core) (r : BitVec 5) (w : Word) : (c.writeG r w).trapFeed = c.trapFeed := by
  unfold Core.writeG; split <;> rfl
@[simp] theorem Core.writeG_ops (c : Core) (r : BitVec 5) (w : Word) : (c.writeG r w).ops = c.ops := by
  unfold Core.writeG; split <;> rfl
@[simp] theorem Core.writeG_handler (c : Core) (r : BitVec 5) (w : Word) : (c.writeG r w).handler = c.handler := by
  unfold Core.writeG; split <;> rfl
@[simp] theorem Core.writeG_cause (c : Core) (r : BitVec 5) (w : Word) : (c.writeG r w).cause = c.cause := by
  unfold Core.writeG; split <;> rfl
@[simp] theorem Core.writeG_tpc (c : Core) (r : BitVec 5) (w : Word) : (c.writeG r w).tpc = c.tpc := by
  unfold Core.writeG; split <;> rfl
@[simp] theorem Core.writeG_tinfo (c : Core) (r : BitVec 5) (w : Word) : (c.writeG r w).tinfo = c.tinfo := by
  unfold Core.writeG; split <;> rfl
@[simp] theorem Core.writeG_fpflags (c : Core) (r : BitVec 5) (w : Word) : (c.writeG r w).fpflags = c.fpflags := by
  unfold Core.writeG; split <;> rfl
@[simp] theorem Core.writeG_rmode (c : Core) (r : BitVec 5) (w : Word) : (c.writeG r w).rmode = c.rmode := by
  unfold Core.writeG; split <;> rfl
@[simp] theorem Core.writeG_bankhash (c : Core) (r : BitVec 5) (w : Word) : (c.writeG r w).bankhash = c.bankhash := by
  unfold Core.writeG; split <;> rfl
@[simp] theorem Core.writeG_rehashAt (c : Core) (r : BitVec 5) (w : Word) : (c.writeG r w).rehashAt = c.rehashAt := by
  unfold Core.writeG; split <;> rfl
@[simp] theorem Core.writeG_vshare (c : Core) (r : BitVec 5) (w : Word) : (c.writeG r w).vshare = c.vshare := by
  unfold Core.writeG; split <;> rfl
@[simp] theorem Core.writeG_pass (c : Core) (r : BitVec 5) (w : Word) : (c.writeG r w).pass = c.pass := by
  unfold Core.writeG; split <;> rfl
@[simp] theorem Core.writeG_winbind (c : Core) (r : BitVec 5) (w : Word) : (c.writeG r w).winbind = c.winbind := by
  unfold Core.writeG; split <;> rfl
@[simp] theorem Core.writeG_barmember (c : Core) (r : BitVec 5) (w : Word) : (c.writeG r w).barmember = c.barmember := by
  unfold Core.writeG; split <;> rfl
@[simp] theorem Core.writeG_gangstat (c : Core) (r : BitVec 5) (w : Word) : (c.writeG r w).gangstat = c.gangstat := by
  unfold Core.writeG; split <;> rfl
@[simp] theorem Core.writeG_leader (c : Core) (r : BitVec 5) (w : Word) : (c.writeG r w).leader = c.leader := by
  unfold Core.writeG; split <;> rfl
@[simp] theorem Core.writeG_resVregs (c : Core) (r : BitVec 5) (w : Word) : (c.writeG r w).resVregs = c.resVregs := by
  unfold Core.writeG; split <;> rfl
@[simp] theorem Core.writeG_resBars (c : Core) (r : BitVec 5) (w : Word) : (c.writeG r w).resBars = c.resBars := by
  unfold Core.writeG; split <;> rfl
@[simp] theorem Core.writeG_resLocal (c : Core) (r : BitVec 5) (w : Word) : (c.writeG r w).resLocal = c.resLocal := by
  unfold Core.writeG; split <;> rfl
@[simp] theorem Core.writeG_resMacros (c : Core) (r : BitVec 5) (w : Word) : (c.writeG r w).resMacros = c.resMacros := by
  unfold Core.writeG; split <;> rfl
@[simp] theorem Core.writeG_pickup (c : Core) (r : BitVec 5) (w : Word) : (c.writeG r w).pickup = c.pickup := by
  unfold Core.writeG; split <;> rfl
@[simp] theorem Core.writeG_cycle0 (c : Core) (r : BitVec 5) (w : Word) : (c.writeG r w).cycle0 = c.cycle0 := by
  unfold Core.writeG; split <;> rfl
@[simp] theorem Core.writeG_cycleAdd (c : Core) (r : BitVec 5) (w : Word) : (c.writeG r w).cycleAdd = c.cycleAdd := by
  unfold Core.writeG; split <;> rfl
@[simp] theorem Core.writeG_step (c : Core) (r : BitVec 5) (w : Word) : (c.writeG r w).step = c.step := by
  unfold Core.writeG; split <;> rfl
@[simp] theorem Core.writeG_xphase (c : Core) (r : BitVec 5) (w : Word) : (c.writeG r w).xphase = c.xphase := by
  unfold Core.writeG; split <;> rfl
@[simp] theorem Core.writeG_chan (c : Core) (r : BitVec 5) (w : Word) : (c.writeG r w).chan = c.chan := by
  unfold Core.writeG; split <;> rfl
@[simp] theorem Core.writeG_nextSlot (c : Core) (r : BitVec 5) (w : Word) : (c.writeG r w).nextSlot = c.nextSlot := by
  unfold Core.writeG; split <;> rfl
@[simp] theorem Core.writeG_combstat (c : Core) (r : BitVec 5) (w : Word) : (c.writeG r w).combstat = c.combstat := by
  unfold Core.writeG; split <;> rfl
@[simp] theorem Core.writeG_conflicts (c : Core) (r : BitVec 5) (w : Word) : (c.writeG r w).conflicts = c.conflicts := by
  unfold Core.writeG; split <;> rfl
@[simp] theorem Core.writeG_banks (c : Core) (r : BitVec 5) (w : Word) : (c.writeG r w).banks = c.banks := by
  unfold Core.writeG; split <;> rfl
@[simp] theorem Core.writeG_divFree (c : Core) (r : BitVec 5) (w : Word) : (c.writeG r w).divFree = c.divFree := by
  unfold Core.writeG; split <;> rfl
@[simp] theorem Core.writeG_vq (c : Core) (r : BitVec 5) (w : Word) : (c.writeG r w).vq = c.vq := by
  unfold Core.writeG; split <;> rfl
@[simp] theorem Core.writeG_vfly (c : Core) (r : BitVec 5) (w : Word) : (c.writeG r w).vfly = c.vfly := by
  unfold Core.writeG; split <;> rfl
@[simp] theorem Core.writeG_replay (c : Core) (r : BitVec 5) (w : Word) : (c.writeG r w).replay = c.replay := by
  unfold Core.writeG; split <;> rfl
@[simp] theorem Core.writeG_mem (c : Core) (r : BitVec 5) (w : Word) : (c.writeG r w).mem = c.mem := by
  unfold Core.writeG; split <;> rfl
@[simp] theorem Core.writeG_memBad (c : Core) (r : BitVec 5) (w : Word) : (c.writeG r w).memBad = c.memBad := by
  unfold Core.writeG; split <;> rfl
@[simp] theorem Core.writeG_retention (c : Core) (r : BitVec 5) (w : Word) : (c.writeG r w).retention = c.retention := by
  unfold Core.writeG; split <;> rfl
@[simp] theorem Core.writeG_slice (c : Core) (r : BitVec 5) (w : Word) : (c.writeG r w).slice = c.slice := by
  unfold Core.writeG; split <;> rfl
@[simp] theorem Core.writeG_channels (c : Core) (r : BitVec 5) (w : Word) : (c.writeG r w).channels = c.channels := by
  unfold Core.writeG; split <;> rfl
@[simp] theorem Core.writeG_serial (c : Core) (r : BitVec 5) (w : Word) : (c.writeG r w).serial = c.serial := by
  unfold Core.writeG; split <;> rfl
@[simp] theorem Core.writeG_ordered (c : Core) (r : BitVec 5) (w : Word) : (c.writeG r w).ordered = c.ordered := by
  unfold Core.writeG; split <;> rfl
@[simp] theorem Core.writeG_pattern (c : Core) (r : BitVec 5) (w : Word) : (c.writeG r w).pattern = c.pattern := by
  unfold Core.writeG; split <;> rfl
@[simp] theorem Core.writeG_tickets (c : Core) (r : BitVec 5) (w : Word) : (c.writeG r w).tickets = c.tickets := by
  unfold Core.writeG; split <;> rfl
@[simp] theorem Core.writeG_atoms (c : Core) (r : BitVec 5) (w : Word) : (c.writeG r w).atoms = c.atoms := by
  unfold Core.writeG; split <;> rfl
@[simp] theorem Core.writeG_aseq (c : Core) (r : BitVec 5) (w : Word) : (c.writeG r w).aseq = c.aseq := by
  unfold Core.writeG; split <;> rfl
@[simp] theorem Core.writeG_aerr (c : Core) (r : BitVec 5) (w : Word) : (c.writeG r w).aerr = c.aerr := by
  unfold Core.writeG; split <;> rfl
@[simp] theorem Core.writeG_alane (c : Core) (r : BitVec 5) (w : Word) : (c.writeG r w).alane = c.alane := by
  unfold Core.writeG; split <;> rfl
@[simp] theorem Core.writeG_alaneAt (c : Core) (r : BitVec 5) (w : Word) : (c.writeG r w).alaneAt = c.alaneAt := by
  unfold Core.writeG; split <;> rfl
@[simp] theorem Core.writeG_alaneArm (c : Core) (r : BitVec 5) (w : Word) : (c.writeG r w).alaneArm = c.alaneArm := by
  unfold Core.writeG; split <;> rfl
@[simp] theorem Core.writeG_alaneOn (c : Core) (r : BitVec 5) (w : Word) : (c.writeG r w).alaneOn = c.alaneOn := by
  unfold Core.writeG; split <;> rfl
@[simp] theorem Core.writeG_target (c : Core) (r : BitVec 5) (w : Word) : (c.writeG r w).target = c.target := by
  unfold Core.writeG; split <;> rfl
@[simp] theorem Core.writeG_arrivals (c : Core) (r : BitVec 5) (w : Word) : (c.writeG r w).arrivals = c.arrivals := by
  unfold Core.writeG; split <;> rfl
@[simp] theorem Core.writeG_ring (c : Core) (r : BitVec 5) (w : Word) : (c.writeG r w).ring = c.ring := by
  unfold Core.writeG; split <;> rfl
@[simp] theorem Core.writeG_holders (c : Core) (r : BitVec 5) (w : Word) : (c.writeG r w).holders = c.holders := by
  unfold Core.writeG; split <;> rfl
@[simp] theorem Core.writeG_binding (c : Core) (r : BitVec 5) (w : Word) : (c.writeG r w).binding = c.binding := by
  unfold Core.writeG; split <;> rfl
@[simp] theorem Core.writeG_sparse (c : Core) (r : BitVec 5) (w : Word) : (c.writeG r w).sparse = c.sparse := by
  unfold Core.writeG; split <;> rfl
@[simp] theorem Core.writeG_transfers (c : Core) (r : BitVec 5) (w : Word) : (c.writeG r w).transfers = c.transfers := by
  unfold Core.writeG; split <;> rfl
@[simp] theorem Core.writeG_rcvd (c : Core) (r : BitVec 5) (w : Word) : (c.writeG r w).rcvd = c.rcvd := by
  unfold Core.writeG; split <;> rfl
@[simp] theorem Core.writeG_quiet (c : Core) (r : BitVec 5) (w : Word) : (c.writeG r w).quiet = c.quiet := by
  unfold Core.writeG; split <;> rfl
@[simp] theorem Core.writeG_fetchVa (c : Core) (r : BitVec 5) (w : Word) : (c.writeG r w).fetchVa = c.fetchVa := by
  unfold Core.writeG; split <;> rfl
@[simp] theorem Core.writeG_rendErr (c : Core) (r : BitVec 5) (w : Word) : (c.writeG r w).rendErr = c.rendErr := by
  unfold Core.writeG; split <;> rfl
@[simp] theorem Core.writeG_fatal (c : Core) (r : BitVec 5) (w : Word) : (c.writeG r w).fatal = c.fatal := by
  unfold Core.writeG; split <;> rfl
@[simp] theorem Core.writeG_zeroUntil (c : Core) (r : BitVec 5) (w : Word) : (c.writeG r w).zeroUntil = c.zeroUntil := by
  unfold Core.writeG; split <;> rfl

/-! ### Core.landG -/

@[simp] theorem Core.landG_ctx (c : Core) (now : Nat) (r : BitVec 5) (w : Word) : (c.landG now r w).ctx = c.ctx := by
  unfold Core.landG Core.writeG; split <;> rfl
@[simp] theorem Core.landG_lslot (c : Core) (now : Nat) (r : BitVec 5) (w : Word) : (c.landG now r w).lslot = c.lslot := by
  unfold Core.landG Core.writeG; split <;> rfl
@[simp] theorem Core.landG_group (c : Core) (now : Nat) (r : BitVec 5) (w : Word) : (c.landG now r w).group = c.group := by
  unfold Core.landG Core.writeG; split <;> rfl
@[simp] theorem Core.landG_member (c : Core) (now : Nat) (r : BitVec 5) (w : Word) : (c.landG now r w).member = c.member := by
  unfold Core.landG Core.writeG; split <;> rfl
@[simp] theorem Core.landG_lcore (c : Core) (now : Nat) (r : BitVec 5) (w : Word) : (c.landG now r w).lcore = c.lcore := by
  unfold Core.landG Core.writeG; split <;> rfl
@[simp] theorem Core.landG_tag (c : Core) (now : Nat) (r : BitVec 5) (w : Word) : (c.landG now r w).tag = c.tag := by
  unfold Core.landG Core.writeG; split <;> rfl
@[simp] theorem Core.landG_status (c : Core) (now : Nat) (r : BitVec 5) (w : Word) : (c.landG now r w).status = c.status := by
  unfold Core.landG Core.writeG; split <;> rfl
@[simp] theorem Core.landG_haltReq (c : Core) (now : Nat) (r : BitVec 5) (w : Word) : (c.landG now r w).haltReq = c.haltReq := by
  unfold Core.landG Core.writeG; split <;> rfl
@[simp] theorem Core.landG_signal (c : Core) (now : Nat) (r : BitVec 5) (w : Word) : (c.landG now r w).signal = c.signal := by
  unfold Core.landG Core.writeG; split <;> rfl
@[simp] theorem Core.landG_abort (c : Core) (now : Nat) (r : BitVec 5) (w : Word) : (c.landG now r w).abort = c.abort := by
  unfold Core.landG Core.writeG; split <;> rfl
@[simp] theorem Core.landG_dataErr (c : Core) (now : Nat) (r : BitVec 5) (w : Word) : (c.landG now r w).dataErr = c.dataErr := by
  unfold Core.landG Core.writeG; split <;> rfl
@[simp] theorem Core.landG_wait (c : Core) (now : Nat) (r : BitVec 5) (w : Word) : (c.landG now r w).wait = c.wait := by
  unfold Core.landG Core.writeG; split <;> rfl
@[simp] theorem Core.landG_held (c : Core) (now : Nat) (r : BitVec 5) (w : Word) : (c.landG now r w).held = c.held := by
  unfold Core.landG Core.writeG; split <;> rfl
@[simp] theorem Core.landG_readyAt (c : Core) (now : Nat) (r : BitVec 5) (w : Word) : (c.landG now r w).readyAt = c.readyAt := by
  unfold Core.landG Core.writeG; split <;> rfl
@[simp] theorem Core.landG_latch (c : Core) (now : Nat) (r : BitVec 5) (w : Word) : (c.landG now r w).latch = c.latch := by
  unfold Core.landG Core.writeG; split <;> rfl
@[simp] theorem Core.landG_flagsWord (c : Core) (now : Nat) (r : BitVec 5) (w : Word) : (c.landG now r w).flagsWord = c.flagsWord := by
  unfold Core.landG Core.writeG; split <;> rfl
@[simp] theorem Core.landG_link (c : Core) (now : Nat) (r : BitVec 5) (w : Word) : (c.landG now r w).link = c.link := by
  unfold Core.landG Core.writeG; split <;> rfl
@[simp] theorem Core.landG_pc (c : Core) (now : Nat) (r : BitVec 5) (w : Word) : (c.landG now r w).pc = c.pc := by
  unfold Core.landG Core.writeG; split <;> rfl
@[simp] theorem Core.landG_a (c : Core) (now : Nat) (r : BitVec 5) (w : Word) : (c.landG now r w).a = c.a := by
  unfold Core.landG Core.writeG; split <;> rfl
@[simp] theorem Core.landG_v (c : Core) (now : Nat) (r : BitVec 5) (w : Word) : (c.landG now r w).v = c.v := by
  unfold Core.landG Core.writeG; split <;> rfl
@[simp] theorem Core.landG_m (c : Core) (now : Nat) (r : BitVec 5) (w : Word) : (c.landG now r w).m = c.m := by
  unfold Core.landG Core.writeG; split <;> rfl
@[simp] theorem Core.landG_z (c : Core) (now : Nat) (r : BitVec 5) (w : Word) : (c.landG now r w).z = c.z := by
  unfold Core.landG Core.writeG; split <;> rfl
@[simp] theorem Core.landG_loops (c : Core) (now : Nat) (r : BitVec 5) (w : Word) : (c.landG now r w).loops = c.loops := by
  unfold Core.landG Core.writeG; split <;> rfl
@[simp] theorem Core.landG_aside (c : Core) (now : Nat) (r : BitVec 5) (w : Word) : (c.landG now r w).aside = c.aside := by
  unfold Core.landG Core.writeG; split <;> rfl
@[simp] theorem Core.landG_md (c : Core) (now : Nat) (r : BitVec 5) (w : Word) : (c.landG now r w).md = c.md := by
  unfold Core.landG Core.writeG; split <;> rfl
@[simp] theorem Core.landG_mdAt (c : Core) (now : Nat) (r : BitVec 5) (w : Word) : (c.landG now r w).mdAt = c.mdAt := by
  unfold Core.landG Core.writeG; split <;> rfl
@[simp] theorem Core.landG_frame (c : Core) (now : Nat) (r : BitVec 5) (w : Word) : (c.landG now r w).frame = c.frame := by
  unfold Core.landG Core.writeG; split <;> rfl
@[simp] theorem Core.landG_trapFeed (c : Core) (now : Nat) (r : BitVec 5) (w : Word) : (c.landG now r w).trapFeed = c.trapFeed := by
  unfold Core.landG Core.writeG; split <;> rfl
@[simp] theorem Core.landG_ops (c : Core) (now : Nat) (r : BitVec 5) (w : Word) : (c.landG now r w).ops = c.ops := by
  unfold Core.landG Core.writeG; split <;> rfl
@[simp] theorem Core.landG_handler (c : Core) (now : Nat) (r : BitVec 5) (w : Word) : (c.landG now r w).handler = c.handler := by
  unfold Core.landG Core.writeG; split <;> rfl
@[simp] theorem Core.landG_cause (c : Core) (now : Nat) (r : BitVec 5) (w : Word) : (c.landG now r w).cause = c.cause := by
  unfold Core.landG Core.writeG; split <;> rfl
@[simp] theorem Core.landG_tpc (c : Core) (now : Nat) (r : BitVec 5) (w : Word) : (c.landG now r w).tpc = c.tpc := by
  unfold Core.landG Core.writeG; split <;> rfl
@[simp] theorem Core.landG_tinfo (c : Core) (now : Nat) (r : BitVec 5) (w : Word) : (c.landG now r w).tinfo = c.tinfo := by
  unfold Core.landG Core.writeG; split <;> rfl
@[simp] theorem Core.landG_fpflags (c : Core) (now : Nat) (r : BitVec 5) (w : Word) : (c.landG now r w).fpflags = c.fpflags := by
  unfold Core.landG Core.writeG; split <;> rfl
@[simp] theorem Core.landG_rmode (c : Core) (now : Nat) (r : BitVec 5) (w : Word) : (c.landG now r w).rmode = c.rmode := by
  unfold Core.landG Core.writeG; split <;> rfl
@[simp] theorem Core.landG_bankhash (c : Core) (now : Nat) (r : BitVec 5) (w : Word) : (c.landG now r w).bankhash = c.bankhash := by
  unfold Core.landG Core.writeG; split <;> rfl
@[simp] theorem Core.landG_rehashAt (c : Core) (now : Nat) (r : BitVec 5) (w : Word) : (c.landG now r w).rehashAt = c.rehashAt := by
  unfold Core.landG Core.writeG; split <;> rfl
@[simp] theorem Core.landG_vshare (c : Core) (now : Nat) (r : BitVec 5) (w : Word) : (c.landG now r w).vshare = c.vshare := by
  unfold Core.landG Core.writeG; split <;> rfl
@[simp] theorem Core.landG_pass (c : Core) (now : Nat) (r : BitVec 5) (w : Word) : (c.landG now r w).pass = c.pass := by
  unfold Core.landG Core.writeG; split <;> rfl
@[simp] theorem Core.landG_winbind (c : Core) (now : Nat) (r : BitVec 5) (w : Word) : (c.landG now r w).winbind = c.winbind := by
  unfold Core.landG Core.writeG; split <;> rfl
@[simp] theorem Core.landG_barmember (c : Core) (now : Nat) (r : BitVec 5) (w : Word) : (c.landG now r w).barmember = c.barmember := by
  unfold Core.landG Core.writeG; split <;> rfl
@[simp] theorem Core.landG_gangstat (c : Core) (now : Nat) (r : BitVec 5) (w : Word) : (c.landG now r w).gangstat = c.gangstat := by
  unfold Core.landG Core.writeG; split <;> rfl
@[simp] theorem Core.landG_leader (c : Core) (now : Nat) (r : BitVec 5) (w : Word) : (c.landG now r w).leader = c.leader := by
  unfold Core.landG Core.writeG; split <;> rfl
@[simp] theorem Core.landG_resVregs (c : Core) (now : Nat) (r : BitVec 5) (w : Word) : (c.landG now r w).resVregs = c.resVregs := by
  unfold Core.landG Core.writeG; split <;> rfl
@[simp] theorem Core.landG_resBars (c : Core) (now : Nat) (r : BitVec 5) (w : Word) : (c.landG now r w).resBars = c.resBars := by
  unfold Core.landG Core.writeG; split <;> rfl
@[simp] theorem Core.landG_resLocal (c : Core) (now : Nat) (r : BitVec 5) (w : Word) : (c.landG now r w).resLocal = c.resLocal := by
  unfold Core.landG Core.writeG; split <;> rfl
@[simp] theorem Core.landG_resMacros (c : Core) (now : Nat) (r : BitVec 5) (w : Word) : (c.landG now r w).resMacros = c.resMacros := by
  unfold Core.landG Core.writeG; split <;> rfl
@[simp] theorem Core.landG_pickup (c : Core) (now : Nat) (r : BitVec 5) (w : Word) : (c.landG now r w).pickup = c.pickup := by
  unfold Core.landG Core.writeG; split <;> rfl
@[simp] theorem Core.landG_cycle0 (c : Core) (now : Nat) (r : BitVec 5) (w : Word) : (c.landG now r w).cycle0 = c.cycle0 := by
  unfold Core.landG Core.writeG; split <;> rfl
@[simp] theorem Core.landG_cycleAdd (c : Core) (now : Nat) (r : BitVec 5) (w : Word) : (c.landG now r w).cycleAdd = c.cycleAdd := by
  unfold Core.landG Core.writeG; split <;> rfl
@[simp] theorem Core.landG_step (c : Core) (now : Nat) (r : BitVec 5) (w : Word) : (c.landG now r w).step = c.step := by
  unfold Core.landG Core.writeG; split <;> rfl
@[simp] theorem Core.landG_xphase (c : Core) (now : Nat) (r : BitVec 5) (w : Word) : (c.landG now r w).xphase = c.xphase := by
  unfold Core.landG Core.writeG; split <;> rfl
@[simp] theorem Core.landG_chan (c : Core) (now : Nat) (r : BitVec 5) (w : Word) : (c.landG now r w).chan = c.chan := by
  unfold Core.landG Core.writeG; split <;> rfl
@[simp] theorem Core.landG_nextSlot (c : Core) (now : Nat) (r : BitVec 5) (w : Word) : (c.landG now r w).nextSlot = c.nextSlot := by
  unfold Core.landG Core.writeG; split <;> rfl
@[simp] theorem Core.landG_combstat (c : Core) (now : Nat) (r : BitVec 5) (w : Word) : (c.landG now r w).combstat = c.combstat := by
  unfold Core.landG Core.writeG; split <;> rfl
@[simp] theorem Core.landG_conflicts (c : Core) (now : Nat) (r : BitVec 5) (w : Word) : (c.landG now r w).conflicts = c.conflicts := by
  unfold Core.landG Core.writeG; split <;> rfl
@[simp] theorem Core.landG_banks (c : Core) (now : Nat) (r : BitVec 5) (w : Word) : (c.landG now r w).banks = c.banks := by
  unfold Core.landG Core.writeG; split <;> rfl
@[simp] theorem Core.landG_divFree (c : Core) (now : Nat) (r : BitVec 5) (w : Word) : (c.landG now r w).divFree = c.divFree := by
  unfold Core.landG Core.writeG; split <;> rfl
@[simp] theorem Core.landG_vq (c : Core) (now : Nat) (r : BitVec 5) (w : Word) : (c.landG now r w).vq = c.vq := by
  unfold Core.landG Core.writeG; split <;> rfl
@[simp] theorem Core.landG_vfly (c : Core) (now : Nat) (r : BitVec 5) (w : Word) : (c.landG now r w).vfly = c.vfly := by
  unfold Core.landG Core.writeG; split <;> rfl
@[simp] theorem Core.landG_replay (c : Core) (now : Nat) (r : BitVec 5) (w : Word) : (c.landG now r w).replay = c.replay := by
  unfold Core.landG Core.writeG; split <;> rfl
@[simp] theorem Core.landG_mem (c : Core) (now : Nat) (r : BitVec 5) (w : Word) : (c.landG now r w).mem = c.mem := by
  unfold Core.landG Core.writeG; split <;> rfl
@[simp] theorem Core.landG_memBad (c : Core) (now : Nat) (r : BitVec 5) (w : Word) : (c.landG now r w).memBad = c.memBad := by
  unfold Core.landG Core.writeG; split <;> rfl
@[simp] theorem Core.landG_retention (c : Core) (now : Nat) (r : BitVec 5) (w : Word) : (c.landG now r w).retention = c.retention := by
  unfold Core.landG Core.writeG; split <;> rfl
@[simp] theorem Core.landG_slice (c : Core) (now : Nat) (r : BitVec 5) (w : Word) : (c.landG now r w).slice = c.slice := by
  unfold Core.landG Core.writeG; split <;> rfl
@[simp] theorem Core.landG_channels (c : Core) (now : Nat) (r : BitVec 5) (w : Word) : (c.landG now r w).channels = c.channels := by
  unfold Core.landG Core.writeG; split <;> rfl
@[simp] theorem Core.landG_serial (c : Core) (now : Nat) (r : BitVec 5) (w : Word) : (c.landG now r w).serial = c.serial := by
  unfold Core.landG Core.writeG; split <;> rfl
@[simp] theorem Core.landG_ordered (c : Core) (now : Nat) (r : BitVec 5) (w : Word) : (c.landG now r w).ordered = c.ordered := by
  unfold Core.landG Core.writeG; split <;> rfl
@[simp] theorem Core.landG_pattern (c : Core) (now : Nat) (r : BitVec 5) (w : Word) : (c.landG now r w).pattern = c.pattern := by
  unfold Core.landG Core.writeG; split <;> rfl
@[simp] theorem Core.landG_tickets (c : Core) (now : Nat) (r : BitVec 5) (w : Word) : (c.landG now r w).tickets = c.tickets := by
  unfold Core.landG Core.writeG; split <;> rfl
@[simp] theorem Core.landG_atoms (c : Core) (now : Nat) (r : BitVec 5) (w : Word) : (c.landG now r w).atoms = c.atoms := by
  unfold Core.landG Core.writeG; split <;> rfl
@[simp] theorem Core.landG_aseq (c : Core) (now : Nat) (r : BitVec 5) (w : Word) : (c.landG now r w).aseq = c.aseq := by
  unfold Core.landG Core.writeG; split <;> rfl
@[simp] theorem Core.landG_aerr (c : Core) (now : Nat) (r : BitVec 5) (w : Word) : (c.landG now r w).aerr = c.aerr := by
  unfold Core.landG Core.writeG; split <;> rfl
@[simp] theorem Core.landG_alane (c : Core) (now : Nat) (r : BitVec 5) (w : Word) : (c.landG now r w).alane = c.alane := by
  unfold Core.landG Core.writeG; split <;> rfl
@[simp] theorem Core.landG_alaneAt (c : Core) (now : Nat) (r : BitVec 5) (w : Word) : (c.landG now r w).alaneAt = c.alaneAt := by
  unfold Core.landG Core.writeG; split <;> rfl
@[simp] theorem Core.landG_alaneArm (c : Core) (now : Nat) (r : BitVec 5) (w : Word) : (c.landG now r w).alaneArm = c.alaneArm := by
  unfold Core.landG Core.writeG; split <;> rfl
@[simp] theorem Core.landG_alaneOn (c : Core) (now : Nat) (r : BitVec 5) (w : Word) : (c.landG now r w).alaneOn = c.alaneOn := by
  unfold Core.landG Core.writeG; split <;> rfl
@[simp] theorem Core.landG_target (c : Core) (now : Nat) (r : BitVec 5) (w : Word) : (c.landG now r w).target = c.target := by
  unfold Core.landG Core.writeG; split <;> rfl
@[simp] theorem Core.landG_arrivals (c : Core) (now : Nat) (r : BitVec 5) (w : Word) : (c.landG now r w).arrivals = c.arrivals := by
  unfold Core.landG Core.writeG; split <;> rfl
@[simp] theorem Core.landG_ring (c : Core) (now : Nat) (r : BitVec 5) (w : Word) : (c.landG now r w).ring = c.ring := by
  unfold Core.landG Core.writeG; split <;> rfl
@[simp] theorem Core.landG_holders (c : Core) (now : Nat) (r : BitVec 5) (w : Word) : (c.landG now r w).holders = c.holders := by
  unfold Core.landG Core.writeG; split <;> rfl
@[simp] theorem Core.landG_binding (c : Core) (now : Nat) (r : BitVec 5) (w : Word) : (c.landG now r w).binding = c.binding := by
  unfold Core.landG Core.writeG; split <;> rfl
@[simp] theorem Core.landG_sparse (c : Core) (now : Nat) (r : BitVec 5) (w : Word) : (c.landG now r w).sparse = c.sparse := by
  unfold Core.landG Core.writeG; split <;> rfl
@[simp] theorem Core.landG_transfers (c : Core) (now : Nat) (r : BitVec 5) (w : Word) : (c.landG now r w).transfers = c.transfers := by
  unfold Core.landG Core.writeG; split <;> rfl
@[simp] theorem Core.landG_rcvd (c : Core) (now : Nat) (r : BitVec 5) (w : Word) : (c.landG now r w).rcvd = c.rcvd := by
  unfold Core.landG Core.writeG; split <;> rfl
@[simp] theorem Core.landG_quiet (c : Core) (now : Nat) (r : BitVec 5) (w : Word) : (c.landG now r w).quiet = c.quiet := by
  unfold Core.landG Core.writeG; split <;> rfl
@[simp] theorem Core.landG_fetchVa (c : Core) (now : Nat) (r : BitVec 5) (w : Word) : (c.landG now r w).fetchVa = c.fetchVa := by
  unfold Core.landG Core.writeG; split <;> rfl
@[simp] theorem Core.landG_rendErr (c : Core) (now : Nat) (r : BitVec 5) (w : Word) : (c.landG now r w).rendErr = c.rendErr := by
  unfold Core.landG Core.writeG; split <;> rfl
@[simp] theorem Core.landG_fatal (c : Core) (now : Nat) (r : BitVec 5) (w : Word) : (c.landG now r w).fatal = c.fatal := by
  unfold Core.landG Core.writeG; split <;> rfl
@[simp] theorem Core.landG_zeroUntil (c : Core) (now : Nat) (r : BitVec 5) (w : Word) : (c.landG now r w).zeroUntil = c.zeroUntil := by
  unfold Core.landG Core.writeG; split <;> rfl

/-! ### Core.queueG -/

@[simp] theorem Core.queueG_ctx (c : Core) (r : BitVec 5) (w : Word) (n : Nat) : (c.queueG r w n).ctx = c.ctx := rfl
@[simp] theorem Core.queueG_lslot (c : Core) (r : BitVec 5) (w : Word) (n : Nat) : (c.queueG r w n).lslot = c.lslot := rfl
@[simp] theorem Core.queueG_group (c : Core) (r : BitVec 5) (w : Word) (n : Nat) : (c.queueG r w n).group = c.group := rfl
@[simp] theorem Core.queueG_member (c : Core) (r : BitVec 5) (w : Word) (n : Nat) : (c.queueG r w n).member = c.member := rfl
@[simp] theorem Core.queueG_lcore (c : Core) (r : BitVec 5) (w : Word) (n : Nat) : (c.queueG r w n).lcore = c.lcore := rfl
@[simp] theorem Core.queueG_tag (c : Core) (r : BitVec 5) (w : Word) (n : Nat) : (c.queueG r w n).tag = c.tag := rfl
@[simp] theorem Core.queueG_status (c : Core) (r : BitVec 5) (w : Word) (n : Nat) : (c.queueG r w n).status = c.status := rfl
@[simp] theorem Core.queueG_haltReq (c : Core) (r : BitVec 5) (w : Word) (n : Nat) : (c.queueG r w n).haltReq = c.haltReq := rfl
@[simp] theorem Core.queueG_signal (c : Core) (r : BitVec 5) (w : Word) (n : Nat) : (c.queueG r w n).signal = c.signal := rfl
@[simp] theorem Core.queueG_abort (c : Core) (r : BitVec 5) (w : Word) (n : Nat) : (c.queueG r w n).abort = c.abort := rfl
@[simp] theorem Core.queueG_dataErr (c : Core) (r : BitVec 5) (w : Word) (n : Nat) : (c.queueG r w n).dataErr = c.dataErr := rfl
@[simp] theorem Core.queueG_wait (c : Core) (r : BitVec 5) (w : Word) (n : Nat) : (c.queueG r w n).wait = c.wait := rfl
@[simp] theorem Core.queueG_held (c : Core) (r : BitVec 5) (w : Word) (n : Nat) : (c.queueG r w n).held = c.held := rfl
@[simp] theorem Core.queueG_readyAt (c : Core) (r : BitVec 5) (w : Word) (n : Nat) : (c.queueG r w n).readyAt = c.readyAt := rfl
@[simp] theorem Core.queueG_latch (c : Core) (r : BitVec 5) (w : Word) (n : Nat) : (c.queueG r w n).latch = c.latch := rfl
@[simp] theorem Core.queueG_flagsWord (c : Core) (r : BitVec 5) (w : Word) (n : Nat) : (c.queueG r w n).flagsWord = c.flagsWord := rfl
@[simp] theorem Core.queueG_link (c : Core) (r : BitVec 5) (w : Word) (n : Nat) : (c.queueG r w n).link = c.link := rfl
@[simp] theorem Core.queueG_pc (c : Core) (r : BitVec 5) (w : Word) (n : Nat) : (c.queueG r w n).pc = c.pc := rfl
@[simp] theorem Core.queueG_g (c : Core) (r : BitVec 5) (w : Word) (n : Nat) : (c.queueG r w n).g = c.g := rfl
@[simp] theorem Core.queueG_a (c : Core) (r : BitVec 5) (w : Word) (n : Nat) : (c.queueG r w n).a = c.a := rfl
@[simp] theorem Core.queueG_v (c : Core) (r : BitVec 5) (w : Word) (n : Nat) : (c.queueG r w n).v = c.v := rfl
@[simp] theorem Core.queueG_m (c : Core) (r : BitVec 5) (w : Word) (n : Nat) : (c.queueG r w n).m = c.m := rfl
@[simp] theorem Core.queueG_z (c : Core) (r : BitVec 5) (w : Word) (n : Nat) : (c.queueG r w n).z = c.z := rfl
@[simp] theorem Core.queueG_loops (c : Core) (r : BitVec 5) (w : Word) (n : Nat) : (c.queueG r w n).loops = c.loops := rfl
@[simp] theorem Core.queueG_aside (c : Core) (r : BitVec 5) (w : Word) (n : Nat) : (c.queueG r w n).aside = c.aside := rfl
@[simp] theorem Core.queueG_md (c : Core) (r : BitVec 5) (w : Word) (n : Nat) : (c.queueG r w n).md = c.md := rfl
@[simp] theorem Core.queueG_mdAt (c : Core) (r : BitVec 5) (w : Word) (n : Nat) : (c.queueG r w n).mdAt = c.mdAt := rfl
@[simp] theorem Core.queueG_frame (c : Core) (r : BitVec 5) (w : Word) (n : Nat) : (c.queueG r w n).frame = c.frame := rfl
@[simp] theorem Core.queueG_trapFeed (c : Core) (r : BitVec 5) (w : Word) (n : Nat) : (c.queueG r w n).trapFeed = c.trapFeed := rfl
@[simp] theorem Core.queueG_ops (c : Core) (r : BitVec 5) (w : Word) (n : Nat) : (c.queueG r w n).ops = c.ops := rfl
@[simp] theorem Core.queueG_handler (c : Core) (r : BitVec 5) (w : Word) (n : Nat) : (c.queueG r w n).handler = c.handler := rfl
@[simp] theorem Core.queueG_cause (c : Core) (r : BitVec 5) (w : Word) (n : Nat) : (c.queueG r w n).cause = c.cause := rfl
@[simp] theorem Core.queueG_tpc (c : Core) (r : BitVec 5) (w : Word) (n : Nat) : (c.queueG r w n).tpc = c.tpc := rfl
@[simp] theorem Core.queueG_tinfo (c : Core) (r : BitVec 5) (w : Word) (n : Nat) : (c.queueG r w n).tinfo = c.tinfo := rfl
@[simp] theorem Core.queueG_fpflags (c : Core) (r : BitVec 5) (w : Word) (n : Nat) : (c.queueG r w n).fpflags = c.fpflags := rfl
@[simp] theorem Core.queueG_rmode (c : Core) (r : BitVec 5) (w : Word) (n : Nat) : (c.queueG r w n).rmode = c.rmode := rfl
@[simp] theorem Core.queueG_bankhash (c : Core) (r : BitVec 5) (w : Word) (n : Nat) : (c.queueG r w n).bankhash = c.bankhash := rfl
@[simp] theorem Core.queueG_rehashAt (c : Core) (r : BitVec 5) (w : Word) (n : Nat) : (c.queueG r w n).rehashAt = c.rehashAt := rfl
@[simp] theorem Core.queueG_vshare (c : Core) (r : BitVec 5) (w : Word) (n : Nat) : (c.queueG r w n).vshare = c.vshare := rfl
@[simp] theorem Core.queueG_pass (c : Core) (r : BitVec 5) (w : Word) (n : Nat) : (c.queueG r w n).pass = c.pass := rfl
@[simp] theorem Core.queueG_winbind (c : Core) (r : BitVec 5) (w : Word) (n : Nat) : (c.queueG r w n).winbind = c.winbind := rfl
@[simp] theorem Core.queueG_barmember (c : Core) (r : BitVec 5) (w : Word) (n : Nat) : (c.queueG r w n).barmember = c.barmember := rfl
@[simp] theorem Core.queueG_gangstat (c : Core) (r : BitVec 5) (w : Word) (n : Nat) : (c.queueG r w n).gangstat = c.gangstat := rfl
@[simp] theorem Core.queueG_leader (c : Core) (r : BitVec 5) (w : Word) (n : Nat) : (c.queueG r w n).leader = c.leader := rfl
@[simp] theorem Core.queueG_resVregs (c : Core) (r : BitVec 5) (w : Word) (n : Nat) : (c.queueG r w n).resVregs = c.resVregs := rfl
@[simp] theorem Core.queueG_resBars (c : Core) (r : BitVec 5) (w : Word) (n : Nat) : (c.queueG r w n).resBars = c.resBars := rfl
@[simp] theorem Core.queueG_resLocal (c : Core) (r : BitVec 5) (w : Word) (n : Nat) : (c.queueG r w n).resLocal = c.resLocal := rfl
@[simp] theorem Core.queueG_resMacros (c : Core) (r : BitVec 5) (w : Word) (n : Nat) : (c.queueG r w n).resMacros = c.resMacros := rfl
@[simp] theorem Core.queueG_pickup (c : Core) (r : BitVec 5) (w : Word) (n : Nat) : (c.queueG r w n).pickup = c.pickup := rfl
@[simp] theorem Core.queueG_cycle0 (c : Core) (r : BitVec 5) (w : Word) (n : Nat) : (c.queueG r w n).cycle0 = c.cycle0 := rfl
@[simp] theorem Core.queueG_cycleAdd (c : Core) (r : BitVec 5) (w : Word) (n : Nat) : (c.queueG r w n).cycleAdd = c.cycleAdd := rfl
@[simp] theorem Core.queueG_step (c : Core) (r : BitVec 5) (w : Word) (n : Nat) : (c.queueG r w n).step = c.step := rfl
@[simp] theorem Core.queueG_xphase (c : Core) (r : BitVec 5) (w : Word) (n : Nat) : (c.queueG r w n).xphase = c.xphase := rfl
@[simp] theorem Core.queueG_chan (c : Core) (r : BitVec 5) (w : Word) (n : Nat) : (c.queueG r w n).chan = c.chan := rfl
@[simp] theorem Core.queueG_nextSlot (c : Core) (r : BitVec 5) (w : Word) (n : Nat) : (c.queueG r w n).nextSlot = c.nextSlot := rfl
@[simp] theorem Core.queueG_combstat (c : Core) (r : BitVec 5) (w : Word) (n : Nat) : (c.queueG r w n).combstat = c.combstat := rfl
@[simp] theorem Core.queueG_conflicts (c : Core) (r : BitVec 5) (w : Word) (n : Nat) : (c.queueG r w n).conflicts = c.conflicts := rfl
@[simp] theorem Core.queueG_banks (c : Core) (r : BitVec 5) (w : Word) (n : Nat) : (c.queueG r w n).banks = c.banks := rfl
@[simp] theorem Core.queueG_divFree (c : Core) (r : BitVec 5) (w : Word) (n : Nat) : (c.queueG r w n).divFree = c.divFree := rfl
@[simp] theorem Core.queueG_vq (c : Core) (r : BitVec 5) (w : Word) (n : Nat) : (c.queueG r w n).vq = c.vq := rfl
@[simp] theorem Core.queueG_vfly (c : Core) (r : BitVec 5) (w : Word) (n : Nat) : (c.queueG r w n).vfly = c.vfly := rfl
@[simp] theorem Core.queueG_replay (c : Core) (r : BitVec 5) (w : Word) (n : Nat) : (c.queueG r w n).replay = c.replay := rfl
@[simp] theorem Core.queueG_mem (c : Core) (r : BitVec 5) (w : Word) (n : Nat) : (c.queueG r w n).mem = c.mem := rfl
@[simp] theorem Core.queueG_memBad (c : Core) (r : BitVec 5) (w : Word) (n : Nat) : (c.queueG r w n).memBad = c.memBad := rfl
@[simp] theorem Core.queueG_retention (c : Core) (r : BitVec 5) (w : Word) (n : Nat) : (c.queueG r w n).retention = c.retention := rfl
@[simp] theorem Core.queueG_slice (c : Core) (r : BitVec 5) (w : Word) (n : Nat) : (c.queueG r w n).slice = c.slice := rfl
@[simp] theorem Core.queueG_channels (c : Core) (r : BitVec 5) (w : Word) (n : Nat) : (c.queueG r w n).channels = c.channels := rfl
@[simp] theorem Core.queueG_serial (c : Core) (r : BitVec 5) (w : Word) (n : Nat) : (c.queueG r w n).serial = c.serial := rfl
@[simp] theorem Core.queueG_ordered (c : Core) (r : BitVec 5) (w : Word) (n : Nat) : (c.queueG r w n).ordered = c.ordered := rfl
@[simp] theorem Core.queueG_pattern (c : Core) (r : BitVec 5) (w : Word) (n : Nat) : (c.queueG r w n).pattern = c.pattern := rfl
@[simp] theorem Core.queueG_tickets (c : Core) (r : BitVec 5) (w : Word) (n : Nat) : (c.queueG r w n).tickets = c.tickets := rfl
@[simp] theorem Core.queueG_atoms (c : Core) (r : BitVec 5) (w : Word) (n : Nat) : (c.queueG r w n).atoms = c.atoms := rfl
@[simp] theorem Core.queueG_aseq (c : Core) (r : BitVec 5) (w : Word) (n : Nat) : (c.queueG r w n).aseq = c.aseq := rfl
@[simp] theorem Core.queueG_aerr (c : Core) (r : BitVec 5) (w : Word) (n : Nat) : (c.queueG r w n).aerr = c.aerr := rfl
@[simp] theorem Core.queueG_alane (c : Core) (r : BitVec 5) (w : Word) (n : Nat) : (c.queueG r w n).alane = c.alane := rfl
@[simp] theorem Core.queueG_alaneAt (c : Core) (r : BitVec 5) (w : Word) (n : Nat) : (c.queueG r w n).alaneAt = c.alaneAt := rfl
@[simp] theorem Core.queueG_alaneArm (c : Core) (r : BitVec 5) (w : Word) (n : Nat) : (c.queueG r w n).alaneArm = c.alaneArm := rfl
@[simp] theorem Core.queueG_alaneOn (c : Core) (r : BitVec 5) (w : Word) (n : Nat) : (c.queueG r w n).alaneOn = c.alaneOn := rfl
@[simp] theorem Core.queueG_target (c : Core) (r : BitVec 5) (w : Word) (n : Nat) : (c.queueG r w n).target = c.target := rfl
@[simp] theorem Core.queueG_arrivals (c : Core) (r : BitVec 5) (w : Word) (n : Nat) : (c.queueG r w n).arrivals = c.arrivals := rfl
@[simp] theorem Core.queueG_ring (c : Core) (r : BitVec 5) (w : Word) (n : Nat) : (c.queueG r w n).ring = c.ring := rfl
@[simp] theorem Core.queueG_holders (c : Core) (r : BitVec 5) (w : Word) (n : Nat) : (c.queueG r w n).holders = c.holders := rfl
@[simp] theorem Core.queueG_binding (c : Core) (r : BitVec 5) (w : Word) (n : Nat) : (c.queueG r w n).binding = c.binding := rfl
@[simp] theorem Core.queueG_sparse (c : Core) (r : BitVec 5) (w : Word) (n : Nat) : (c.queueG r w n).sparse = c.sparse := rfl
@[simp] theorem Core.queueG_transfers (c : Core) (r : BitVec 5) (w : Word) (n : Nat) : (c.queueG r w n).transfers = c.transfers := rfl
@[simp] theorem Core.queueG_rcvd (c : Core) (r : BitVec 5) (w : Word) (n : Nat) : (c.queueG r w n).rcvd = c.rcvd := rfl
@[simp] theorem Core.queueG_quiet (c : Core) (r : BitVec 5) (w : Word) (n : Nat) : (c.queueG r w n).quiet = c.quiet := rfl
@[simp] theorem Core.queueG_fetchVa (c : Core) (r : BitVec 5) (w : Word) (n : Nat) : (c.queueG r w n).fetchVa = c.fetchVa := rfl
@[simp] theorem Core.queueG_rendErr (c : Core) (r : BitVec 5) (w : Word) (n : Nat) : (c.queueG r w n).rendErr = c.rendErr := rfl
@[simp] theorem Core.queueG_fatal (c : Core) (r : BitVec 5) (w : Word) (n : Nat) : (c.queueG r w n).fatal = c.fatal := rfl
@[simp] theorem Core.queueG_zeroUntil (c : Core) (r : BitVec 5) (w : Word) (n : Nat) : (c.queueG r w n).zeroUntil = c.zeroUntil := rfl

/-! ### Core.writeA -/

@[simp] theorem Core.writeA_ctx (c : Core) (r : BitVec 3) (p : Path) : (c.writeA r p).ctx = c.ctx := rfl
@[simp] theorem Core.writeA_lslot (c : Core) (r : BitVec 3) (p : Path) : (c.writeA r p).lslot = c.lslot := rfl
@[simp] theorem Core.writeA_group (c : Core) (r : BitVec 3) (p : Path) : (c.writeA r p).group = c.group := rfl
@[simp] theorem Core.writeA_member (c : Core) (r : BitVec 3) (p : Path) : (c.writeA r p).member = c.member := rfl
@[simp] theorem Core.writeA_lcore (c : Core) (r : BitVec 3) (p : Path) : (c.writeA r p).lcore = c.lcore := rfl
@[simp] theorem Core.writeA_tag (c : Core) (r : BitVec 3) (p : Path) : (c.writeA r p).tag = c.tag := rfl
@[simp] theorem Core.writeA_status (c : Core) (r : BitVec 3) (p : Path) : (c.writeA r p).status = c.status := rfl
@[simp] theorem Core.writeA_haltReq (c : Core) (r : BitVec 3) (p : Path) : (c.writeA r p).haltReq = c.haltReq := rfl
@[simp] theorem Core.writeA_signal (c : Core) (r : BitVec 3) (p : Path) : (c.writeA r p).signal = c.signal := rfl
@[simp] theorem Core.writeA_abort (c : Core) (r : BitVec 3) (p : Path) : (c.writeA r p).abort = c.abort := rfl
@[simp] theorem Core.writeA_dataErr (c : Core) (r : BitVec 3) (p : Path) : (c.writeA r p).dataErr = c.dataErr := rfl
@[simp] theorem Core.writeA_wait (c : Core) (r : BitVec 3) (p : Path) : (c.writeA r p).wait = c.wait := rfl
@[simp] theorem Core.writeA_held (c : Core) (r : BitVec 3) (p : Path) : (c.writeA r p).held = c.held := rfl
@[simp] theorem Core.writeA_readyAt (c : Core) (r : BitVec 3) (p : Path) : (c.writeA r p).readyAt = c.readyAt := rfl
@[simp] theorem Core.writeA_latch (c : Core) (r : BitVec 3) (p : Path) : (c.writeA r p).latch = c.latch := rfl
@[simp] theorem Core.writeA_flagsWord (c : Core) (r : BitVec 3) (p : Path) : (c.writeA r p).flagsWord = c.flagsWord := rfl
@[simp] theorem Core.writeA_link (c : Core) (r : BitVec 3) (p : Path) : (c.writeA r p).link = c.link := rfl
@[simp] theorem Core.writeA_pc (c : Core) (r : BitVec 3) (p : Path) : (c.writeA r p).pc = c.pc := rfl
@[simp] theorem Core.writeA_g (c : Core) (r : BitVec 3) (p : Path) : (c.writeA r p).g = c.g := rfl
@[simp] theorem Core.writeA_v (c : Core) (r : BitVec 3) (p : Path) : (c.writeA r p).v = c.v := rfl
@[simp] theorem Core.writeA_m (c : Core) (r : BitVec 3) (p : Path) : (c.writeA r p).m = c.m := rfl
@[simp] theorem Core.writeA_z (c : Core) (r : BitVec 3) (p : Path) : (c.writeA r p).z = c.z := rfl
@[simp] theorem Core.writeA_pend (c : Core) (r : BitVec 3) (p : Path) : (c.writeA r p).pend = c.pend := rfl
@[simp] theorem Core.writeA_loops (c : Core) (r : BitVec 3) (p : Path) : (c.writeA r p).loops = c.loops := rfl
@[simp] theorem Core.writeA_aside (c : Core) (r : BitVec 3) (p : Path) : (c.writeA r p).aside = c.aside := rfl
@[simp] theorem Core.writeA_md (c : Core) (r : BitVec 3) (p : Path) : (c.writeA r p).md = c.md := rfl
@[simp] theorem Core.writeA_mdAt (c : Core) (r : BitVec 3) (p : Path) : (c.writeA r p).mdAt = c.mdAt := rfl
@[simp] theorem Core.writeA_frame (c : Core) (r : BitVec 3) (p : Path) : (c.writeA r p).frame = c.frame := rfl
@[simp] theorem Core.writeA_trapFeed (c : Core) (r : BitVec 3) (p : Path) : (c.writeA r p).trapFeed = c.trapFeed := rfl
@[simp] theorem Core.writeA_ops (c : Core) (r : BitVec 3) (p : Path) : (c.writeA r p).ops = c.ops := rfl
@[simp] theorem Core.writeA_handler (c : Core) (r : BitVec 3) (p : Path) : (c.writeA r p).handler = c.handler := rfl
@[simp] theorem Core.writeA_cause (c : Core) (r : BitVec 3) (p : Path) : (c.writeA r p).cause = c.cause := rfl
@[simp] theorem Core.writeA_tpc (c : Core) (r : BitVec 3) (p : Path) : (c.writeA r p).tpc = c.tpc := rfl
@[simp] theorem Core.writeA_tinfo (c : Core) (r : BitVec 3) (p : Path) : (c.writeA r p).tinfo = c.tinfo := rfl
@[simp] theorem Core.writeA_fpflags (c : Core) (r : BitVec 3) (p : Path) : (c.writeA r p).fpflags = c.fpflags := rfl
@[simp] theorem Core.writeA_rmode (c : Core) (r : BitVec 3) (p : Path) : (c.writeA r p).rmode = c.rmode := rfl
@[simp] theorem Core.writeA_bankhash (c : Core) (r : BitVec 3) (p : Path) : (c.writeA r p).bankhash = c.bankhash := rfl
@[simp] theorem Core.writeA_rehashAt (c : Core) (r : BitVec 3) (p : Path) : (c.writeA r p).rehashAt = c.rehashAt := rfl
@[simp] theorem Core.writeA_vshare (c : Core) (r : BitVec 3) (p : Path) : (c.writeA r p).vshare = c.vshare := rfl
@[simp] theorem Core.writeA_pass (c : Core) (r : BitVec 3) (p : Path) : (c.writeA r p).pass = c.pass := rfl
@[simp] theorem Core.writeA_winbind (c : Core) (r : BitVec 3) (p : Path) : (c.writeA r p).winbind = c.winbind := rfl
@[simp] theorem Core.writeA_barmember (c : Core) (r : BitVec 3) (p : Path) : (c.writeA r p).barmember = c.barmember := rfl
@[simp] theorem Core.writeA_gangstat (c : Core) (r : BitVec 3) (p : Path) : (c.writeA r p).gangstat = c.gangstat := rfl
@[simp] theorem Core.writeA_leader (c : Core) (r : BitVec 3) (p : Path) : (c.writeA r p).leader = c.leader := rfl
@[simp] theorem Core.writeA_resVregs (c : Core) (r : BitVec 3) (p : Path) : (c.writeA r p).resVregs = c.resVregs := rfl
@[simp] theorem Core.writeA_resBars (c : Core) (r : BitVec 3) (p : Path) : (c.writeA r p).resBars = c.resBars := rfl
@[simp] theorem Core.writeA_resLocal (c : Core) (r : BitVec 3) (p : Path) : (c.writeA r p).resLocal = c.resLocal := rfl
@[simp] theorem Core.writeA_resMacros (c : Core) (r : BitVec 3) (p : Path) : (c.writeA r p).resMacros = c.resMacros := rfl
@[simp] theorem Core.writeA_pickup (c : Core) (r : BitVec 3) (p : Path) : (c.writeA r p).pickup = c.pickup := rfl
@[simp] theorem Core.writeA_cycle0 (c : Core) (r : BitVec 3) (p : Path) : (c.writeA r p).cycle0 = c.cycle0 := rfl
@[simp] theorem Core.writeA_cycleAdd (c : Core) (r : BitVec 3) (p : Path) : (c.writeA r p).cycleAdd = c.cycleAdd := rfl
@[simp] theorem Core.writeA_step (c : Core) (r : BitVec 3) (p : Path) : (c.writeA r p).step = c.step := rfl
@[simp] theorem Core.writeA_xphase (c : Core) (r : BitVec 3) (p : Path) : (c.writeA r p).xphase = c.xphase := rfl
@[simp] theorem Core.writeA_chan (c : Core) (r : BitVec 3) (p : Path) : (c.writeA r p).chan = c.chan := rfl
@[simp] theorem Core.writeA_nextSlot (c : Core) (r : BitVec 3) (p : Path) : (c.writeA r p).nextSlot = c.nextSlot := rfl
@[simp] theorem Core.writeA_combstat (c : Core) (r : BitVec 3) (p : Path) : (c.writeA r p).combstat = c.combstat := rfl
@[simp] theorem Core.writeA_conflicts (c : Core) (r : BitVec 3) (p : Path) : (c.writeA r p).conflicts = c.conflicts := rfl
@[simp] theorem Core.writeA_banks (c : Core) (r : BitVec 3) (p : Path) : (c.writeA r p).banks = c.banks := rfl
@[simp] theorem Core.writeA_divFree (c : Core) (r : BitVec 3) (p : Path) : (c.writeA r p).divFree = c.divFree := rfl
@[simp] theorem Core.writeA_vq (c : Core) (r : BitVec 3) (p : Path) : (c.writeA r p).vq = c.vq := rfl
@[simp] theorem Core.writeA_vfly (c : Core) (r : BitVec 3) (p : Path) : (c.writeA r p).vfly = c.vfly := rfl
@[simp] theorem Core.writeA_replay (c : Core) (r : BitVec 3) (p : Path) : (c.writeA r p).replay = c.replay := rfl
@[simp] theorem Core.writeA_mem (c : Core) (r : BitVec 3) (p : Path) : (c.writeA r p).mem = c.mem := rfl
@[simp] theorem Core.writeA_memBad (c : Core) (r : BitVec 3) (p : Path) : (c.writeA r p).memBad = c.memBad := rfl
@[simp] theorem Core.writeA_retention (c : Core) (r : BitVec 3) (p : Path) : (c.writeA r p).retention = c.retention := rfl
@[simp] theorem Core.writeA_slice (c : Core) (r : BitVec 3) (p : Path) : (c.writeA r p).slice = c.slice := rfl
@[simp] theorem Core.writeA_channels (c : Core) (r : BitVec 3) (p : Path) : (c.writeA r p).channels = c.channels := rfl
@[simp] theorem Core.writeA_serial (c : Core) (r : BitVec 3) (p : Path) : (c.writeA r p).serial = c.serial := rfl
@[simp] theorem Core.writeA_ordered (c : Core) (r : BitVec 3) (p : Path) : (c.writeA r p).ordered = c.ordered := rfl
@[simp] theorem Core.writeA_pattern (c : Core) (r : BitVec 3) (p : Path) : (c.writeA r p).pattern = c.pattern := rfl
@[simp] theorem Core.writeA_tickets (c : Core) (r : BitVec 3) (p : Path) : (c.writeA r p).tickets = c.tickets := rfl
@[simp] theorem Core.writeA_atoms (c : Core) (r : BitVec 3) (p : Path) : (c.writeA r p).atoms = c.atoms := rfl
@[simp] theorem Core.writeA_aseq (c : Core) (r : BitVec 3) (p : Path) : (c.writeA r p).aseq = c.aseq := rfl
@[simp] theorem Core.writeA_aerr (c : Core) (r : BitVec 3) (p : Path) : (c.writeA r p).aerr = c.aerr := rfl
@[simp] theorem Core.writeA_alane (c : Core) (r : BitVec 3) (p : Path) : (c.writeA r p).alane = c.alane := rfl
@[simp] theorem Core.writeA_alaneAt (c : Core) (r : BitVec 3) (p : Path) : (c.writeA r p).alaneAt = c.alaneAt := rfl
@[simp] theorem Core.writeA_alaneArm (c : Core) (r : BitVec 3) (p : Path) : (c.writeA r p).alaneArm = c.alaneArm := rfl
@[simp] theorem Core.writeA_alaneOn (c : Core) (r : BitVec 3) (p : Path) : (c.writeA r p).alaneOn = c.alaneOn := rfl
@[simp] theorem Core.writeA_target (c : Core) (r : BitVec 3) (p : Path) : (c.writeA r p).target = c.target := rfl
@[simp] theorem Core.writeA_arrivals (c : Core) (r : BitVec 3) (p : Path) : (c.writeA r p).arrivals = c.arrivals := rfl
@[simp] theorem Core.writeA_ring (c : Core) (r : BitVec 3) (p : Path) : (c.writeA r p).ring = c.ring := rfl
@[simp] theorem Core.writeA_holders (c : Core) (r : BitVec 3) (p : Path) : (c.writeA r p).holders = c.holders := rfl
@[simp] theorem Core.writeA_binding (c : Core) (r : BitVec 3) (p : Path) : (c.writeA r p).binding = c.binding := rfl
@[simp] theorem Core.writeA_sparse (c : Core) (r : BitVec 3) (p : Path) : (c.writeA r p).sparse = c.sparse := rfl
@[simp] theorem Core.writeA_transfers (c : Core) (r : BitVec 3) (p : Path) : (c.writeA r p).transfers = c.transfers := rfl
@[simp] theorem Core.writeA_rcvd (c : Core) (r : BitVec 3) (p : Path) : (c.writeA r p).rcvd = c.rcvd := rfl
@[simp] theorem Core.writeA_quiet (c : Core) (r : BitVec 3) (p : Path) : (c.writeA r p).quiet = c.quiet := rfl
@[simp] theorem Core.writeA_fetchVa (c : Core) (r : BitVec 3) (p : Path) : (c.writeA r p).fetchVa = c.fetchVa := rfl
@[simp] theorem Core.writeA_rendErr (c : Core) (r : BitVec 3) (p : Path) : (c.writeA r p).rendErr = c.rendErr := rfl
@[simp] theorem Core.writeA_fatal (c : Core) (r : BitVec 3) (p : Path) : (c.writeA r p).fatal = c.fatal := rfl
@[simp] theorem Core.writeA_zeroUntil (c : Core) (r : BitVec 3) (p : Path) : (c.writeA r p).zeroUntil = c.zeroUntil := rfl

/-! ### Core.writeV -/

@[simp] theorem Core.writeV_ctx (c : Core) (r : BitVec 5) (x y : Vec) : (c.writeV r x y).ctx = c.ctx := rfl
@[simp] theorem Core.writeV_lslot (c : Core) (r : BitVec 5) (x y : Vec) : (c.writeV r x y).lslot = c.lslot := rfl
@[simp] theorem Core.writeV_group (c : Core) (r : BitVec 5) (x y : Vec) : (c.writeV r x y).group = c.group := rfl
@[simp] theorem Core.writeV_member (c : Core) (r : BitVec 5) (x y : Vec) : (c.writeV r x y).member = c.member := rfl
@[simp] theorem Core.writeV_lcore (c : Core) (r : BitVec 5) (x y : Vec) : (c.writeV r x y).lcore = c.lcore := rfl
@[simp] theorem Core.writeV_tag (c : Core) (r : BitVec 5) (x y : Vec) : (c.writeV r x y).tag = c.tag := rfl
@[simp] theorem Core.writeV_status (c : Core) (r : BitVec 5) (x y : Vec) : (c.writeV r x y).status = c.status := rfl
@[simp] theorem Core.writeV_haltReq (c : Core) (r : BitVec 5) (x y : Vec) : (c.writeV r x y).haltReq = c.haltReq := rfl
@[simp] theorem Core.writeV_signal (c : Core) (r : BitVec 5) (x y : Vec) : (c.writeV r x y).signal = c.signal := rfl
@[simp] theorem Core.writeV_abort (c : Core) (r : BitVec 5) (x y : Vec) : (c.writeV r x y).abort = c.abort := rfl
@[simp] theorem Core.writeV_dataErr (c : Core) (r : BitVec 5) (x y : Vec) : (c.writeV r x y).dataErr = c.dataErr := rfl
@[simp] theorem Core.writeV_wait (c : Core) (r : BitVec 5) (x y : Vec) : (c.writeV r x y).wait = c.wait := rfl
@[simp] theorem Core.writeV_held (c : Core) (r : BitVec 5) (x y : Vec) : (c.writeV r x y).held = c.held := rfl
@[simp] theorem Core.writeV_readyAt (c : Core) (r : BitVec 5) (x y : Vec) : (c.writeV r x y).readyAt = c.readyAt := rfl
@[simp] theorem Core.writeV_latch (c : Core) (r : BitVec 5) (x y : Vec) : (c.writeV r x y).latch = c.latch := rfl
@[simp] theorem Core.writeV_flagsWord (c : Core) (r : BitVec 5) (x y : Vec) : (c.writeV r x y).flagsWord = c.flagsWord := rfl
@[simp] theorem Core.writeV_link (c : Core) (r : BitVec 5) (x y : Vec) : (c.writeV r x y).link = c.link := rfl
@[simp] theorem Core.writeV_pc (c : Core) (r : BitVec 5) (x y : Vec) : (c.writeV r x y).pc = c.pc := rfl
@[simp] theorem Core.writeV_g (c : Core) (r : BitVec 5) (x y : Vec) : (c.writeV r x y).g = c.g := rfl
@[simp] theorem Core.writeV_a (c : Core) (r : BitVec 5) (x y : Vec) : (c.writeV r x y).a = c.a := rfl
@[simp] theorem Core.writeV_m (c : Core) (r : BitVec 5) (x y : Vec) : (c.writeV r x y).m = c.m := rfl
@[simp] theorem Core.writeV_z (c : Core) (r : BitVec 5) (x y : Vec) : (c.writeV r x y).z = c.z := rfl
@[simp] theorem Core.writeV_pend (c : Core) (r : BitVec 5) (x y : Vec) : (c.writeV r x y).pend = c.pend := rfl
@[simp] theorem Core.writeV_loops (c : Core) (r : BitVec 5) (x y : Vec) : (c.writeV r x y).loops = c.loops := rfl
@[simp] theorem Core.writeV_aside (c : Core) (r : BitVec 5) (x y : Vec) : (c.writeV r x y).aside = c.aside := rfl
@[simp] theorem Core.writeV_md (c : Core) (r : BitVec 5) (x y : Vec) : (c.writeV r x y).md = c.md := rfl
@[simp] theorem Core.writeV_mdAt (c : Core) (r : BitVec 5) (x y : Vec) : (c.writeV r x y).mdAt = c.mdAt := rfl
@[simp] theorem Core.writeV_frame (c : Core) (r : BitVec 5) (x y : Vec) : (c.writeV r x y).frame = c.frame := rfl
@[simp] theorem Core.writeV_trapFeed (c : Core) (r : BitVec 5) (x y : Vec) : (c.writeV r x y).trapFeed = c.trapFeed := rfl
@[simp] theorem Core.writeV_ops (c : Core) (r : BitVec 5) (x y : Vec) : (c.writeV r x y).ops = c.ops := rfl
@[simp] theorem Core.writeV_handler (c : Core) (r : BitVec 5) (x y : Vec) : (c.writeV r x y).handler = c.handler := rfl
@[simp] theorem Core.writeV_cause (c : Core) (r : BitVec 5) (x y : Vec) : (c.writeV r x y).cause = c.cause := rfl
@[simp] theorem Core.writeV_tpc (c : Core) (r : BitVec 5) (x y : Vec) : (c.writeV r x y).tpc = c.tpc := rfl
@[simp] theorem Core.writeV_tinfo (c : Core) (r : BitVec 5) (x y : Vec) : (c.writeV r x y).tinfo = c.tinfo := rfl
@[simp] theorem Core.writeV_fpflags (c : Core) (r : BitVec 5) (x y : Vec) : (c.writeV r x y).fpflags = c.fpflags := rfl
@[simp] theorem Core.writeV_rmode (c : Core) (r : BitVec 5) (x y : Vec) : (c.writeV r x y).rmode = c.rmode := rfl
@[simp] theorem Core.writeV_bankhash (c : Core) (r : BitVec 5) (x y : Vec) : (c.writeV r x y).bankhash = c.bankhash := rfl
@[simp] theorem Core.writeV_rehashAt (c : Core) (r : BitVec 5) (x y : Vec) : (c.writeV r x y).rehashAt = c.rehashAt := rfl
@[simp] theorem Core.writeV_vshare (c : Core) (r : BitVec 5) (x y : Vec) : (c.writeV r x y).vshare = c.vshare := rfl
@[simp] theorem Core.writeV_pass (c : Core) (r : BitVec 5) (x y : Vec) : (c.writeV r x y).pass = c.pass := rfl
@[simp] theorem Core.writeV_winbind (c : Core) (r : BitVec 5) (x y : Vec) : (c.writeV r x y).winbind = c.winbind := rfl
@[simp] theorem Core.writeV_barmember (c : Core) (r : BitVec 5) (x y : Vec) : (c.writeV r x y).barmember = c.barmember := rfl
@[simp] theorem Core.writeV_gangstat (c : Core) (r : BitVec 5) (x y : Vec) : (c.writeV r x y).gangstat = c.gangstat := rfl
@[simp] theorem Core.writeV_leader (c : Core) (r : BitVec 5) (x y : Vec) : (c.writeV r x y).leader = c.leader := rfl
@[simp] theorem Core.writeV_resVregs (c : Core) (r : BitVec 5) (x y : Vec) : (c.writeV r x y).resVregs = c.resVregs := rfl
@[simp] theorem Core.writeV_resBars (c : Core) (r : BitVec 5) (x y : Vec) : (c.writeV r x y).resBars = c.resBars := rfl
@[simp] theorem Core.writeV_resLocal (c : Core) (r : BitVec 5) (x y : Vec) : (c.writeV r x y).resLocal = c.resLocal := rfl
@[simp] theorem Core.writeV_resMacros (c : Core) (r : BitVec 5) (x y : Vec) : (c.writeV r x y).resMacros = c.resMacros := rfl
@[simp] theorem Core.writeV_pickup (c : Core) (r : BitVec 5) (x y : Vec) : (c.writeV r x y).pickup = c.pickup := rfl
@[simp] theorem Core.writeV_cycle0 (c : Core) (r : BitVec 5) (x y : Vec) : (c.writeV r x y).cycle0 = c.cycle0 := rfl
@[simp] theorem Core.writeV_cycleAdd (c : Core) (r : BitVec 5) (x y : Vec) : (c.writeV r x y).cycleAdd = c.cycleAdd := rfl
@[simp] theorem Core.writeV_step (c : Core) (r : BitVec 5) (x y : Vec) : (c.writeV r x y).step = c.step := rfl
@[simp] theorem Core.writeV_xphase (c : Core) (r : BitVec 5) (x y : Vec) : (c.writeV r x y).xphase = c.xphase := rfl
@[simp] theorem Core.writeV_chan (c : Core) (r : BitVec 5) (x y : Vec) : (c.writeV r x y).chan = c.chan := rfl
@[simp] theorem Core.writeV_nextSlot (c : Core) (r : BitVec 5) (x y : Vec) : (c.writeV r x y).nextSlot = c.nextSlot := rfl
@[simp] theorem Core.writeV_combstat (c : Core) (r : BitVec 5) (x y : Vec) : (c.writeV r x y).combstat = c.combstat := rfl
@[simp] theorem Core.writeV_conflicts (c : Core) (r : BitVec 5) (x y : Vec) : (c.writeV r x y).conflicts = c.conflicts := rfl
@[simp] theorem Core.writeV_banks (c : Core) (r : BitVec 5) (x y : Vec) : (c.writeV r x y).banks = c.banks := rfl
@[simp] theorem Core.writeV_divFree (c : Core) (r : BitVec 5) (x y : Vec) : (c.writeV r x y).divFree = c.divFree := rfl
@[simp] theorem Core.writeV_vq (c : Core) (r : BitVec 5) (x y : Vec) : (c.writeV r x y).vq = c.vq := rfl
@[simp] theorem Core.writeV_vfly (c : Core) (r : BitVec 5) (x y : Vec) : (c.writeV r x y).vfly = c.vfly := rfl
@[simp] theorem Core.writeV_replay (c : Core) (r : BitVec 5) (x y : Vec) : (c.writeV r x y).replay = c.replay := rfl
@[simp] theorem Core.writeV_mem (c : Core) (r : BitVec 5) (x y : Vec) : (c.writeV r x y).mem = c.mem := rfl
@[simp] theorem Core.writeV_memBad (c : Core) (r : BitVec 5) (x y : Vec) : (c.writeV r x y).memBad = c.memBad := rfl
@[simp] theorem Core.writeV_retention (c : Core) (r : BitVec 5) (x y : Vec) : (c.writeV r x y).retention = c.retention := rfl
@[simp] theorem Core.writeV_slice (c : Core) (r : BitVec 5) (x y : Vec) : (c.writeV r x y).slice = c.slice := rfl
@[simp] theorem Core.writeV_channels (c : Core) (r : BitVec 5) (x y : Vec) : (c.writeV r x y).channels = c.channels := rfl
@[simp] theorem Core.writeV_serial (c : Core) (r : BitVec 5) (x y : Vec) : (c.writeV r x y).serial = c.serial := rfl
@[simp] theorem Core.writeV_ordered (c : Core) (r : BitVec 5) (x y : Vec) : (c.writeV r x y).ordered = c.ordered := rfl
@[simp] theorem Core.writeV_pattern (c : Core) (r : BitVec 5) (x y : Vec) : (c.writeV r x y).pattern = c.pattern := rfl
@[simp] theorem Core.writeV_tickets (c : Core) (r : BitVec 5) (x y : Vec) : (c.writeV r x y).tickets = c.tickets := rfl
@[simp] theorem Core.writeV_atoms (c : Core) (r : BitVec 5) (x y : Vec) : (c.writeV r x y).atoms = c.atoms := rfl
@[simp] theorem Core.writeV_aseq (c : Core) (r : BitVec 5) (x y : Vec) : (c.writeV r x y).aseq = c.aseq := rfl
@[simp] theorem Core.writeV_aerr (c : Core) (r : BitVec 5) (x y : Vec) : (c.writeV r x y).aerr = c.aerr := rfl
@[simp] theorem Core.writeV_alane (c : Core) (r : BitVec 5) (x y : Vec) : (c.writeV r x y).alane = c.alane := rfl
@[simp] theorem Core.writeV_alaneAt (c : Core) (r : BitVec 5) (x y : Vec) : (c.writeV r x y).alaneAt = c.alaneAt := rfl
@[simp] theorem Core.writeV_alaneArm (c : Core) (r : BitVec 5) (x y : Vec) : (c.writeV r x y).alaneArm = c.alaneArm := rfl
@[simp] theorem Core.writeV_alaneOn (c : Core) (r : BitVec 5) (x y : Vec) : (c.writeV r x y).alaneOn = c.alaneOn := rfl
@[simp] theorem Core.writeV_target (c : Core) (r : BitVec 5) (x y : Vec) : (c.writeV r x y).target = c.target := rfl
@[simp] theorem Core.writeV_arrivals (c : Core) (r : BitVec 5) (x y : Vec) : (c.writeV r x y).arrivals = c.arrivals := rfl
@[simp] theorem Core.writeV_ring (c : Core) (r : BitVec 5) (x y : Vec) : (c.writeV r x y).ring = c.ring := rfl
@[simp] theorem Core.writeV_holders (c : Core) (r : BitVec 5) (x y : Vec) : (c.writeV r x y).holders = c.holders := rfl
@[simp] theorem Core.writeV_binding (c : Core) (r : BitVec 5) (x y : Vec) : (c.writeV r x y).binding = c.binding := rfl
@[simp] theorem Core.writeV_sparse (c : Core) (r : BitVec 5) (x y : Vec) : (c.writeV r x y).sparse = c.sparse := rfl
@[simp] theorem Core.writeV_transfers (c : Core) (r : BitVec 5) (x y : Vec) : (c.writeV r x y).transfers = c.transfers := rfl
@[simp] theorem Core.writeV_rcvd (c : Core) (r : BitVec 5) (x y : Vec) : (c.writeV r x y).rcvd = c.rcvd := rfl
@[simp] theorem Core.writeV_quiet (c : Core) (r : BitVec 5) (x y : Vec) : (c.writeV r x y).quiet = c.quiet := rfl
@[simp] theorem Core.writeV_fetchVa (c : Core) (r : BitVec 5) (x y : Vec) : (c.writeV r x y).fetchVa = c.fetchVa := rfl
@[simp] theorem Core.writeV_rendErr (c : Core) (r : BitVec 5) (x y : Vec) : (c.writeV r x y).rendErr = c.rendErr := rfl
@[simp] theorem Core.writeV_fatal (c : Core) (r : BitVec 5) (x y : Vec) : (c.writeV r x y).fatal = c.fatal := rfl
@[simp] theorem Core.writeV_zeroUntil (c : Core) (r : BitVec 5) (x y : Vec) : (c.writeV r x y).zeroUntil = c.zeroUntil := rfl

/-! ### Core.writeM -/

@[simp] theorem Core.writeM_ctx (c : Core) (r : BitVec 3) (x : BitVec 8) : (c.writeM r x).ctx = c.ctx := by
  unfold Core.writeM; split <;> rfl
@[simp] theorem Core.writeM_lslot (c : Core) (r : BitVec 3) (x : BitVec 8) : (c.writeM r x).lslot = c.lslot := by
  unfold Core.writeM; split <;> rfl
@[simp] theorem Core.writeM_group (c : Core) (r : BitVec 3) (x : BitVec 8) : (c.writeM r x).group = c.group := by
  unfold Core.writeM; split <;> rfl
@[simp] theorem Core.writeM_member (c : Core) (r : BitVec 3) (x : BitVec 8) : (c.writeM r x).member = c.member := by
  unfold Core.writeM; split <;> rfl
@[simp] theorem Core.writeM_lcore (c : Core) (r : BitVec 3) (x : BitVec 8) : (c.writeM r x).lcore = c.lcore := by
  unfold Core.writeM; split <;> rfl
@[simp] theorem Core.writeM_tag (c : Core) (r : BitVec 3) (x : BitVec 8) : (c.writeM r x).tag = c.tag := by
  unfold Core.writeM; split <;> rfl
@[simp] theorem Core.writeM_status (c : Core) (r : BitVec 3) (x : BitVec 8) : (c.writeM r x).status = c.status := by
  unfold Core.writeM; split <;> rfl
@[simp] theorem Core.writeM_haltReq (c : Core) (r : BitVec 3) (x : BitVec 8) : (c.writeM r x).haltReq = c.haltReq := by
  unfold Core.writeM; split <;> rfl
@[simp] theorem Core.writeM_signal (c : Core) (r : BitVec 3) (x : BitVec 8) : (c.writeM r x).signal = c.signal := by
  unfold Core.writeM; split <;> rfl
@[simp] theorem Core.writeM_abort (c : Core) (r : BitVec 3) (x : BitVec 8) : (c.writeM r x).abort = c.abort := by
  unfold Core.writeM; split <;> rfl
@[simp] theorem Core.writeM_dataErr (c : Core) (r : BitVec 3) (x : BitVec 8) : (c.writeM r x).dataErr = c.dataErr := by
  unfold Core.writeM; split <;> rfl
@[simp] theorem Core.writeM_wait (c : Core) (r : BitVec 3) (x : BitVec 8) : (c.writeM r x).wait = c.wait := by
  unfold Core.writeM; split <;> rfl
@[simp] theorem Core.writeM_held (c : Core) (r : BitVec 3) (x : BitVec 8) : (c.writeM r x).held = c.held := by
  unfold Core.writeM; split <;> rfl
@[simp] theorem Core.writeM_readyAt (c : Core) (r : BitVec 3) (x : BitVec 8) : (c.writeM r x).readyAt = c.readyAt := by
  unfold Core.writeM; split <;> rfl
@[simp] theorem Core.writeM_latch (c : Core) (r : BitVec 3) (x : BitVec 8) : (c.writeM r x).latch = c.latch := by
  unfold Core.writeM; split <;> rfl
@[simp] theorem Core.writeM_flagsWord (c : Core) (r : BitVec 3) (x : BitVec 8) : (c.writeM r x).flagsWord = c.flagsWord := by
  unfold Core.writeM; split <;> rfl
@[simp] theorem Core.writeM_link (c : Core) (r : BitVec 3) (x : BitVec 8) : (c.writeM r x).link = c.link := by
  unfold Core.writeM; split <;> rfl
@[simp] theorem Core.writeM_pc (c : Core) (r : BitVec 3) (x : BitVec 8) : (c.writeM r x).pc = c.pc := by
  unfold Core.writeM; split <;> rfl
@[simp] theorem Core.writeM_g (c : Core) (r : BitVec 3) (x : BitVec 8) : (c.writeM r x).g = c.g := by
  unfold Core.writeM; split <;> rfl
@[simp] theorem Core.writeM_a (c : Core) (r : BitVec 3) (x : BitVec 8) : (c.writeM r x).a = c.a := by
  unfold Core.writeM; split <;> rfl
@[simp] theorem Core.writeM_v (c : Core) (r : BitVec 3) (x : BitVec 8) : (c.writeM r x).v = c.v := by
  unfold Core.writeM; split <;> rfl
@[simp] theorem Core.writeM_z (c : Core) (r : BitVec 3) (x : BitVec 8) : (c.writeM r x).z = c.z := by
  unfold Core.writeM; split <;> rfl
@[simp] theorem Core.writeM_pend (c : Core) (r : BitVec 3) (x : BitVec 8) : (c.writeM r x).pend = c.pend := by
  unfold Core.writeM; split <;> rfl
@[simp] theorem Core.writeM_loops (c : Core) (r : BitVec 3) (x : BitVec 8) : (c.writeM r x).loops = c.loops := by
  unfold Core.writeM; split <;> rfl
@[simp] theorem Core.writeM_aside (c : Core) (r : BitVec 3) (x : BitVec 8) : (c.writeM r x).aside = c.aside := by
  unfold Core.writeM; split <;> rfl
@[simp] theorem Core.writeM_md (c : Core) (r : BitVec 3) (x : BitVec 8) : (c.writeM r x).md = c.md := by
  unfold Core.writeM; split <;> rfl
@[simp] theorem Core.writeM_mdAt (c : Core) (r : BitVec 3) (x : BitVec 8) : (c.writeM r x).mdAt = c.mdAt := by
  unfold Core.writeM; split <;> rfl
@[simp] theorem Core.writeM_frame (c : Core) (r : BitVec 3) (x : BitVec 8) : (c.writeM r x).frame = c.frame := by
  unfold Core.writeM; split <;> rfl
@[simp] theorem Core.writeM_trapFeed (c : Core) (r : BitVec 3) (x : BitVec 8) : (c.writeM r x).trapFeed = c.trapFeed := by
  unfold Core.writeM; split <;> rfl
@[simp] theorem Core.writeM_ops (c : Core) (r : BitVec 3) (x : BitVec 8) : (c.writeM r x).ops = c.ops := by
  unfold Core.writeM; split <;> rfl
@[simp] theorem Core.writeM_handler (c : Core) (r : BitVec 3) (x : BitVec 8) : (c.writeM r x).handler = c.handler := by
  unfold Core.writeM; split <;> rfl
@[simp] theorem Core.writeM_cause (c : Core) (r : BitVec 3) (x : BitVec 8) : (c.writeM r x).cause = c.cause := by
  unfold Core.writeM; split <;> rfl
@[simp] theorem Core.writeM_tpc (c : Core) (r : BitVec 3) (x : BitVec 8) : (c.writeM r x).tpc = c.tpc := by
  unfold Core.writeM; split <;> rfl
@[simp] theorem Core.writeM_tinfo (c : Core) (r : BitVec 3) (x : BitVec 8) : (c.writeM r x).tinfo = c.tinfo := by
  unfold Core.writeM; split <;> rfl
@[simp] theorem Core.writeM_fpflags (c : Core) (r : BitVec 3) (x : BitVec 8) : (c.writeM r x).fpflags = c.fpflags := by
  unfold Core.writeM; split <;> rfl
@[simp] theorem Core.writeM_rmode (c : Core) (r : BitVec 3) (x : BitVec 8) : (c.writeM r x).rmode = c.rmode := by
  unfold Core.writeM; split <;> rfl
@[simp] theorem Core.writeM_bankhash (c : Core) (r : BitVec 3) (x : BitVec 8) : (c.writeM r x).bankhash = c.bankhash := by
  unfold Core.writeM; split <;> rfl
@[simp] theorem Core.writeM_rehashAt (c : Core) (r : BitVec 3) (x : BitVec 8) : (c.writeM r x).rehashAt = c.rehashAt := by
  unfold Core.writeM; split <;> rfl
@[simp] theorem Core.writeM_vshare (c : Core) (r : BitVec 3) (x : BitVec 8) : (c.writeM r x).vshare = c.vshare := by
  unfold Core.writeM; split <;> rfl
@[simp] theorem Core.writeM_pass (c : Core) (r : BitVec 3) (x : BitVec 8) : (c.writeM r x).pass = c.pass := by
  unfold Core.writeM; split <;> rfl
@[simp] theorem Core.writeM_winbind (c : Core) (r : BitVec 3) (x : BitVec 8) : (c.writeM r x).winbind = c.winbind := by
  unfold Core.writeM; split <;> rfl
@[simp] theorem Core.writeM_barmember (c : Core) (r : BitVec 3) (x : BitVec 8) : (c.writeM r x).barmember = c.barmember := by
  unfold Core.writeM; split <;> rfl
@[simp] theorem Core.writeM_gangstat (c : Core) (r : BitVec 3) (x : BitVec 8) : (c.writeM r x).gangstat = c.gangstat := by
  unfold Core.writeM; split <;> rfl
@[simp] theorem Core.writeM_leader (c : Core) (r : BitVec 3) (x : BitVec 8) : (c.writeM r x).leader = c.leader := by
  unfold Core.writeM; split <;> rfl
@[simp] theorem Core.writeM_resVregs (c : Core) (r : BitVec 3) (x : BitVec 8) : (c.writeM r x).resVregs = c.resVregs := by
  unfold Core.writeM; split <;> rfl
@[simp] theorem Core.writeM_resBars (c : Core) (r : BitVec 3) (x : BitVec 8) : (c.writeM r x).resBars = c.resBars := by
  unfold Core.writeM; split <;> rfl
@[simp] theorem Core.writeM_resLocal (c : Core) (r : BitVec 3) (x : BitVec 8) : (c.writeM r x).resLocal = c.resLocal := by
  unfold Core.writeM; split <;> rfl
@[simp] theorem Core.writeM_resMacros (c : Core) (r : BitVec 3) (x : BitVec 8) : (c.writeM r x).resMacros = c.resMacros := by
  unfold Core.writeM; split <;> rfl
@[simp] theorem Core.writeM_pickup (c : Core) (r : BitVec 3) (x : BitVec 8) : (c.writeM r x).pickup = c.pickup := by
  unfold Core.writeM; split <;> rfl
@[simp] theorem Core.writeM_cycle0 (c : Core) (r : BitVec 3) (x : BitVec 8) : (c.writeM r x).cycle0 = c.cycle0 := by
  unfold Core.writeM; split <;> rfl
@[simp] theorem Core.writeM_cycleAdd (c : Core) (r : BitVec 3) (x : BitVec 8) : (c.writeM r x).cycleAdd = c.cycleAdd := by
  unfold Core.writeM; split <;> rfl
@[simp] theorem Core.writeM_step (c : Core) (r : BitVec 3) (x : BitVec 8) : (c.writeM r x).step = c.step := by
  unfold Core.writeM; split <;> rfl
@[simp] theorem Core.writeM_xphase (c : Core) (r : BitVec 3) (x : BitVec 8) : (c.writeM r x).xphase = c.xphase := by
  unfold Core.writeM; split <;> rfl
@[simp] theorem Core.writeM_chan (c : Core) (r : BitVec 3) (x : BitVec 8) : (c.writeM r x).chan = c.chan := by
  unfold Core.writeM; split <;> rfl
@[simp] theorem Core.writeM_nextSlot (c : Core) (r : BitVec 3) (x : BitVec 8) : (c.writeM r x).nextSlot = c.nextSlot := by
  unfold Core.writeM; split <;> rfl
@[simp] theorem Core.writeM_combstat (c : Core) (r : BitVec 3) (x : BitVec 8) : (c.writeM r x).combstat = c.combstat := by
  unfold Core.writeM; split <;> rfl
@[simp] theorem Core.writeM_conflicts (c : Core) (r : BitVec 3) (x : BitVec 8) : (c.writeM r x).conflicts = c.conflicts := by
  unfold Core.writeM; split <;> rfl
@[simp] theorem Core.writeM_banks (c : Core) (r : BitVec 3) (x : BitVec 8) : (c.writeM r x).banks = c.banks := by
  unfold Core.writeM; split <;> rfl
@[simp] theorem Core.writeM_divFree (c : Core) (r : BitVec 3) (x : BitVec 8) : (c.writeM r x).divFree = c.divFree := by
  unfold Core.writeM; split <;> rfl
@[simp] theorem Core.writeM_vq (c : Core) (r : BitVec 3) (x : BitVec 8) : (c.writeM r x).vq = c.vq := by
  unfold Core.writeM; split <;> rfl
@[simp] theorem Core.writeM_vfly (c : Core) (r : BitVec 3) (x : BitVec 8) : (c.writeM r x).vfly = c.vfly := by
  unfold Core.writeM; split <;> rfl
@[simp] theorem Core.writeM_replay (c : Core) (r : BitVec 3) (x : BitVec 8) : (c.writeM r x).replay = c.replay := by
  unfold Core.writeM; split <;> rfl
@[simp] theorem Core.writeM_mem (c : Core) (r : BitVec 3) (x : BitVec 8) : (c.writeM r x).mem = c.mem := by
  unfold Core.writeM; split <;> rfl
@[simp] theorem Core.writeM_memBad (c : Core) (r : BitVec 3) (x : BitVec 8) : (c.writeM r x).memBad = c.memBad := by
  unfold Core.writeM; split <;> rfl
@[simp] theorem Core.writeM_retention (c : Core) (r : BitVec 3) (x : BitVec 8) : (c.writeM r x).retention = c.retention := by
  unfold Core.writeM; split <;> rfl
@[simp] theorem Core.writeM_slice (c : Core) (r : BitVec 3) (x : BitVec 8) : (c.writeM r x).slice = c.slice := by
  unfold Core.writeM; split <;> rfl
@[simp] theorem Core.writeM_channels (c : Core) (r : BitVec 3) (x : BitVec 8) : (c.writeM r x).channels = c.channels := by
  unfold Core.writeM; split <;> rfl
@[simp] theorem Core.writeM_serial (c : Core) (r : BitVec 3) (x : BitVec 8) : (c.writeM r x).serial = c.serial := by
  unfold Core.writeM; split <;> rfl
@[simp] theorem Core.writeM_ordered (c : Core) (r : BitVec 3) (x : BitVec 8) : (c.writeM r x).ordered = c.ordered := by
  unfold Core.writeM; split <;> rfl
@[simp] theorem Core.writeM_pattern (c : Core) (r : BitVec 3) (x : BitVec 8) : (c.writeM r x).pattern = c.pattern := by
  unfold Core.writeM; split <;> rfl
@[simp] theorem Core.writeM_tickets (c : Core) (r : BitVec 3) (x : BitVec 8) : (c.writeM r x).tickets = c.tickets := by
  unfold Core.writeM; split <;> rfl
@[simp] theorem Core.writeM_atoms (c : Core) (r : BitVec 3) (x : BitVec 8) : (c.writeM r x).atoms = c.atoms := by
  unfold Core.writeM; split <;> rfl
@[simp] theorem Core.writeM_aseq (c : Core) (r : BitVec 3) (x : BitVec 8) : (c.writeM r x).aseq = c.aseq := by
  unfold Core.writeM; split <;> rfl
@[simp] theorem Core.writeM_aerr (c : Core) (r : BitVec 3) (x : BitVec 8) : (c.writeM r x).aerr = c.aerr := by
  unfold Core.writeM; split <;> rfl
@[simp] theorem Core.writeM_alane (c : Core) (r : BitVec 3) (x : BitVec 8) : (c.writeM r x).alane = c.alane := by
  unfold Core.writeM; split <;> rfl
@[simp] theorem Core.writeM_alaneAt (c : Core) (r : BitVec 3) (x : BitVec 8) : (c.writeM r x).alaneAt = c.alaneAt := by
  unfold Core.writeM; split <;> rfl
@[simp] theorem Core.writeM_alaneArm (c : Core) (r : BitVec 3) (x : BitVec 8) : (c.writeM r x).alaneArm = c.alaneArm := by
  unfold Core.writeM; split <;> rfl
@[simp] theorem Core.writeM_alaneOn (c : Core) (r : BitVec 3) (x : BitVec 8) : (c.writeM r x).alaneOn = c.alaneOn := by
  unfold Core.writeM; split <;> rfl
@[simp] theorem Core.writeM_target (c : Core) (r : BitVec 3) (x : BitVec 8) : (c.writeM r x).target = c.target := by
  unfold Core.writeM; split <;> rfl
@[simp] theorem Core.writeM_arrivals (c : Core) (r : BitVec 3) (x : BitVec 8) : (c.writeM r x).arrivals = c.arrivals := by
  unfold Core.writeM; split <;> rfl
@[simp] theorem Core.writeM_ring (c : Core) (r : BitVec 3) (x : BitVec 8) : (c.writeM r x).ring = c.ring := by
  unfold Core.writeM; split <;> rfl
@[simp] theorem Core.writeM_holders (c : Core) (r : BitVec 3) (x : BitVec 8) : (c.writeM r x).holders = c.holders := by
  unfold Core.writeM; split <;> rfl
@[simp] theorem Core.writeM_binding (c : Core) (r : BitVec 3) (x : BitVec 8) : (c.writeM r x).binding = c.binding := by
  unfold Core.writeM; split <;> rfl
@[simp] theorem Core.writeM_sparse (c : Core) (r : BitVec 3) (x : BitVec 8) : (c.writeM r x).sparse = c.sparse := by
  unfold Core.writeM; split <;> rfl
@[simp] theorem Core.writeM_transfers (c : Core) (r : BitVec 3) (x : BitVec 8) : (c.writeM r x).transfers = c.transfers := by
  unfold Core.writeM; split <;> rfl
@[simp] theorem Core.writeM_rcvd (c : Core) (r : BitVec 3) (x : BitVec 8) : (c.writeM r x).rcvd = c.rcvd := by
  unfold Core.writeM; split <;> rfl
@[simp] theorem Core.writeM_quiet (c : Core) (r : BitVec 3) (x : BitVec 8) : (c.writeM r x).quiet = c.quiet := by
  unfold Core.writeM; split <;> rfl
@[simp] theorem Core.writeM_fetchVa (c : Core) (r : BitVec 3) (x : BitVec 8) : (c.writeM r x).fetchVa = c.fetchVa := by
  unfold Core.writeM; split <;> rfl
@[simp] theorem Core.writeM_rendErr (c : Core) (r : BitVec 3) (x : BitVec 8) : (c.writeM r x).rendErr = c.rendErr := by
  unfold Core.writeM; split <;> rfl
@[simp] theorem Core.writeM_fatal (c : Core) (r : BitVec 3) (x : BitVec 8) : (c.writeM r x).fatal = c.fatal := by
  unfold Core.writeM; split <;> rfl
@[simp] theorem Core.writeM_zeroUntil (c : Core) (r : BitVec 3) (x : BitVec 8) : (c.writeM r x).zeroUntil = c.zeroUntil := by
  unfold Core.writeM; split <;> rfl

/-! ### Core.orFlags -/

@[simp] theorem Core.orFlags_ctx (c : Core) (f : Flags) : (c.orFlags f).ctx = c.ctx := rfl
@[simp] theorem Core.orFlags_lslot (c : Core) (f : Flags) : (c.orFlags f).lslot = c.lslot := rfl
@[simp] theorem Core.orFlags_group (c : Core) (f : Flags) : (c.orFlags f).group = c.group := rfl
@[simp] theorem Core.orFlags_member (c : Core) (f : Flags) : (c.orFlags f).member = c.member := rfl
@[simp] theorem Core.orFlags_lcore (c : Core) (f : Flags) : (c.orFlags f).lcore = c.lcore := rfl
@[simp] theorem Core.orFlags_tag (c : Core) (f : Flags) : (c.orFlags f).tag = c.tag := rfl
@[simp] theorem Core.orFlags_status (c : Core) (f : Flags) : (c.orFlags f).status = c.status := rfl
@[simp] theorem Core.orFlags_haltReq (c : Core) (f : Flags) : (c.orFlags f).haltReq = c.haltReq := rfl
@[simp] theorem Core.orFlags_signal (c : Core) (f : Flags) : (c.orFlags f).signal = c.signal := rfl
@[simp] theorem Core.orFlags_abort (c : Core) (f : Flags) : (c.orFlags f).abort = c.abort := rfl
@[simp] theorem Core.orFlags_dataErr (c : Core) (f : Flags) : (c.orFlags f).dataErr = c.dataErr := rfl
@[simp] theorem Core.orFlags_wait (c : Core) (f : Flags) : (c.orFlags f).wait = c.wait := rfl
@[simp] theorem Core.orFlags_held (c : Core) (f : Flags) : (c.orFlags f).held = c.held := rfl
@[simp] theorem Core.orFlags_readyAt (c : Core) (f : Flags) : (c.orFlags f).readyAt = c.readyAt := rfl
@[simp] theorem Core.orFlags_latch (c : Core) (f : Flags) : (c.orFlags f).latch = c.latch := rfl
@[simp] theorem Core.orFlags_flagsWord (c : Core) (f : Flags) : (c.orFlags f).flagsWord = c.flagsWord := rfl
@[simp] theorem Core.orFlags_link (c : Core) (f : Flags) : (c.orFlags f).link = c.link := rfl
@[simp] theorem Core.orFlags_pc (c : Core) (f : Flags) : (c.orFlags f).pc = c.pc := rfl
@[simp] theorem Core.orFlags_g (c : Core) (f : Flags) : (c.orFlags f).g = c.g := rfl
@[simp] theorem Core.orFlags_a (c : Core) (f : Flags) : (c.orFlags f).a = c.a := rfl
@[simp] theorem Core.orFlags_v (c : Core) (f : Flags) : (c.orFlags f).v = c.v := rfl
@[simp] theorem Core.orFlags_m (c : Core) (f : Flags) : (c.orFlags f).m = c.m := rfl
@[simp] theorem Core.orFlags_z (c : Core) (f : Flags) : (c.orFlags f).z = c.z := rfl
@[simp] theorem Core.orFlags_pend (c : Core) (f : Flags) : (c.orFlags f).pend = c.pend := rfl
@[simp] theorem Core.orFlags_loops (c : Core) (f : Flags) : (c.orFlags f).loops = c.loops := rfl
@[simp] theorem Core.orFlags_aside (c : Core) (f : Flags) : (c.orFlags f).aside = c.aside := rfl
@[simp] theorem Core.orFlags_md (c : Core) (f : Flags) : (c.orFlags f).md = c.md := rfl
@[simp] theorem Core.orFlags_mdAt (c : Core) (f : Flags) : (c.orFlags f).mdAt = c.mdAt := rfl
@[simp] theorem Core.orFlags_frame (c : Core) (f : Flags) : (c.orFlags f).frame = c.frame := rfl
@[simp] theorem Core.orFlags_trapFeed (c : Core) (f : Flags) : (c.orFlags f).trapFeed = c.trapFeed := rfl
@[simp] theorem Core.orFlags_ops (c : Core) (f : Flags) : (c.orFlags f).ops = c.ops := rfl
@[simp] theorem Core.orFlags_handler (c : Core) (f : Flags) : (c.orFlags f).handler = c.handler := rfl
@[simp] theorem Core.orFlags_cause (c : Core) (f : Flags) : (c.orFlags f).cause = c.cause := rfl
@[simp] theorem Core.orFlags_tpc (c : Core) (f : Flags) : (c.orFlags f).tpc = c.tpc := rfl
@[simp] theorem Core.orFlags_tinfo (c : Core) (f : Flags) : (c.orFlags f).tinfo = c.tinfo := rfl
@[simp] theorem Core.orFlags_rmode (c : Core) (f : Flags) : (c.orFlags f).rmode = c.rmode := rfl
@[simp] theorem Core.orFlags_bankhash (c : Core) (f : Flags) : (c.orFlags f).bankhash = c.bankhash := rfl
@[simp] theorem Core.orFlags_rehashAt (c : Core) (f : Flags) : (c.orFlags f).rehashAt = c.rehashAt := rfl
@[simp] theorem Core.orFlags_vshare (c : Core) (f : Flags) : (c.orFlags f).vshare = c.vshare := rfl
@[simp] theorem Core.orFlags_pass (c : Core) (f : Flags) : (c.orFlags f).pass = c.pass := rfl
@[simp] theorem Core.orFlags_winbind (c : Core) (f : Flags) : (c.orFlags f).winbind = c.winbind := rfl
@[simp] theorem Core.orFlags_barmember (c : Core) (f : Flags) : (c.orFlags f).barmember = c.barmember := rfl
@[simp] theorem Core.orFlags_gangstat (c : Core) (f : Flags) : (c.orFlags f).gangstat = c.gangstat := rfl
@[simp] theorem Core.orFlags_leader (c : Core) (f : Flags) : (c.orFlags f).leader = c.leader := rfl
@[simp] theorem Core.orFlags_resVregs (c : Core) (f : Flags) : (c.orFlags f).resVregs = c.resVregs := rfl
@[simp] theorem Core.orFlags_resBars (c : Core) (f : Flags) : (c.orFlags f).resBars = c.resBars := rfl
@[simp] theorem Core.orFlags_resLocal (c : Core) (f : Flags) : (c.orFlags f).resLocal = c.resLocal := rfl
@[simp] theorem Core.orFlags_resMacros (c : Core) (f : Flags) : (c.orFlags f).resMacros = c.resMacros := rfl
@[simp] theorem Core.orFlags_pickup (c : Core) (f : Flags) : (c.orFlags f).pickup = c.pickup := rfl
@[simp] theorem Core.orFlags_cycle0 (c : Core) (f : Flags) : (c.orFlags f).cycle0 = c.cycle0 := rfl
@[simp] theorem Core.orFlags_cycleAdd (c : Core) (f : Flags) : (c.orFlags f).cycleAdd = c.cycleAdd := rfl
@[simp] theorem Core.orFlags_step (c : Core) (f : Flags) : (c.orFlags f).step = c.step := rfl
@[simp] theorem Core.orFlags_xphase (c : Core) (f : Flags) : (c.orFlags f).xphase = c.xphase := rfl
@[simp] theorem Core.orFlags_chan (c : Core) (f : Flags) : (c.orFlags f).chan = c.chan := rfl
@[simp] theorem Core.orFlags_nextSlot (c : Core) (f : Flags) : (c.orFlags f).nextSlot = c.nextSlot := rfl
@[simp] theorem Core.orFlags_combstat (c : Core) (f : Flags) : (c.orFlags f).combstat = c.combstat := rfl
@[simp] theorem Core.orFlags_conflicts (c : Core) (f : Flags) : (c.orFlags f).conflicts = c.conflicts := rfl
@[simp] theorem Core.orFlags_banks (c : Core) (f : Flags) : (c.orFlags f).banks = c.banks := rfl
@[simp] theorem Core.orFlags_divFree (c : Core) (f : Flags) : (c.orFlags f).divFree = c.divFree := rfl
@[simp] theorem Core.orFlags_vq (c : Core) (f : Flags) : (c.orFlags f).vq = c.vq := rfl
@[simp] theorem Core.orFlags_vfly (c : Core) (f : Flags) : (c.orFlags f).vfly = c.vfly := rfl
@[simp] theorem Core.orFlags_replay (c : Core) (f : Flags) : (c.orFlags f).replay = c.replay := rfl
@[simp] theorem Core.orFlags_mem (c : Core) (f : Flags) : (c.orFlags f).mem = c.mem := rfl
@[simp] theorem Core.orFlags_memBad (c : Core) (f : Flags) : (c.orFlags f).memBad = c.memBad := rfl
@[simp] theorem Core.orFlags_retention (c : Core) (f : Flags) : (c.orFlags f).retention = c.retention := rfl
@[simp] theorem Core.orFlags_slice (c : Core) (f : Flags) : (c.orFlags f).slice = c.slice := rfl
@[simp] theorem Core.orFlags_channels (c : Core) (f : Flags) : (c.orFlags f).channels = c.channels := rfl
@[simp] theorem Core.orFlags_serial (c : Core) (f : Flags) : (c.orFlags f).serial = c.serial := rfl
@[simp] theorem Core.orFlags_ordered (c : Core) (f : Flags) : (c.orFlags f).ordered = c.ordered := rfl
@[simp] theorem Core.orFlags_pattern (c : Core) (f : Flags) : (c.orFlags f).pattern = c.pattern := rfl
@[simp] theorem Core.orFlags_tickets (c : Core) (f : Flags) : (c.orFlags f).tickets = c.tickets := rfl
@[simp] theorem Core.orFlags_atoms (c : Core) (f : Flags) : (c.orFlags f).atoms = c.atoms := rfl
@[simp] theorem Core.orFlags_aseq (c : Core) (f : Flags) : (c.orFlags f).aseq = c.aseq := rfl
@[simp] theorem Core.orFlags_aerr (c : Core) (f : Flags) : (c.orFlags f).aerr = c.aerr := rfl
@[simp] theorem Core.orFlags_alane (c : Core) (f : Flags) : (c.orFlags f).alane = c.alane := rfl
@[simp] theorem Core.orFlags_alaneAt (c : Core) (f : Flags) : (c.orFlags f).alaneAt = c.alaneAt := rfl
@[simp] theorem Core.orFlags_alaneArm (c : Core) (f : Flags) : (c.orFlags f).alaneArm = c.alaneArm := rfl
@[simp] theorem Core.orFlags_alaneOn (c : Core) (f : Flags) : (c.orFlags f).alaneOn = c.alaneOn := rfl
@[simp] theorem Core.orFlags_target (c : Core) (f : Flags) : (c.orFlags f).target = c.target := rfl
@[simp] theorem Core.orFlags_arrivals (c : Core) (f : Flags) : (c.orFlags f).arrivals = c.arrivals := rfl
@[simp] theorem Core.orFlags_ring (c : Core) (f : Flags) : (c.orFlags f).ring = c.ring := rfl
@[simp] theorem Core.orFlags_holders (c : Core) (f : Flags) : (c.orFlags f).holders = c.holders := rfl
@[simp] theorem Core.orFlags_binding (c : Core) (f : Flags) : (c.orFlags f).binding = c.binding := rfl
@[simp] theorem Core.orFlags_sparse (c : Core) (f : Flags) : (c.orFlags f).sparse = c.sparse := rfl
@[simp] theorem Core.orFlags_transfers (c : Core) (f : Flags) : (c.orFlags f).transfers = c.transfers := rfl
@[simp] theorem Core.orFlags_rcvd (c : Core) (f : Flags) : (c.orFlags f).rcvd = c.rcvd := rfl
@[simp] theorem Core.orFlags_quiet (c : Core) (f : Flags) : (c.orFlags f).quiet = c.quiet := rfl
@[simp] theorem Core.orFlags_fetchVa (c : Core) (f : Flags) : (c.orFlags f).fetchVa = c.fetchVa := rfl
@[simp] theorem Core.orFlags_rendErr (c : Core) (f : Flags) : (c.orFlags f).rendErr = c.rendErr := rfl
@[simp] theorem Core.orFlags_fatal (c : Core) (f : Flags) : (c.orFlags f).fatal = c.fatal := rfl
@[simp] theorem Core.orFlags_zeroUntil (c : Core) (f : Flags) : (c.orFlags f).zeroUntil = c.zeroUntil := rfl

/-! ### Core.writeZ -/

@[simp] theorem Core.writeZ_ctx (c : Core) (t r n : Nat) (w : Word) : (c.writeZ t r n w).ctx = c.ctx := rfl
@[simp] theorem Core.writeZ_lslot (c : Core) (t r n : Nat) (w : Word) : (c.writeZ t r n w).lslot = c.lslot := rfl
@[simp] theorem Core.writeZ_group (c : Core) (t r n : Nat) (w : Word) : (c.writeZ t r n w).group = c.group := rfl
@[simp] theorem Core.writeZ_member (c : Core) (t r n : Nat) (w : Word) : (c.writeZ t r n w).member = c.member := rfl
@[simp] theorem Core.writeZ_lcore (c : Core) (t r n : Nat) (w : Word) : (c.writeZ t r n w).lcore = c.lcore := rfl
@[simp] theorem Core.writeZ_tag (c : Core) (t r n : Nat) (w : Word) : (c.writeZ t r n w).tag = c.tag := rfl
@[simp] theorem Core.writeZ_status (c : Core) (t r n : Nat) (w : Word) : (c.writeZ t r n w).status = c.status := rfl
@[simp] theorem Core.writeZ_haltReq (c : Core) (t r n : Nat) (w : Word) : (c.writeZ t r n w).haltReq = c.haltReq := rfl
@[simp] theorem Core.writeZ_signal (c : Core) (t r n : Nat) (w : Word) : (c.writeZ t r n w).signal = c.signal := rfl
@[simp] theorem Core.writeZ_abort (c : Core) (t r n : Nat) (w : Word) : (c.writeZ t r n w).abort = c.abort := rfl
@[simp] theorem Core.writeZ_dataErr (c : Core) (t r n : Nat) (w : Word) : (c.writeZ t r n w).dataErr = c.dataErr := rfl
@[simp] theorem Core.writeZ_wait (c : Core) (t r n : Nat) (w : Word) : (c.writeZ t r n w).wait = c.wait := rfl
@[simp] theorem Core.writeZ_held (c : Core) (t r n : Nat) (w : Word) : (c.writeZ t r n w).held = c.held := rfl
@[simp] theorem Core.writeZ_readyAt (c : Core) (t r n : Nat) (w : Word) : (c.writeZ t r n w).readyAt = c.readyAt := rfl
@[simp] theorem Core.writeZ_latch (c : Core) (t r n : Nat) (w : Word) : (c.writeZ t r n w).latch = c.latch := rfl
@[simp] theorem Core.writeZ_flagsWord (c : Core) (t r n : Nat) (w : Word) : (c.writeZ t r n w).flagsWord = c.flagsWord := rfl
@[simp] theorem Core.writeZ_link (c : Core) (t r n : Nat) (w : Word) : (c.writeZ t r n w).link = c.link := rfl
@[simp] theorem Core.writeZ_pc (c : Core) (t r n : Nat) (w : Word) : (c.writeZ t r n w).pc = c.pc := rfl
@[simp] theorem Core.writeZ_g (c : Core) (t r n : Nat) (w : Word) : (c.writeZ t r n w).g = c.g := rfl
@[simp] theorem Core.writeZ_a (c : Core) (t r n : Nat) (w : Word) : (c.writeZ t r n w).a = c.a := rfl
@[simp] theorem Core.writeZ_v (c : Core) (t r n : Nat) (w : Word) : (c.writeZ t r n w).v = c.v := rfl
@[simp] theorem Core.writeZ_m (c : Core) (t r n : Nat) (w : Word) : (c.writeZ t r n w).m = c.m := rfl
@[simp] theorem Core.writeZ_pend (c : Core) (t r n : Nat) (w : Word) : (c.writeZ t r n w).pend = c.pend := rfl
@[simp] theorem Core.writeZ_loops (c : Core) (t r n : Nat) (w : Word) : (c.writeZ t r n w).loops = c.loops := rfl
@[simp] theorem Core.writeZ_aside (c : Core) (t r n : Nat) (w : Word) : (c.writeZ t r n w).aside = c.aside := rfl
@[simp] theorem Core.writeZ_md (c : Core) (t r n : Nat) (w : Word) : (c.writeZ t r n w).md = c.md := rfl
@[simp] theorem Core.writeZ_mdAt (c : Core) (t r n : Nat) (w : Word) : (c.writeZ t r n w).mdAt = c.mdAt := rfl
@[simp] theorem Core.writeZ_frame (c : Core) (t r n : Nat) (w : Word) : (c.writeZ t r n w).frame = c.frame := rfl
@[simp] theorem Core.writeZ_trapFeed (c : Core) (t r n : Nat) (w : Word) : (c.writeZ t r n w).trapFeed = c.trapFeed := rfl
@[simp] theorem Core.writeZ_ops (c : Core) (t r n : Nat) (w : Word) : (c.writeZ t r n w).ops = c.ops := rfl
@[simp] theorem Core.writeZ_handler (c : Core) (t r n : Nat) (w : Word) : (c.writeZ t r n w).handler = c.handler := rfl
@[simp] theorem Core.writeZ_cause (c : Core) (t r n : Nat) (w : Word) : (c.writeZ t r n w).cause = c.cause := rfl
@[simp] theorem Core.writeZ_tpc (c : Core) (t r n : Nat) (w : Word) : (c.writeZ t r n w).tpc = c.tpc := rfl
@[simp] theorem Core.writeZ_tinfo (c : Core) (t r n : Nat) (w : Word) : (c.writeZ t r n w).tinfo = c.tinfo := rfl
@[simp] theorem Core.writeZ_fpflags (c : Core) (t r n : Nat) (w : Word) : (c.writeZ t r n w).fpflags = c.fpflags := rfl
@[simp] theorem Core.writeZ_rmode (c : Core) (t r n : Nat) (w : Word) : (c.writeZ t r n w).rmode = c.rmode := rfl
@[simp] theorem Core.writeZ_bankhash (c : Core) (t r n : Nat) (w : Word) : (c.writeZ t r n w).bankhash = c.bankhash := rfl
@[simp] theorem Core.writeZ_rehashAt (c : Core) (t r n : Nat) (w : Word) : (c.writeZ t r n w).rehashAt = c.rehashAt := rfl
@[simp] theorem Core.writeZ_vshare (c : Core) (t r n : Nat) (w : Word) : (c.writeZ t r n w).vshare = c.vshare := rfl
@[simp] theorem Core.writeZ_pass (c : Core) (t r n : Nat) (w : Word) : (c.writeZ t r n w).pass = c.pass := rfl
@[simp] theorem Core.writeZ_winbind (c : Core) (t r n : Nat) (w : Word) : (c.writeZ t r n w).winbind = c.winbind := rfl
@[simp] theorem Core.writeZ_barmember (c : Core) (t r n : Nat) (w : Word) : (c.writeZ t r n w).barmember = c.barmember := rfl
@[simp] theorem Core.writeZ_gangstat (c : Core) (t r n : Nat) (w : Word) : (c.writeZ t r n w).gangstat = c.gangstat := rfl
@[simp] theorem Core.writeZ_leader (c : Core) (t r n : Nat) (w : Word) : (c.writeZ t r n w).leader = c.leader := rfl
@[simp] theorem Core.writeZ_resVregs (c : Core) (t r n : Nat) (w : Word) : (c.writeZ t r n w).resVregs = c.resVregs := rfl
@[simp] theorem Core.writeZ_resBars (c : Core) (t r n : Nat) (w : Word) : (c.writeZ t r n w).resBars = c.resBars := rfl
@[simp] theorem Core.writeZ_resLocal (c : Core) (t r n : Nat) (w : Word) : (c.writeZ t r n w).resLocal = c.resLocal := rfl
@[simp] theorem Core.writeZ_resMacros (c : Core) (t r n : Nat) (w : Word) : (c.writeZ t r n w).resMacros = c.resMacros := rfl
@[simp] theorem Core.writeZ_pickup (c : Core) (t r n : Nat) (w : Word) : (c.writeZ t r n w).pickup = c.pickup := rfl
@[simp] theorem Core.writeZ_cycle0 (c : Core) (t r n : Nat) (w : Word) : (c.writeZ t r n w).cycle0 = c.cycle0 := rfl
@[simp] theorem Core.writeZ_cycleAdd (c : Core) (t r n : Nat) (w : Word) : (c.writeZ t r n w).cycleAdd = c.cycleAdd := rfl
@[simp] theorem Core.writeZ_step (c : Core) (t r n : Nat) (w : Word) : (c.writeZ t r n w).step = c.step := rfl
@[simp] theorem Core.writeZ_xphase (c : Core) (t r n : Nat) (w : Word) : (c.writeZ t r n w).xphase = c.xphase := rfl
@[simp] theorem Core.writeZ_chan (c : Core) (t r n : Nat) (w : Word) : (c.writeZ t r n w).chan = c.chan := rfl
@[simp] theorem Core.writeZ_nextSlot (c : Core) (t r n : Nat) (w : Word) : (c.writeZ t r n w).nextSlot = c.nextSlot := rfl
@[simp] theorem Core.writeZ_combstat (c : Core) (t r n : Nat) (w : Word) : (c.writeZ t r n w).combstat = c.combstat := rfl
@[simp] theorem Core.writeZ_conflicts (c : Core) (t r n : Nat) (w : Word) : (c.writeZ t r n w).conflicts = c.conflicts := rfl
@[simp] theorem Core.writeZ_banks (c : Core) (t r n : Nat) (w : Word) : (c.writeZ t r n w).banks = c.banks := rfl
@[simp] theorem Core.writeZ_divFree (c : Core) (t r n : Nat) (w : Word) : (c.writeZ t r n w).divFree = c.divFree := rfl
@[simp] theorem Core.writeZ_vq (c : Core) (t r n : Nat) (w : Word) : (c.writeZ t r n w).vq = c.vq := rfl
@[simp] theorem Core.writeZ_vfly (c : Core) (t r n : Nat) (w : Word) : (c.writeZ t r n w).vfly = c.vfly := rfl
@[simp] theorem Core.writeZ_replay (c : Core) (t r n : Nat) (w : Word) : (c.writeZ t r n w).replay = c.replay := rfl
@[simp] theorem Core.writeZ_mem (c : Core) (t r n : Nat) (w : Word) : (c.writeZ t r n w).mem = c.mem := rfl
@[simp] theorem Core.writeZ_memBad (c : Core) (t r n : Nat) (w : Word) : (c.writeZ t r n w).memBad = c.memBad := rfl
@[simp] theorem Core.writeZ_retention (c : Core) (t r n : Nat) (w : Word) : (c.writeZ t r n w).retention = c.retention := rfl
@[simp] theorem Core.writeZ_slice (c : Core) (t r n : Nat) (w : Word) : (c.writeZ t r n w).slice = c.slice := rfl
@[simp] theorem Core.writeZ_channels (c : Core) (t r n : Nat) (w : Word) : (c.writeZ t r n w).channels = c.channels := rfl
@[simp] theorem Core.writeZ_serial (c : Core) (t r n : Nat) (w : Word) : (c.writeZ t r n w).serial = c.serial := rfl
@[simp] theorem Core.writeZ_ordered (c : Core) (t r n : Nat) (w : Word) : (c.writeZ t r n w).ordered = c.ordered := rfl
@[simp] theorem Core.writeZ_pattern (c : Core) (t r n : Nat) (w : Word) : (c.writeZ t r n w).pattern = c.pattern := rfl
@[simp] theorem Core.writeZ_tickets (c : Core) (t r n : Nat) (w : Word) : (c.writeZ t r n w).tickets = c.tickets := rfl
@[simp] theorem Core.writeZ_atoms (c : Core) (t r n : Nat) (w : Word) : (c.writeZ t r n w).atoms = c.atoms := rfl
@[simp] theorem Core.writeZ_aseq (c : Core) (t r n : Nat) (w : Word) : (c.writeZ t r n w).aseq = c.aseq := rfl
@[simp] theorem Core.writeZ_aerr (c : Core) (t r n : Nat) (w : Word) : (c.writeZ t r n w).aerr = c.aerr := rfl
@[simp] theorem Core.writeZ_alane (c : Core) (t r n : Nat) (w : Word) : (c.writeZ t r n w).alane = c.alane := rfl
@[simp] theorem Core.writeZ_alaneAt (c : Core) (t r n : Nat) (w : Word) : (c.writeZ t r n w).alaneAt = c.alaneAt := rfl
@[simp] theorem Core.writeZ_alaneArm (c : Core) (t r n : Nat) (w : Word) : (c.writeZ t r n w).alaneArm = c.alaneArm := rfl
@[simp] theorem Core.writeZ_alaneOn (c : Core) (t r n : Nat) (w : Word) : (c.writeZ t r n w).alaneOn = c.alaneOn := rfl
@[simp] theorem Core.writeZ_target (c : Core) (t r n : Nat) (w : Word) : (c.writeZ t r n w).target = c.target := rfl
@[simp] theorem Core.writeZ_arrivals (c : Core) (t r n : Nat) (w : Word) : (c.writeZ t r n w).arrivals = c.arrivals := rfl
@[simp] theorem Core.writeZ_ring (c : Core) (t r n : Nat) (w : Word) : (c.writeZ t r n w).ring = c.ring := rfl
@[simp] theorem Core.writeZ_holders (c : Core) (t r n : Nat) (w : Word) : (c.writeZ t r n w).holders = c.holders := rfl
@[simp] theorem Core.writeZ_binding (c : Core) (t r n : Nat) (w : Word) : (c.writeZ t r n w).binding = c.binding := rfl
@[simp] theorem Core.writeZ_sparse (c : Core) (t r n : Nat) (w : Word) : (c.writeZ t r n w).sparse = c.sparse := rfl
@[simp] theorem Core.writeZ_transfers (c : Core) (t r n : Nat) (w : Word) : (c.writeZ t r n w).transfers = c.transfers := rfl
@[simp] theorem Core.writeZ_rcvd (c : Core) (t r n : Nat) (w : Word) : (c.writeZ t r n w).rcvd = c.rcvd := rfl
@[simp] theorem Core.writeZ_quiet (c : Core) (t r n : Nat) (w : Word) : (c.writeZ t r n w).quiet = c.quiet := rfl
@[simp] theorem Core.writeZ_fetchVa (c : Core) (t r n : Nat) (w : Word) : (c.writeZ t r n w).fetchVa = c.fetchVa := rfl
@[simp] theorem Core.writeZ_rendErr (c : Core) (t r n : Nat) (w : Word) : (c.writeZ t r n w).rendErr = c.rendErr := rfl
@[simp] theorem Core.writeZ_fatal (c : Core) (t r n : Nat) (w : Word) : (c.writeZ t r n w).fatal = c.fatal := rfl
@[simp] theorem Core.writeZ_zeroUntil (c : Core) (t r n : Nat) (w : Word) : (c.writeZ t r n w).zeroUntil = c.zeroUntil := rfl

/-! ### Core.store -/

@[simp] theorem Core.store_ctx (c : Core) (a : Nat) (bs : List Byte) : (c.store a bs).ctx = c.ctx := rfl
@[simp] theorem Core.store_lslot (c : Core) (a : Nat) (bs : List Byte) : (c.store a bs).lslot = c.lslot := rfl
@[simp] theorem Core.store_group (c : Core) (a : Nat) (bs : List Byte) : (c.store a bs).group = c.group := rfl
@[simp] theorem Core.store_member (c : Core) (a : Nat) (bs : List Byte) : (c.store a bs).member = c.member := rfl
@[simp] theorem Core.store_lcore (c : Core) (a : Nat) (bs : List Byte) : (c.store a bs).lcore = c.lcore := rfl
@[simp] theorem Core.store_tag (c : Core) (a : Nat) (bs : List Byte) : (c.store a bs).tag = c.tag := rfl
@[simp] theorem Core.store_status (c : Core) (a : Nat) (bs : List Byte) : (c.store a bs).status = c.status := rfl
@[simp] theorem Core.store_haltReq (c : Core) (a : Nat) (bs : List Byte) : (c.store a bs).haltReq = c.haltReq := rfl
@[simp] theorem Core.store_signal (c : Core) (a : Nat) (bs : List Byte) : (c.store a bs).signal = c.signal := rfl
@[simp] theorem Core.store_abort (c : Core) (a : Nat) (bs : List Byte) : (c.store a bs).abort = c.abort := rfl
@[simp] theorem Core.store_dataErr (c : Core) (a : Nat) (bs : List Byte) : (c.store a bs).dataErr = c.dataErr := rfl
@[simp] theorem Core.store_wait (c : Core) (a : Nat) (bs : List Byte) : (c.store a bs).wait = c.wait := rfl
@[simp] theorem Core.store_held (c : Core) (a : Nat) (bs : List Byte) : (c.store a bs).held = c.held := rfl
@[simp] theorem Core.store_readyAt (c : Core) (a : Nat) (bs : List Byte) : (c.store a bs).readyAt = c.readyAt := rfl
@[simp] theorem Core.store_latch (c : Core) (a : Nat) (bs : List Byte) : (c.store a bs).latch = c.latch := rfl
@[simp] theorem Core.store_flagsWord (c : Core) (a : Nat) (bs : List Byte) : (c.store a bs).flagsWord = c.flagsWord := rfl
@[simp] theorem Core.store_link (c : Core) (a : Nat) (bs : List Byte) : (c.store a bs).link = c.link := rfl
@[simp] theorem Core.store_pc (c : Core) (a : Nat) (bs : List Byte) : (c.store a bs).pc = c.pc := rfl
@[simp] theorem Core.store_g (c : Core) (a : Nat) (bs : List Byte) : (c.store a bs).g = c.g := rfl
@[simp] theorem Core.store_a (c : Core) (a : Nat) (bs : List Byte) : (c.store a bs).a = c.a := rfl
@[simp] theorem Core.store_v (c : Core) (a : Nat) (bs : List Byte) : (c.store a bs).v = c.v := rfl
@[simp] theorem Core.store_m (c : Core) (a : Nat) (bs : List Byte) : (c.store a bs).m = c.m := rfl
@[simp] theorem Core.store_z (c : Core) (a : Nat) (bs : List Byte) : (c.store a bs).z = c.z := rfl
@[simp] theorem Core.store_pend (c : Core) (a : Nat) (bs : List Byte) : (c.store a bs).pend = c.pend := rfl
@[simp] theorem Core.store_loops (c : Core) (a : Nat) (bs : List Byte) : (c.store a bs).loops = c.loops := rfl
@[simp] theorem Core.store_aside (c : Core) (a : Nat) (bs : List Byte) : (c.store a bs).aside = c.aside := rfl
@[simp] theorem Core.store_md (c : Core) (a : Nat) (bs : List Byte) : (c.store a bs).md = c.md := rfl
@[simp] theorem Core.store_mdAt (c : Core) (a : Nat) (bs : List Byte) : (c.store a bs).mdAt = c.mdAt := rfl
@[simp] theorem Core.store_frame (c : Core) (a : Nat) (bs : List Byte) : (c.store a bs).frame = c.frame := rfl
@[simp] theorem Core.store_trapFeed (c : Core) (a : Nat) (bs : List Byte) : (c.store a bs).trapFeed = c.trapFeed := rfl
@[simp] theorem Core.store_ops (c : Core) (a : Nat) (bs : List Byte) : (c.store a bs).ops = c.ops := rfl
@[simp] theorem Core.store_handler (c : Core) (a : Nat) (bs : List Byte) : (c.store a bs).handler = c.handler := rfl
@[simp] theorem Core.store_cause (c : Core) (a : Nat) (bs : List Byte) : (c.store a bs).cause = c.cause := rfl
@[simp] theorem Core.store_tpc (c : Core) (a : Nat) (bs : List Byte) : (c.store a bs).tpc = c.tpc := rfl
@[simp] theorem Core.store_tinfo (c : Core) (a : Nat) (bs : List Byte) : (c.store a bs).tinfo = c.tinfo := rfl
@[simp] theorem Core.store_fpflags (c : Core) (a : Nat) (bs : List Byte) : (c.store a bs).fpflags = c.fpflags := rfl
@[simp] theorem Core.store_rmode (c : Core) (a : Nat) (bs : List Byte) : (c.store a bs).rmode = c.rmode := rfl
@[simp] theorem Core.store_bankhash (c : Core) (a : Nat) (bs : List Byte) : (c.store a bs).bankhash = c.bankhash := rfl
@[simp] theorem Core.store_rehashAt (c : Core) (a : Nat) (bs : List Byte) : (c.store a bs).rehashAt = c.rehashAt := rfl
@[simp] theorem Core.store_vshare (c : Core) (a : Nat) (bs : List Byte) : (c.store a bs).vshare = c.vshare := rfl
@[simp] theorem Core.store_pass (c : Core) (a : Nat) (bs : List Byte) : (c.store a bs).pass = c.pass := rfl
@[simp] theorem Core.store_winbind (c : Core) (a : Nat) (bs : List Byte) : (c.store a bs).winbind = c.winbind := rfl
@[simp] theorem Core.store_barmember (c : Core) (a : Nat) (bs : List Byte) : (c.store a bs).barmember = c.barmember := rfl
@[simp] theorem Core.store_gangstat (c : Core) (a : Nat) (bs : List Byte) : (c.store a bs).gangstat = c.gangstat := rfl
@[simp] theorem Core.store_leader (c : Core) (a : Nat) (bs : List Byte) : (c.store a bs).leader = c.leader := rfl
@[simp] theorem Core.store_resVregs (c : Core) (a : Nat) (bs : List Byte) : (c.store a bs).resVregs = c.resVregs := rfl
@[simp] theorem Core.store_resBars (c : Core) (a : Nat) (bs : List Byte) : (c.store a bs).resBars = c.resBars := rfl
@[simp] theorem Core.store_resLocal (c : Core) (a : Nat) (bs : List Byte) : (c.store a bs).resLocal = c.resLocal := rfl
@[simp] theorem Core.store_resMacros (c : Core) (a : Nat) (bs : List Byte) : (c.store a bs).resMacros = c.resMacros := rfl
@[simp] theorem Core.store_pickup (c : Core) (a : Nat) (bs : List Byte) : (c.store a bs).pickup = c.pickup := rfl
@[simp] theorem Core.store_cycle0 (c : Core) (a : Nat) (bs : List Byte) : (c.store a bs).cycle0 = c.cycle0 := rfl
@[simp] theorem Core.store_cycleAdd (c : Core) (a : Nat) (bs : List Byte) : (c.store a bs).cycleAdd = c.cycleAdd := rfl
@[simp] theorem Core.store_step (c : Core) (a : Nat) (bs : List Byte) : (c.store a bs).step = c.step := rfl
@[simp] theorem Core.store_xphase (c : Core) (a : Nat) (bs : List Byte) : (c.store a bs).xphase = c.xphase := rfl
@[simp] theorem Core.store_chan (c : Core) (a : Nat) (bs : List Byte) : (c.store a bs).chan = c.chan := rfl
@[simp] theorem Core.store_nextSlot (c : Core) (a : Nat) (bs : List Byte) : (c.store a bs).nextSlot = c.nextSlot := rfl
@[simp] theorem Core.store_combstat (c : Core) (a : Nat) (bs : List Byte) : (c.store a bs).combstat = c.combstat := rfl
@[simp] theorem Core.store_conflicts (c : Core) (a : Nat) (bs : List Byte) : (c.store a bs).conflicts = c.conflicts := rfl
@[simp] theorem Core.store_banks (c : Core) (a : Nat) (bs : List Byte) : (c.store a bs).banks = c.banks := rfl
@[simp] theorem Core.store_divFree (c : Core) (a : Nat) (bs : List Byte) : (c.store a bs).divFree = c.divFree := rfl
@[simp] theorem Core.store_vq (c : Core) (a : Nat) (bs : List Byte) : (c.store a bs).vq = c.vq := rfl
@[simp] theorem Core.store_vfly (c : Core) (a : Nat) (bs : List Byte) : (c.store a bs).vfly = c.vfly := rfl
@[simp] theorem Core.store_replay (c : Core) (a : Nat) (bs : List Byte) : (c.store a bs).replay = c.replay := rfl
@[simp] theorem Core.store_memBad (c : Core) (a : Nat) (bs : List Byte) : (c.store a bs).memBad = c.memBad := rfl
@[simp] theorem Core.store_retention (c : Core) (a : Nat) (bs : List Byte) : (c.store a bs).retention = c.retention := rfl
@[simp] theorem Core.store_slice (c : Core) (a : Nat) (bs : List Byte) : (c.store a bs).slice = c.slice := rfl
@[simp] theorem Core.store_channels (c : Core) (a : Nat) (bs : List Byte) : (c.store a bs).channels = c.channels := rfl
@[simp] theorem Core.store_serial (c : Core) (a : Nat) (bs : List Byte) : (c.store a bs).serial = c.serial := rfl
@[simp] theorem Core.store_ordered (c : Core) (a : Nat) (bs : List Byte) : (c.store a bs).ordered = c.ordered := rfl
@[simp] theorem Core.store_pattern (c : Core) (a : Nat) (bs : List Byte) : (c.store a bs).pattern = c.pattern := rfl
@[simp] theorem Core.store_tickets (c : Core) (a : Nat) (bs : List Byte) : (c.store a bs).tickets = c.tickets := rfl
@[simp] theorem Core.store_atoms (c : Core) (a : Nat) (bs : List Byte) : (c.store a bs).atoms = c.atoms := rfl
@[simp] theorem Core.store_aseq (c : Core) (a : Nat) (bs : List Byte) : (c.store a bs).aseq = c.aseq := rfl
@[simp] theorem Core.store_aerr (c : Core) (a : Nat) (bs : List Byte) : (c.store a bs).aerr = c.aerr := rfl
@[simp] theorem Core.store_alane (c : Core) (a : Nat) (bs : List Byte) : (c.store a bs).alane = c.alane := rfl
@[simp] theorem Core.store_alaneAt (c : Core) (a : Nat) (bs : List Byte) : (c.store a bs).alaneAt = c.alaneAt := rfl
@[simp] theorem Core.store_alaneArm (c : Core) (a : Nat) (bs : List Byte) : (c.store a bs).alaneArm = c.alaneArm := rfl
@[simp] theorem Core.store_alaneOn (c : Core) (a : Nat) (bs : List Byte) : (c.store a bs).alaneOn = c.alaneOn := rfl
@[simp] theorem Core.store_target (c : Core) (a : Nat) (bs : List Byte) : (c.store a bs).target = c.target := rfl
@[simp] theorem Core.store_arrivals (c : Core) (a : Nat) (bs : List Byte) : (c.store a bs).arrivals = c.arrivals := rfl
@[simp] theorem Core.store_ring (c : Core) (a : Nat) (bs : List Byte) : (c.store a bs).ring = c.ring := rfl
@[simp] theorem Core.store_holders (c : Core) (a : Nat) (bs : List Byte) : (c.store a bs).holders = c.holders := rfl
@[simp] theorem Core.store_sparse (c : Core) (a : Nat) (bs : List Byte) : (c.store a bs).sparse = c.sparse := rfl
@[simp] theorem Core.store_transfers (c : Core) (a : Nat) (bs : List Byte) : (c.store a bs).transfers = c.transfers := rfl
@[simp] theorem Core.store_rcvd (c : Core) (a : Nat) (bs : List Byte) : (c.store a bs).rcvd = c.rcvd := rfl
@[simp] theorem Core.store_quiet (c : Core) (a : Nat) (bs : List Byte) : (c.store a bs).quiet = c.quiet := rfl
@[simp] theorem Core.store_fetchVa (c : Core) (a : Nat) (bs : List Byte) : (c.store a bs).fetchVa = c.fetchVa := rfl
@[simp] theorem Core.store_rendErr (c : Core) (a : Nat) (bs : List Byte) : (c.store a bs).rendErr = c.rendErr := rfl
@[simp] theorem Core.store_fatal (c : Core) (a : Nat) (bs : List Byte) : (c.store a bs).fatal = c.fatal := rfl
@[simp] theorem Core.store_zeroUntil (c : Core) (a : Nat) (bs : List Byte) : (c.store a bs).zeroUntil = c.zeroUntil := rfl

/-! ### Core.wake -/

@[simp] theorem Core.wake_ctx (c : Core) : c.wake.ctx = c.ctx := rfl
@[simp] theorem Core.wake_lslot (c : Core) : c.wake.lslot = c.lslot := rfl
@[simp] theorem Core.wake_group (c : Core) : c.wake.group = c.group := rfl
@[simp] theorem Core.wake_member (c : Core) : c.wake.member = c.member := rfl
@[simp] theorem Core.wake_lcore (c : Core) : c.wake.lcore = c.lcore := rfl
@[simp] theorem Core.wake_tag (c : Core) : c.wake.tag = c.tag := rfl
@[simp] theorem Core.wake_status (c : Core) : c.wake.status = c.status := rfl
@[simp] theorem Core.wake_haltReq (c : Core) : c.wake.haltReq = c.haltReq := rfl
@[simp] theorem Core.wake_signal (c : Core) : c.wake.signal = c.signal := rfl
@[simp] theorem Core.wake_abort (c : Core) : c.wake.abort = c.abort := rfl
@[simp] theorem Core.wake_dataErr (c : Core) : c.wake.dataErr = c.dataErr := rfl
@[simp] theorem Core.wake_wait (c : Core) : c.wake.wait = c.wait := rfl
@[simp] theorem Core.wake_held (c : Core) : c.wake.held = c.held := rfl
@[simp] theorem Core.wake_readyAt (c : Core) : c.wake.readyAt = c.readyAt := rfl
@[simp] theorem Core.wake_flagsWord (c : Core) : c.wake.flagsWord = c.flagsWord := rfl
@[simp] theorem Core.wake_link (c : Core) : c.wake.link = c.link := rfl
@[simp] theorem Core.wake_pc (c : Core) : c.wake.pc = c.pc := rfl
@[simp] theorem Core.wake_g (c : Core) : c.wake.g = c.g := rfl
@[simp] theorem Core.wake_a (c : Core) : c.wake.a = c.a := rfl
@[simp] theorem Core.wake_v (c : Core) : c.wake.v = c.v := rfl
@[simp] theorem Core.wake_m (c : Core) : c.wake.m = c.m := rfl
@[simp] theorem Core.wake_z (c : Core) : c.wake.z = c.z := rfl
@[simp] theorem Core.wake_pend (c : Core) : c.wake.pend = c.pend := rfl
@[simp] theorem Core.wake_loops (c : Core) : c.wake.loops = c.loops := rfl
@[simp] theorem Core.wake_aside (c : Core) : c.wake.aside = c.aside := rfl
@[simp] theorem Core.wake_md (c : Core) : c.wake.md = c.md := rfl
@[simp] theorem Core.wake_mdAt (c : Core) : c.wake.mdAt = c.mdAt := rfl
@[simp] theorem Core.wake_frame (c : Core) : c.wake.frame = c.frame := rfl
@[simp] theorem Core.wake_trapFeed (c : Core) : c.wake.trapFeed = c.trapFeed := rfl
@[simp] theorem Core.wake_ops (c : Core) : c.wake.ops = c.ops := rfl
@[simp] theorem Core.wake_handler (c : Core) : c.wake.handler = c.handler := rfl
@[simp] theorem Core.wake_cause (c : Core) : c.wake.cause = c.cause := rfl
@[simp] theorem Core.wake_tpc (c : Core) : c.wake.tpc = c.tpc := rfl
@[simp] theorem Core.wake_tinfo (c : Core) : c.wake.tinfo = c.tinfo := rfl
@[simp] theorem Core.wake_fpflags (c : Core) : c.wake.fpflags = c.fpflags := rfl
@[simp] theorem Core.wake_rmode (c : Core) : c.wake.rmode = c.rmode := rfl
@[simp] theorem Core.wake_bankhash (c : Core) : c.wake.bankhash = c.bankhash := rfl
@[simp] theorem Core.wake_rehashAt (c : Core) : c.wake.rehashAt = c.rehashAt := rfl
@[simp] theorem Core.wake_vshare (c : Core) : c.wake.vshare = c.vshare := rfl
@[simp] theorem Core.wake_pass (c : Core) : c.wake.pass = c.pass := rfl
@[simp] theorem Core.wake_winbind (c : Core) : c.wake.winbind = c.winbind := rfl
@[simp] theorem Core.wake_barmember (c : Core) : c.wake.barmember = c.barmember := rfl
@[simp] theorem Core.wake_gangstat (c : Core) : c.wake.gangstat = c.gangstat := rfl
@[simp] theorem Core.wake_leader (c : Core) : c.wake.leader = c.leader := rfl
@[simp] theorem Core.wake_resVregs (c : Core) : c.wake.resVregs = c.resVregs := rfl
@[simp] theorem Core.wake_resBars (c : Core) : c.wake.resBars = c.resBars := rfl
@[simp] theorem Core.wake_resLocal (c : Core) : c.wake.resLocal = c.resLocal := rfl
@[simp] theorem Core.wake_resMacros (c : Core) : c.wake.resMacros = c.resMacros := rfl
@[simp] theorem Core.wake_pickup (c : Core) : c.wake.pickup = c.pickup := rfl
@[simp] theorem Core.wake_cycle0 (c : Core) : c.wake.cycle0 = c.cycle0 := rfl
@[simp] theorem Core.wake_cycleAdd (c : Core) : c.wake.cycleAdd = c.cycleAdd := rfl
@[simp] theorem Core.wake_step (c : Core) : c.wake.step = c.step := rfl
@[simp] theorem Core.wake_xphase (c : Core) : c.wake.xphase = c.xphase := rfl
@[simp] theorem Core.wake_chan (c : Core) : c.wake.chan = c.chan := rfl
@[simp] theorem Core.wake_nextSlot (c : Core) : c.wake.nextSlot = c.nextSlot := rfl
@[simp] theorem Core.wake_combstat (c : Core) : c.wake.combstat = c.combstat := rfl
@[simp] theorem Core.wake_conflicts (c : Core) : c.wake.conflicts = c.conflicts := rfl
@[simp] theorem Core.wake_banks (c : Core) : c.wake.banks = c.banks := rfl
@[simp] theorem Core.wake_divFree (c : Core) : c.wake.divFree = c.divFree := rfl
@[simp] theorem Core.wake_vq (c : Core) : c.wake.vq = c.vq := rfl
@[simp] theorem Core.wake_vfly (c : Core) : c.wake.vfly = c.vfly := rfl
@[simp] theorem Core.wake_replay (c : Core) : c.wake.replay = c.replay := rfl
@[simp] theorem Core.wake_mem (c : Core) : c.wake.mem = c.mem := rfl
@[simp] theorem Core.wake_memBad (c : Core) : c.wake.memBad = c.memBad := rfl
@[simp] theorem Core.wake_retention (c : Core) : c.wake.retention = c.retention := rfl
@[simp] theorem Core.wake_slice (c : Core) : c.wake.slice = c.slice := rfl
@[simp] theorem Core.wake_channels (c : Core) : c.wake.channels = c.channels := rfl
@[simp] theorem Core.wake_serial (c : Core) : c.wake.serial = c.serial := rfl
@[simp] theorem Core.wake_ordered (c : Core) : c.wake.ordered = c.ordered := rfl
@[simp] theorem Core.wake_pattern (c : Core) : c.wake.pattern = c.pattern := rfl
@[simp] theorem Core.wake_tickets (c : Core) : c.wake.tickets = c.tickets := rfl
@[simp] theorem Core.wake_atoms (c : Core) : c.wake.atoms = c.atoms := rfl
@[simp] theorem Core.wake_aseq (c : Core) : c.wake.aseq = c.aseq := rfl
@[simp] theorem Core.wake_aerr (c : Core) : c.wake.aerr = c.aerr := rfl
@[simp] theorem Core.wake_alane (c : Core) : c.wake.alane = c.alane := rfl
@[simp] theorem Core.wake_alaneAt (c : Core) : c.wake.alaneAt = c.alaneAt := rfl
@[simp] theorem Core.wake_alaneArm (c : Core) : c.wake.alaneArm = c.alaneArm := rfl
@[simp] theorem Core.wake_alaneOn (c : Core) : c.wake.alaneOn = c.alaneOn := rfl
@[simp] theorem Core.wake_target (c : Core) : c.wake.target = c.target := rfl
@[simp] theorem Core.wake_arrivals (c : Core) : c.wake.arrivals = c.arrivals := rfl
@[simp] theorem Core.wake_ring (c : Core) : c.wake.ring = c.ring := rfl
@[simp] theorem Core.wake_holders (c : Core) : c.wake.holders = c.holders := rfl
@[simp] theorem Core.wake_binding (c : Core) : c.wake.binding = c.binding := rfl
@[simp] theorem Core.wake_sparse (c : Core) : c.wake.sparse = c.sparse := rfl
@[simp] theorem Core.wake_transfers (c : Core) : c.wake.transfers = c.transfers := rfl
@[simp] theorem Core.wake_rcvd (c : Core) : c.wake.rcvd = c.rcvd := rfl
@[simp] theorem Core.wake_quiet (c : Core) : c.wake.quiet = c.quiet := rfl
@[simp] theorem Core.wake_fetchVa (c : Core) : c.wake.fetchVa = c.fetchVa := rfl
@[simp] theorem Core.wake_rendErr (c : Core) : c.wake.rendErr = c.rendErr := rfl
@[simp] theorem Core.wake_fatal (c : Core) : c.wake.fatal = c.fatal := rfl
@[simp] theorem Core.wake_zeroUntil (c : Core) : c.wake.zeroUntil = c.zeroUntil := rfl

/-! ### Core.fall -/

@[simp] theorem Core.fall_ctx (c : Core) (p : Word) : (c.fall p).ctx = c.ctx := rfl
@[simp] theorem Core.fall_lslot (c : Core) (p : Word) : (c.fall p).lslot = c.lslot := rfl
@[simp] theorem Core.fall_group (c : Core) (p : Word) : (c.fall p).group = c.group := rfl
@[simp] theorem Core.fall_member (c : Core) (p : Word) : (c.fall p).member = c.member := rfl
@[simp] theorem Core.fall_lcore (c : Core) (p : Word) : (c.fall p).lcore = c.lcore := rfl
@[simp] theorem Core.fall_tag (c : Core) (p : Word) : (c.fall p).tag = c.tag := rfl
@[simp] theorem Core.fall_status (c : Core) (p : Word) : (c.fall p).status = c.status := rfl
@[simp] theorem Core.fall_haltReq (c : Core) (p : Word) : (c.fall p).haltReq = c.haltReq := rfl
@[simp] theorem Core.fall_signal (c : Core) (p : Word) : (c.fall p).signal = c.signal := rfl
@[simp] theorem Core.fall_abort (c : Core) (p : Word) : (c.fall p).abort = c.abort := rfl
@[simp] theorem Core.fall_dataErr (c : Core) (p : Word) : (c.fall p).dataErr = c.dataErr := rfl
@[simp] theorem Core.fall_wait (c : Core) (p : Word) : (c.fall p).wait = c.wait := rfl
@[simp] theorem Core.fall_held (c : Core) (p : Word) : (c.fall p).held = c.held := rfl
@[simp] theorem Core.fall_readyAt (c : Core) (p : Word) : (c.fall p).readyAt = c.readyAt := rfl
@[simp] theorem Core.fall_latch (c : Core) (p : Word) : (c.fall p).latch = c.latch := rfl
@[simp] theorem Core.fall_flagsWord (c : Core) (p : Word) : (c.fall p).flagsWord = c.flagsWord := rfl
@[simp] theorem Core.fall_link (c : Core) (p : Word) : (c.fall p).link = c.link := rfl
@[simp] theorem Core.fall_g (c : Core) (p : Word) : (c.fall p).g = c.g := rfl
@[simp] theorem Core.fall_a (c : Core) (p : Word) : (c.fall p).a = c.a := rfl
@[simp] theorem Core.fall_v (c : Core) (p : Word) : (c.fall p).v = c.v := rfl
@[simp] theorem Core.fall_m (c : Core) (p : Word) : (c.fall p).m = c.m := rfl
@[simp] theorem Core.fall_z (c : Core) (p : Word) : (c.fall p).z = c.z := rfl
@[simp] theorem Core.fall_pend (c : Core) (p : Word) : (c.fall p).pend = c.pend := rfl
@[simp] theorem Core.fall_aside (c : Core) (p : Word) : (c.fall p).aside = c.aside := rfl
@[simp] theorem Core.fall_md (c : Core) (p : Word) : (c.fall p).md = c.md := rfl
@[simp] theorem Core.fall_mdAt (c : Core) (p : Word) : (c.fall p).mdAt = c.mdAt := rfl
@[simp] theorem Core.fall_frame (c : Core) (p : Word) : (c.fall p).frame = c.frame := rfl
@[simp] theorem Core.fall_trapFeed (c : Core) (p : Word) : (c.fall p).trapFeed = c.trapFeed := rfl
@[simp] theorem Core.fall_ops (c : Core) (p : Word) : (c.fall p).ops = c.ops := rfl
@[simp] theorem Core.fall_handler (c : Core) (p : Word) : (c.fall p).handler = c.handler := rfl
@[simp] theorem Core.fall_cause (c : Core) (p : Word) : (c.fall p).cause = c.cause := rfl
@[simp] theorem Core.fall_tpc (c : Core) (p : Word) : (c.fall p).tpc = c.tpc := rfl
@[simp] theorem Core.fall_tinfo (c : Core) (p : Word) : (c.fall p).tinfo = c.tinfo := rfl
@[simp] theorem Core.fall_fpflags (c : Core) (p : Word) : (c.fall p).fpflags = c.fpflags := rfl
@[simp] theorem Core.fall_rmode (c : Core) (p : Word) : (c.fall p).rmode = c.rmode := rfl
@[simp] theorem Core.fall_bankhash (c : Core) (p : Word) : (c.fall p).bankhash = c.bankhash := rfl
@[simp] theorem Core.fall_rehashAt (c : Core) (p : Word) : (c.fall p).rehashAt = c.rehashAt := rfl
@[simp] theorem Core.fall_vshare (c : Core) (p : Word) : (c.fall p).vshare = c.vshare := rfl
@[simp] theorem Core.fall_pass (c : Core) (p : Word) : (c.fall p).pass = c.pass := rfl
@[simp] theorem Core.fall_winbind (c : Core) (p : Word) : (c.fall p).winbind = c.winbind := rfl
@[simp] theorem Core.fall_barmember (c : Core) (p : Word) : (c.fall p).barmember = c.barmember := rfl
@[simp] theorem Core.fall_gangstat (c : Core) (p : Word) : (c.fall p).gangstat = c.gangstat := rfl
@[simp] theorem Core.fall_leader (c : Core) (p : Word) : (c.fall p).leader = c.leader := rfl
@[simp] theorem Core.fall_resVregs (c : Core) (p : Word) : (c.fall p).resVregs = c.resVregs := rfl
@[simp] theorem Core.fall_resBars (c : Core) (p : Word) : (c.fall p).resBars = c.resBars := rfl
@[simp] theorem Core.fall_resLocal (c : Core) (p : Word) : (c.fall p).resLocal = c.resLocal := rfl
@[simp] theorem Core.fall_resMacros (c : Core) (p : Word) : (c.fall p).resMacros = c.resMacros := rfl
@[simp] theorem Core.fall_pickup (c : Core) (p : Word) : (c.fall p).pickup = c.pickup := rfl
@[simp] theorem Core.fall_cycle0 (c : Core) (p : Word) : (c.fall p).cycle0 = c.cycle0 := rfl
@[simp] theorem Core.fall_cycleAdd (c : Core) (p : Word) : (c.fall p).cycleAdd = c.cycleAdd := rfl
@[simp] theorem Core.fall_step (c : Core) (p : Word) : (c.fall p).step = c.step := rfl
@[simp] theorem Core.fall_xphase (c : Core) (p : Word) : (c.fall p).xphase = c.xphase := rfl
@[simp] theorem Core.fall_chan (c : Core) (p : Word) : (c.fall p).chan = c.chan := rfl
@[simp] theorem Core.fall_nextSlot (c : Core) (p : Word) : (c.fall p).nextSlot = c.nextSlot := rfl
@[simp] theorem Core.fall_combstat (c : Core) (p : Word) : (c.fall p).combstat = c.combstat := rfl
@[simp] theorem Core.fall_conflicts (c : Core) (p : Word) : (c.fall p).conflicts = c.conflicts := rfl
@[simp] theorem Core.fall_banks (c : Core) (p : Word) : (c.fall p).banks = c.banks := rfl
@[simp] theorem Core.fall_divFree (c : Core) (p : Word) : (c.fall p).divFree = c.divFree := rfl
@[simp] theorem Core.fall_vq (c : Core) (p : Word) : (c.fall p).vq = c.vq := rfl
@[simp] theorem Core.fall_vfly (c : Core) (p : Word) : (c.fall p).vfly = c.vfly := rfl
@[simp] theorem Core.fall_replay (c : Core) (p : Word) : (c.fall p).replay = c.replay := rfl
@[simp] theorem Core.fall_mem (c : Core) (p : Word) : (c.fall p).mem = c.mem := rfl
@[simp] theorem Core.fall_memBad (c : Core) (p : Word) : (c.fall p).memBad = c.memBad := rfl
@[simp] theorem Core.fall_retention (c : Core) (p : Word) : (c.fall p).retention = c.retention := rfl
@[simp] theorem Core.fall_slice (c : Core) (p : Word) : (c.fall p).slice = c.slice := rfl
@[simp] theorem Core.fall_channels (c : Core) (p : Word) : (c.fall p).channels = c.channels := rfl
@[simp] theorem Core.fall_serial (c : Core) (p : Word) : (c.fall p).serial = c.serial := rfl
@[simp] theorem Core.fall_ordered (c : Core) (p : Word) : (c.fall p).ordered = c.ordered := rfl
@[simp] theorem Core.fall_pattern (c : Core) (p : Word) : (c.fall p).pattern = c.pattern := rfl
@[simp] theorem Core.fall_tickets (c : Core) (p : Word) : (c.fall p).tickets = c.tickets := rfl
@[simp] theorem Core.fall_atoms (c : Core) (p : Word) : (c.fall p).atoms = c.atoms := rfl
@[simp] theorem Core.fall_aseq (c : Core) (p : Word) : (c.fall p).aseq = c.aseq := rfl
@[simp] theorem Core.fall_aerr (c : Core) (p : Word) : (c.fall p).aerr = c.aerr := rfl
@[simp] theorem Core.fall_alane (c : Core) (p : Word) : (c.fall p).alane = c.alane := rfl
@[simp] theorem Core.fall_alaneAt (c : Core) (p : Word) : (c.fall p).alaneAt = c.alaneAt := rfl
@[simp] theorem Core.fall_alaneArm (c : Core) (p : Word) : (c.fall p).alaneArm = c.alaneArm := rfl
@[simp] theorem Core.fall_alaneOn (c : Core) (p : Word) : (c.fall p).alaneOn = c.alaneOn := rfl
@[simp] theorem Core.fall_target (c : Core) (p : Word) : (c.fall p).target = c.target := rfl
@[simp] theorem Core.fall_arrivals (c : Core) (p : Word) : (c.fall p).arrivals = c.arrivals := rfl
@[simp] theorem Core.fall_ring (c : Core) (p : Word) : (c.fall p).ring = c.ring := rfl
@[simp] theorem Core.fall_holders (c : Core) (p : Word) : (c.fall p).holders = c.holders := rfl
@[simp] theorem Core.fall_binding (c : Core) (p : Word) : (c.fall p).binding = c.binding := rfl
@[simp] theorem Core.fall_sparse (c : Core) (p : Word) : (c.fall p).sparse = c.sparse := rfl
@[simp] theorem Core.fall_transfers (c : Core) (p : Word) : (c.fall p).transfers = c.transfers := rfl
@[simp] theorem Core.fall_rcvd (c : Core) (p : Word) : (c.fall p).rcvd = c.rcvd := rfl
@[simp] theorem Core.fall_quiet (c : Core) (p : Word) : (c.fall p).quiet = c.quiet := rfl
@[simp] theorem Core.fall_fetchVa (c : Core) (p : Word) : (c.fall p).fetchVa = c.fetchVa := rfl
@[simp] theorem Core.fall_rendErr (c : Core) (p : Word) : (c.fall p).rendErr = c.rendErr := rfl
@[simp] theorem Core.fall_fatal (c : Core) (p : Word) : (c.fall p).fatal = c.fatal := rfl
@[simp] theorem Core.fall_zeroUntil (c : Core) (p : Word) : (c.fall p).zeroUntil = c.zeroUntil := rfl

/-! ### Core.transfer -/

@[simp] theorem Core.transfer_ctx (c : Core) (t : Word) : (c.transfer t).ctx = c.ctx := rfl
@[simp] theorem Core.transfer_lslot (c : Core) (t : Word) : (c.transfer t).lslot = c.lslot := rfl
@[simp] theorem Core.transfer_group (c : Core) (t : Word) : (c.transfer t).group = c.group := rfl
@[simp] theorem Core.transfer_member (c : Core) (t : Word) : (c.transfer t).member = c.member := rfl
@[simp] theorem Core.transfer_lcore (c : Core) (t : Word) : (c.transfer t).lcore = c.lcore := rfl
@[simp] theorem Core.transfer_tag (c : Core) (t : Word) : (c.transfer t).tag = c.tag := rfl
@[simp] theorem Core.transfer_status (c : Core) (t : Word) : (c.transfer t).status = c.status := rfl
@[simp] theorem Core.transfer_haltReq (c : Core) (t : Word) : (c.transfer t).haltReq = c.haltReq := rfl
@[simp] theorem Core.transfer_signal (c : Core) (t : Word) : (c.transfer t).signal = c.signal := rfl
@[simp] theorem Core.transfer_abort (c : Core) (t : Word) : (c.transfer t).abort = c.abort := rfl
@[simp] theorem Core.transfer_dataErr (c : Core) (t : Word) : (c.transfer t).dataErr = c.dataErr := rfl
@[simp] theorem Core.transfer_wait (c : Core) (t : Word) : (c.transfer t).wait = c.wait := rfl
@[simp] theorem Core.transfer_held (c : Core) (t : Word) : (c.transfer t).held = c.held := rfl
@[simp] theorem Core.transfer_readyAt (c : Core) (t : Word) : (c.transfer t).readyAt = c.readyAt := rfl
@[simp] theorem Core.transfer_latch (c : Core) (t : Word) : (c.transfer t).latch = c.latch := rfl
@[simp] theorem Core.transfer_flagsWord (c : Core) (t : Word) : (c.transfer t).flagsWord = c.flagsWord := rfl
@[simp] theorem Core.transfer_link (c : Core) (t : Word) : (c.transfer t).link = c.link := rfl
@[simp] theorem Core.transfer_g (c : Core) (t : Word) : (c.transfer t).g = c.g := rfl
@[simp] theorem Core.transfer_a (c : Core) (t : Word) : (c.transfer t).a = c.a := rfl
@[simp] theorem Core.transfer_v (c : Core) (t : Word) : (c.transfer t).v = c.v := rfl
@[simp] theorem Core.transfer_m (c : Core) (t : Word) : (c.transfer t).m = c.m := rfl
@[simp] theorem Core.transfer_z (c : Core) (t : Word) : (c.transfer t).z = c.z := rfl
@[simp] theorem Core.transfer_pend (c : Core) (t : Word) : (c.transfer t).pend = c.pend := rfl
@[simp] theorem Core.transfer_aside (c : Core) (t : Word) : (c.transfer t).aside = c.aside := rfl
@[simp] theorem Core.transfer_md (c : Core) (t : Word) : (c.transfer t).md = c.md := rfl
@[simp] theorem Core.transfer_mdAt (c : Core) (t : Word) : (c.transfer t).mdAt = c.mdAt := rfl
@[simp] theorem Core.transfer_frame (c : Core) (t : Word) : (c.transfer t).frame = c.frame := rfl
@[simp] theorem Core.transfer_trapFeed (c : Core) (t : Word) : (c.transfer t).trapFeed = c.trapFeed := rfl
@[simp] theorem Core.transfer_ops (c : Core) (t : Word) : (c.transfer t).ops = c.ops := rfl
@[simp] theorem Core.transfer_handler (c : Core) (t : Word) : (c.transfer t).handler = c.handler := rfl
@[simp] theorem Core.transfer_cause (c : Core) (t : Word) : (c.transfer t).cause = c.cause := rfl
@[simp] theorem Core.transfer_tpc (c : Core) (t : Word) : (c.transfer t).tpc = c.tpc := rfl
@[simp] theorem Core.transfer_tinfo (c : Core) (t : Word) : (c.transfer t).tinfo = c.tinfo := rfl
@[simp] theorem Core.transfer_fpflags (c : Core) (t : Word) : (c.transfer t).fpflags = c.fpflags := rfl
@[simp] theorem Core.transfer_rmode (c : Core) (t : Word) : (c.transfer t).rmode = c.rmode := rfl
@[simp] theorem Core.transfer_bankhash (c : Core) (t : Word) : (c.transfer t).bankhash = c.bankhash := rfl
@[simp] theorem Core.transfer_rehashAt (c : Core) (t : Word) : (c.transfer t).rehashAt = c.rehashAt := rfl
@[simp] theorem Core.transfer_vshare (c : Core) (t : Word) : (c.transfer t).vshare = c.vshare := rfl
@[simp] theorem Core.transfer_pass (c : Core) (t : Word) : (c.transfer t).pass = c.pass := rfl
@[simp] theorem Core.transfer_winbind (c : Core) (t : Word) : (c.transfer t).winbind = c.winbind := rfl
@[simp] theorem Core.transfer_barmember (c : Core) (t : Word) : (c.transfer t).barmember = c.barmember := rfl
@[simp] theorem Core.transfer_gangstat (c : Core) (t : Word) : (c.transfer t).gangstat = c.gangstat := rfl
@[simp] theorem Core.transfer_leader (c : Core) (t : Word) : (c.transfer t).leader = c.leader := rfl
@[simp] theorem Core.transfer_resVregs (c : Core) (t : Word) : (c.transfer t).resVregs = c.resVregs := rfl
@[simp] theorem Core.transfer_resBars (c : Core) (t : Word) : (c.transfer t).resBars = c.resBars := rfl
@[simp] theorem Core.transfer_resLocal (c : Core) (t : Word) : (c.transfer t).resLocal = c.resLocal := rfl
@[simp] theorem Core.transfer_resMacros (c : Core) (t : Word) : (c.transfer t).resMacros = c.resMacros := rfl
@[simp] theorem Core.transfer_pickup (c : Core) (t : Word) : (c.transfer t).pickup = c.pickup := rfl
@[simp] theorem Core.transfer_cycle0 (c : Core) (t : Word) : (c.transfer t).cycle0 = c.cycle0 := rfl
@[simp] theorem Core.transfer_cycleAdd (c : Core) (t : Word) : (c.transfer t).cycleAdd = c.cycleAdd := rfl
@[simp] theorem Core.transfer_step (c : Core) (t : Word) : (c.transfer t).step = c.step := rfl
@[simp] theorem Core.transfer_xphase (c : Core) (t : Word) : (c.transfer t).xphase = c.xphase := rfl
@[simp] theorem Core.transfer_chan (c : Core) (t : Word) : (c.transfer t).chan = c.chan := rfl
@[simp] theorem Core.transfer_nextSlot (c : Core) (t : Word) : (c.transfer t).nextSlot = c.nextSlot := rfl
@[simp] theorem Core.transfer_combstat (c : Core) (t : Word) : (c.transfer t).combstat = c.combstat := rfl
@[simp] theorem Core.transfer_conflicts (c : Core) (t : Word) : (c.transfer t).conflicts = c.conflicts := rfl
@[simp] theorem Core.transfer_banks (c : Core) (t : Word) : (c.transfer t).banks = c.banks := rfl
@[simp] theorem Core.transfer_divFree (c : Core) (t : Word) : (c.transfer t).divFree = c.divFree := rfl
@[simp] theorem Core.transfer_vq (c : Core) (t : Word) : (c.transfer t).vq = c.vq := rfl
@[simp] theorem Core.transfer_vfly (c : Core) (t : Word) : (c.transfer t).vfly = c.vfly := rfl
@[simp] theorem Core.transfer_replay (c : Core) (t : Word) : (c.transfer t).replay = c.replay := rfl
@[simp] theorem Core.transfer_mem (c : Core) (t : Word) : (c.transfer t).mem = c.mem := rfl
@[simp] theorem Core.transfer_memBad (c : Core) (t : Word) : (c.transfer t).memBad = c.memBad := rfl
@[simp] theorem Core.transfer_retention (c : Core) (t : Word) : (c.transfer t).retention = c.retention := rfl
@[simp] theorem Core.transfer_slice (c : Core) (t : Word) : (c.transfer t).slice = c.slice := rfl
@[simp] theorem Core.transfer_channels (c : Core) (t : Word) : (c.transfer t).channels = c.channels := rfl
@[simp] theorem Core.transfer_serial (c : Core) (t : Word) : (c.transfer t).serial = c.serial := rfl
@[simp] theorem Core.transfer_ordered (c : Core) (t : Word) : (c.transfer t).ordered = c.ordered := rfl
@[simp] theorem Core.transfer_pattern (c : Core) (t : Word) : (c.transfer t).pattern = c.pattern := rfl
@[simp] theorem Core.transfer_tickets (c : Core) (t : Word) : (c.transfer t).tickets = c.tickets := rfl
@[simp] theorem Core.transfer_atoms (c : Core) (t : Word) : (c.transfer t).atoms = c.atoms := rfl
@[simp] theorem Core.transfer_aseq (c : Core) (t : Word) : (c.transfer t).aseq = c.aseq := rfl
@[simp] theorem Core.transfer_aerr (c : Core) (t : Word) : (c.transfer t).aerr = c.aerr := rfl
@[simp] theorem Core.transfer_alane (c : Core) (t : Word) : (c.transfer t).alane = c.alane := rfl
@[simp] theorem Core.transfer_alaneAt (c : Core) (t : Word) : (c.transfer t).alaneAt = c.alaneAt := rfl
@[simp] theorem Core.transfer_alaneArm (c : Core) (t : Word) : (c.transfer t).alaneArm = c.alaneArm := rfl
@[simp] theorem Core.transfer_alaneOn (c : Core) (t : Word) : (c.transfer t).alaneOn = c.alaneOn := rfl
@[simp] theorem Core.transfer_target (c : Core) (t : Word) : (c.transfer t).target = c.target := rfl
@[simp] theorem Core.transfer_arrivals (c : Core) (t : Word) : (c.transfer t).arrivals = c.arrivals := rfl
@[simp] theorem Core.transfer_ring (c : Core) (t : Word) : (c.transfer t).ring = c.ring := rfl
@[simp] theorem Core.transfer_holders (c : Core) (t : Word) : (c.transfer t).holders = c.holders := rfl
@[simp] theorem Core.transfer_binding (c : Core) (t : Word) : (c.transfer t).binding = c.binding := rfl
@[simp] theorem Core.transfer_sparse (c : Core) (t : Word) : (c.transfer t).sparse = c.sparse := rfl
@[simp] theorem Core.transfer_transfers (c : Core) (t : Word) : (c.transfer t).transfers = c.transfers := rfl
@[simp] theorem Core.transfer_rcvd (c : Core) (t : Word) : (c.transfer t).rcvd = c.rcvd := rfl
@[simp] theorem Core.transfer_quiet (c : Core) (t : Word) : (c.transfer t).quiet = c.quiet := rfl
@[simp] theorem Core.transfer_fetchVa (c : Core) (t : Word) : (c.transfer t).fetchVa = c.fetchVa := rfl
@[simp] theorem Core.transfer_rendErr (c : Core) (t : Word) : (c.transfer t).rendErr = c.rendErr := rfl
@[simp] theorem Core.transfer_fatal (c : Core) (t : Word) : (c.transfer t).fatal = c.fatal := rfl
@[simp] theorem Core.transfer_zeroUntil (c : Core) (t : Word) : (c.transfer t).zeroUntil = c.zeroUntil := rfl

/-! ### Core.landDue -/

@[simp] theorem Core.landDue_ctx (c : Core) (t : Nat) : (c.landDue t).ctx = c.ctx := by
  rw [Core.landDue_eq]
@[simp] theorem Core.landDue_lslot (c : Core) (t : Nat) : (c.landDue t).lslot = c.lslot := by
  rw [Core.landDue_eq]
@[simp] theorem Core.landDue_group (c : Core) (t : Nat) : (c.landDue t).group = c.group := by
  rw [Core.landDue_eq]
@[simp] theorem Core.landDue_member (c : Core) (t : Nat) : (c.landDue t).member = c.member := by
  rw [Core.landDue_eq]
@[simp] theorem Core.landDue_lcore (c : Core) (t : Nat) : (c.landDue t).lcore = c.lcore := by
  rw [Core.landDue_eq]
@[simp] theorem Core.landDue_tag (c : Core) (t : Nat) : (c.landDue t).tag = c.tag := by
  rw [Core.landDue_eq]
@[simp] theorem Core.landDue_status (c : Core) (t : Nat) : (c.landDue t).status = c.status := by
  rw [Core.landDue_eq]
@[simp] theorem Core.landDue_haltReq (c : Core) (t : Nat) : (c.landDue t).haltReq = c.haltReq := by
  rw [Core.landDue_eq]
@[simp] theorem Core.landDue_signal (c : Core) (t : Nat) : (c.landDue t).signal = c.signal := by
  rw [Core.landDue_eq]
@[simp] theorem Core.landDue_abort (c : Core) (t : Nat) : (c.landDue t).abort = c.abort := by
  rw [Core.landDue_eq]
@[simp] theorem Core.landDue_dataErr (c : Core) (t : Nat) : (c.landDue t).dataErr = c.dataErr := by
  rw [Core.landDue_eq]
@[simp] theorem Core.landDue_wait (c : Core) (t : Nat) : (c.landDue t).wait = c.wait := by
  rw [Core.landDue_eq]
@[simp] theorem Core.landDue_held (c : Core) (t : Nat) : (c.landDue t).held = c.held := by
  rw [Core.landDue_eq]
@[simp] theorem Core.landDue_readyAt (c : Core) (t : Nat) : (c.landDue t).readyAt = c.readyAt := by
  rw [Core.landDue_eq]
@[simp] theorem Core.landDue_latch (c : Core) (t : Nat) : (c.landDue t).latch = c.latch := by
  rw [Core.landDue_eq]
@[simp] theorem Core.landDue_flagsWord (c : Core) (t : Nat) : (c.landDue t).flagsWord = c.flagsWord := by
  rw [Core.landDue_eq]
@[simp] theorem Core.landDue_link (c : Core) (t : Nat) : (c.landDue t).link = c.link := by
  rw [Core.landDue_eq]
@[simp] theorem Core.landDue_pc (c : Core) (t : Nat) : (c.landDue t).pc = c.pc := by
  rw [Core.landDue_eq]
@[simp] theorem Core.landDue_a (c : Core) (t : Nat) : (c.landDue t).a = c.a := by
  rw [Core.landDue_eq]
@[simp] theorem Core.landDue_v (c : Core) (t : Nat) : (c.landDue t).v = c.v := by
  rw [Core.landDue_eq]
@[simp] theorem Core.landDue_m (c : Core) (t : Nat) : (c.landDue t).m = c.m := by
  rw [Core.landDue_eq]
@[simp] theorem Core.landDue_z (c : Core) (t : Nat) : (c.landDue t).z = c.z := by
  rw [Core.landDue_eq]
@[simp] theorem Core.landDue_loops (c : Core) (t : Nat) : (c.landDue t).loops = c.loops := by
  rw [Core.landDue_eq]
@[simp] theorem Core.landDue_aside (c : Core) (t : Nat) : (c.landDue t).aside = c.aside := by
  rw [Core.landDue_eq]
@[simp] theorem Core.landDue_md (c : Core) (t : Nat) : (c.landDue t).md = c.md := by
  rw [Core.landDue_eq]
@[simp] theorem Core.landDue_mdAt (c : Core) (t : Nat) : (c.landDue t).mdAt = c.mdAt := by
  rw [Core.landDue_eq]
@[simp] theorem Core.landDue_frame (c : Core) (t : Nat) : (c.landDue t).frame = c.frame := by
  rw [Core.landDue_eq]
@[simp] theorem Core.landDue_trapFeed (c : Core) (t : Nat) : (c.landDue t).trapFeed = c.trapFeed := by
  rw [Core.landDue_eq]
@[simp] theorem Core.landDue_ops (c : Core) (t : Nat) : (c.landDue t).ops = c.ops := by
  rw [Core.landDue_eq]
@[simp] theorem Core.landDue_handler (c : Core) (t : Nat) : (c.landDue t).handler = c.handler := by
  rw [Core.landDue_eq]
@[simp] theorem Core.landDue_cause (c : Core) (t : Nat) : (c.landDue t).cause = c.cause := by
  rw [Core.landDue_eq]
@[simp] theorem Core.landDue_tpc (c : Core) (t : Nat) : (c.landDue t).tpc = c.tpc := by
  rw [Core.landDue_eq]
@[simp] theorem Core.landDue_tinfo (c : Core) (t : Nat) : (c.landDue t).tinfo = c.tinfo := by
  rw [Core.landDue_eq]
@[simp] theorem Core.landDue_fpflags (c : Core) (t : Nat) : (c.landDue t).fpflags = c.fpflags := by
  rw [Core.landDue_eq]
@[simp] theorem Core.landDue_rmode (c : Core) (t : Nat) : (c.landDue t).rmode = c.rmode := by
  rw [Core.landDue_eq]
@[simp] theorem Core.landDue_bankhash (c : Core) (t : Nat) : (c.landDue t).bankhash = c.bankhash := by
  rw [Core.landDue_eq]
@[simp] theorem Core.landDue_rehashAt (c : Core) (t : Nat) : (c.landDue t).rehashAt = c.rehashAt := by
  rw [Core.landDue_eq]
@[simp] theorem Core.landDue_vshare (c : Core) (t : Nat) : (c.landDue t).vshare = c.vshare := by
  rw [Core.landDue_eq]
@[simp] theorem Core.landDue_pass (c : Core) (t : Nat) : (c.landDue t).pass = c.pass := by
  rw [Core.landDue_eq]
@[simp] theorem Core.landDue_winbind (c : Core) (t : Nat) : (c.landDue t).winbind = c.winbind := by
  rw [Core.landDue_eq]
@[simp] theorem Core.landDue_barmember (c : Core) (t : Nat) : (c.landDue t).barmember = c.barmember := by
  rw [Core.landDue_eq]
@[simp] theorem Core.landDue_gangstat (c : Core) (t : Nat) : (c.landDue t).gangstat = c.gangstat := by
  rw [Core.landDue_eq]
@[simp] theorem Core.landDue_leader (c : Core) (t : Nat) : (c.landDue t).leader = c.leader := by
  rw [Core.landDue_eq]
@[simp] theorem Core.landDue_resVregs (c : Core) (t : Nat) : (c.landDue t).resVregs = c.resVregs := by
  rw [Core.landDue_eq]
@[simp] theorem Core.landDue_resBars (c : Core) (t : Nat) : (c.landDue t).resBars = c.resBars := by
  rw [Core.landDue_eq]
@[simp] theorem Core.landDue_resLocal (c : Core) (t : Nat) : (c.landDue t).resLocal = c.resLocal := by
  rw [Core.landDue_eq]
@[simp] theorem Core.landDue_resMacros (c : Core) (t : Nat) : (c.landDue t).resMacros = c.resMacros := by
  rw [Core.landDue_eq]
@[simp] theorem Core.landDue_pickup (c : Core) (t : Nat) : (c.landDue t).pickup = c.pickup := by
  rw [Core.landDue_eq]
@[simp] theorem Core.landDue_cycle0 (c : Core) (t : Nat) : (c.landDue t).cycle0 = c.cycle0 := by
  rw [Core.landDue_eq]
@[simp] theorem Core.landDue_cycleAdd (c : Core) (t : Nat) : (c.landDue t).cycleAdd = c.cycleAdd := by
  rw [Core.landDue_eq]
@[simp] theorem Core.landDue_step (c : Core) (t : Nat) : (c.landDue t).step = c.step := by
  rw [Core.landDue_eq]
@[simp] theorem Core.landDue_xphase (c : Core) (t : Nat) : (c.landDue t).xphase = c.xphase := by
  rw [Core.landDue_eq]
@[simp] theorem Core.landDue_chan (c : Core) (t : Nat) : (c.landDue t).chan = c.chan := by
  rw [Core.landDue_eq]
@[simp] theorem Core.landDue_nextSlot (c : Core) (t : Nat) : (c.landDue t).nextSlot = c.nextSlot := by
  rw [Core.landDue_eq]
@[simp] theorem Core.landDue_combstat (c : Core) (t : Nat) : (c.landDue t).combstat = c.combstat := by
  rw [Core.landDue_eq]
@[simp] theorem Core.landDue_conflicts (c : Core) (t : Nat) : (c.landDue t).conflicts = c.conflicts := by
  rw [Core.landDue_eq]
@[simp] theorem Core.landDue_banks (c : Core) (t : Nat) : (c.landDue t).banks = c.banks := by
  rw [Core.landDue_eq]
@[simp] theorem Core.landDue_divFree (c : Core) (t : Nat) : (c.landDue t).divFree = c.divFree := by
  rw [Core.landDue_eq]
@[simp] theorem Core.landDue_vq (c : Core) (t : Nat) : (c.landDue t).vq = c.vq := by
  rw [Core.landDue_eq]
@[simp] theorem Core.landDue_vfly (c : Core) (t : Nat) : (c.landDue t).vfly = c.vfly := by
  rw [Core.landDue_eq]
@[simp] theorem Core.landDue_replay (c : Core) (t : Nat) : (c.landDue t).replay = c.replay := by
  rw [Core.landDue_eq]
@[simp] theorem Core.landDue_mem (c : Core) (t : Nat) : (c.landDue t).mem = c.mem := by
  rw [Core.landDue_eq]
@[simp] theorem Core.landDue_memBad (c : Core) (t : Nat) : (c.landDue t).memBad = c.memBad := by
  rw [Core.landDue_eq]
@[simp] theorem Core.landDue_retention (c : Core) (t : Nat) : (c.landDue t).retention = c.retention := by
  rw [Core.landDue_eq]
@[simp] theorem Core.landDue_slice (c : Core) (t : Nat) : (c.landDue t).slice = c.slice := by
  rw [Core.landDue_eq]
@[simp] theorem Core.landDue_channels (c : Core) (t : Nat) : (c.landDue t).channels = c.channels := by
  rw [Core.landDue_eq]
@[simp] theorem Core.landDue_serial (c : Core) (t : Nat) : (c.landDue t).serial = c.serial := by
  rw [Core.landDue_eq]
@[simp] theorem Core.landDue_ordered (c : Core) (t : Nat) : (c.landDue t).ordered = c.ordered := by
  rw [Core.landDue_eq]
@[simp] theorem Core.landDue_pattern (c : Core) (t : Nat) : (c.landDue t).pattern = c.pattern := by
  rw [Core.landDue_eq]
@[simp] theorem Core.landDue_tickets (c : Core) (t : Nat) : (c.landDue t).tickets = c.tickets := by
  rw [Core.landDue_eq]
@[simp] theorem Core.landDue_atoms (c : Core) (t : Nat) : (c.landDue t).atoms = c.atoms := by
  rw [Core.landDue_eq]
@[simp] theorem Core.landDue_aseq (c : Core) (t : Nat) : (c.landDue t).aseq = c.aseq := by
  rw [Core.landDue_eq]
@[simp] theorem Core.landDue_aerr (c : Core) (t : Nat) : (c.landDue t).aerr = c.aerr := by
  rw [Core.landDue_eq]
@[simp] theorem Core.landDue_alane (c : Core) (t : Nat) : (c.landDue t).alane = c.alane := by
  rw [Core.landDue_eq]
@[simp] theorem Core.landDue_alaneAt (c : Core) (t : Nat) : (c.landDue t).alaneAt = c.alaneAt := by
  rw [Core.landDue_eq]
@[simp] theorem Core.landDue_alaneArm (c : Core) (t : Nat) : (c.landDue t).alaneArm = c.alaneArm := by
  rw [Core.landDue_eq]
@[simp] theorem Core.landDue_alaneOn (c : Core) (t : Nat) : (c.landDue t).alaneOn = c.alaneOn := by
  rw [Core.landDue_eq]
@[simp] theorem Core.landDue_target (c : Core) (t : Nat) : (c.landDue t).target = c.target := by
  rw [Core.landDue_eq]
@[simp] theorem Core.landDue_arrivals (c : Core) (t : Nat) : (c.landDue t).arrivals = c.arrivals := by
  rw [Core.landDue_eq]
@[simp] theorem Core.landDue_ring (c : Core) (t : Nat) : (c.landDue t).ring = c.ring := by
  rw [Core.landDue_eq]
@[simp] theorem Core.landDue_holders (c : Core) (t : Nat) : (c.landDue t).holders = c.holders := by
  rw [Core.landDue_eq]
@[simp] theorem Core.landDue_binding (c : Core) (t : Nat) : (c.landDue t).binding = c.binding := by
  rw [Core.landDue_eq]
@[simp] theorem Core.landDue_sparse (c : Core) (t : Nat) : (c.landDue t).sparse = c.sparse := by
  rw [Core.landDue_eq]
@[simp] theorem Core.landDue_transfers (c : Core) (t : Nat) : (c.landDue t).transfers = c.transfers := by
  rw [Core.landDue_eq]
@[simp] theorem Core.landDue_rcvd (c : Core) (t : Nat) : (c.landDue t).rcvd = c.rcvd := by
  rw [Core.landDue_eq]
@[simp] theorem Core.landDue_quiet (c : Core) (t : Nat) : (c.landDue t).quiet = c.quiet := by
  rw [Core.landDue_eq]
@[simp] theorem Core.landDue_fetchVa (c : Core) (t : Nat) : (c.landDue t).fetchVa = c.fetchVa := by
  rw [Core.landDue_eq]
@[simp] theorem Core.landDue_rendErr (c : Core) (t : Nat) : (c.landDue t).rendErr = c.rendErr := by
  rw [Core.landDue_eq]
@[simp] theorem Core.landDue_fatal (c : Core) (t : Nat) : (c.landDue t).fatal = c.fatal := by
  rw [Core.landDue_eq]
@[simp] theorem Core.landDue_zeroUntil (c : Core) (t : Nat) : (c.landDue t).zeroUntil = c.zeroUntil := by
  rw [Core.landDue_eq]

/-! ### Core.landAll -/

@[simp] theorem Core.landAll_ctx (c : Core) : c.landAll.ctx = c.ctx := by
  rw [Core.landAll_eq]
@[simp] theorem Core.landAll_lslot (c : Core) : c.landAll.lslot = c.lslot := by
  rw [Core.landAll_eq]
@[simp] theorem Core.landAll_group (c : Core) : c.landAll.group = c.group := by
  rw [Core.landAll_eq]
@[simp] theorem Core.landAll_member (c : Core) : c.landAll.member = c.member := by
  rw [Core.landAll_eq]
@[simp] theorem Core.landAll_lcore (c : Core) : c.landAll.lcore = c.lcore := by
  rw [Core.landAll_eq]
@[simp] theorem Core.landAll_tag (c : Core) : c.landAll.tag = c.tag := by
  rw [Core.landAll_eq]
@[simp] theorem Core.landAll_status (c : Core) : c.landAll.status = c.status := by
  rw [Core.landAll_eq]
@[simp] theorem Core.landAll_haltReq (c : Core) : c.landAll.haltReq = c.haltReq := by
  rw [Core.landAll_eq]
@[simp] theorem Core.landAll_signal (c : Core) : c.landAll.signal = c.signal := by
  rw [Core.landAll_eq]
@[simp] theorem Core.landAll_abort (c : Core) : c.landAll.abort = c.abort := by
  rw [Core.landAll_eq]
@[simp] theorem Core.landAll_dataErr (c : Core) : c.landAll.dataErr = c.dataErr := by
  rw [Core.landAll_eq]
@[simp] theorem Core.landAll_wait (c : Core) : c.landAll.wait = c.wait := by
  rw [Core.landAll_eq]
@[simp] theorem Core.landAll_held (c : Core) : c.landAll.held = c.held := by
  rw [Core.landAll_eq]
@[simp] theorem Core.landAll_readyAt (c : Core) : c.landAll.readyAt = c.readyAt := by
  rw [Core.landAll_eq]
@[simp] theorem Core.landAll_latch (c : Core) : c.landAll.latch = c.latch := by
  rw [Core.landAll_eq]
@[simp] theorem Core.landAll_flagsWord (c : Core) : c.landAll.flagsWord = c.flagsWord := by
  rw [Core.landAll_eq]
@[simp] theorem Core.landAll_link (c : Core) : c.landAll.link = c.link := by
  rw [Core.landAll_eq]
@[simp] theorem Core.landAll_pc (c : Core) : c.landAll.pc = c.pc := by
  rw [Core.landAll_eq]
@[simp] theorem Core.landAll_a (c : Core) : c.landAll.a = c.a := by
  rw [Core.landAll_eq]
@[simp] theorem Core.landAll_v (c : Core) : c.landAll.v = c.v := by
  rw [Core.landAll_eq]
@[simp] theorem Core.landAll_m (c : Core) : c.landAll.m = c.m := by
  rw [Core.landAll_eq]
@[simp] theorem Core.landAll_z (c : Core) : c.landAll.z = c.z := by
  rw [Core.landAll_eq]
@[simp] theorem Core.landAll_loops (c : Core) : c.landAll.loops = c.loops := by
  rw [Core.landAll_eq]
@[simp] theorem Core.landAll_aside (c : Core) : c.landAll.aside = c.aside := by
  rw [Core.landAll_eq]
@[simp] theorem Core.landAll_md (c : Core) : c.landAll.md = c.md := by
  rw [Core.landAll_eq]
@[simp] theorem Core.landAll_mdAt (c : Core) : c.landAll.mdAt = c.mdAt := by
  rw [Core.landAll_eq]
@[simp] theorem Core.landAll_frame (c : Core) : c.landAll.frame = c.frame := by
  rw [Core.landAll_eq]
@[simp] theorem Core.landAll_trapFeed (c : Core) : c.landAll.trapFeed = c.trapFeed := by
  rw [Core.landAll_eq]
@[simp] theorem Core.landAll_ops (c : Core) : c.landAll.ops = c.ops := by
  rw [Core.landAll_eq]
@[simp] theorem Core.landAll_handler (c : Core) : c.landAll.handler = c.handler := by
  rw [Core.landAll_eq]
@[simp] theorem Core.landAll_cause (c : Core) : c.landAll.cause = c.cause := by
  rw [Core.landAll_eq]
@[simp] theorem Core.landAll_tpc (c : Core) : c.landAll.tpc = c.tpc := by
  rw [Core.landAll_eq]
@[simp] theorem Core.landAll_tinfo (c : Core) : c.landAll.tinfo = c.tinfo := by
  rw [Core.landAll_eq]
@[simp] theorem Core.landAll_fpflags (c : Core) : c.landAll.fpflags = c.fpflags := by
  rw [Core.landAll_eq]
@[simp] theorem Core.landAll_rmode (c : Core) : c.landAll.rmode = c.rmode := by
  rw [Core.landAll_eq]
@[simp] theorem Core.landAll_bankhash (c : Core) : c.landAll.bankhash = c.bankhash := by
  rw [Core.landAll_eq]
@[simp] theorem Core.landAll_rehashAt (c : Core) : c.landAll.rehashAt = c.rehashAt := by
  rw [Core.landAll_eq]
@[simp] theorem Core.landAll_vshare (c : Core) : c.landAll.vshare = c.vshare := by
  rw [Core.landAll_eq]
@[simp] theorem Core.landAll_pass (c : Core) : c.landAll.pass = c.pass := by
  rw [Core.landAll_eq]
@[simp] theorem Core.landAll_winbind (c : Core) : c.landAll.winbind = c.winbind := by
  rw [Core.landAll_eq]
@[simp] theorem Core.landAll_barmember (c : Core) : c.landAll.barmember = c.barmember := by
  rw [Core.landAll_eq]
@[simp] theorem Core.landAll_gangstat (c : Core) : c.landAll.gangstat = c.gangstat := by
  rw [Core.landAll_eq]
@[simp] theorem Core.landAll_leader (c : Core) : c.landAll.leader = c.leader := by
  rw [Core.landAll_eq]
@[simp] theorem Core.landAll_resVregs (c : Core) : c.landAll.resVregs = c.resVregs := by
  rw [Core.landAll_eq]
@[simp] theorem Core.landAll_resBars (c : Core) : c.landAll.resBars = c.resBars := by
  rw [Core.landAll_eq]
@[simp] theorem Core.landAll_resLocal (c : Core) : c.landAll.resLocal = c.resLocal := by
  rw [Core.landAll_eq]
@[simp] theorem Core.landAll_resMacros (c : Core) : c.landAll.resMacros = c.resMacros := by
  rw [Core.landAll_eq]
@[simp] theorem Core.landAll_pickup (c : Core) : c.landAll.pickup = c.pickup := by
  rw [Core.landAll_eq]
@[simp] theorem Core.landAll_cycle0 (c : Core) : c.landAll.cycle0 = c.cycle0 := by
  rw [Core.landAll_eq]
@[simp] theorem Core.landAll_cycleAdd (c : Core) : c.landAll.cycleAdd = c.cycleAdd := by
  rw [Core.landAll_eq]
@[simp] theorem Core.landAll_step (c : Core) : c.landAll.step = c.step := by
  rw [Core.landAll_eq]
@[simp] theorem Core.landAll_xphase (c : Core) : c.landAll.xphase = c.xphase := by
  rw [Core.landAll_eq]
@[simp] theorem Core.landAll_chan (c : Core) : c.landAll.chan = c.chan := by
  rw [Core.landAll_eq]
@[simp] theorem Core.landAll_nextSlot (c : Core) : c.landAll.nextSlot = c.nextSlot := by
  rw [Core.landAll_eq]
@[simp] theorem Core.landAll_combstat (c : Core) : c.landAll.combstat = c.combstat := by
  rw [Core.landAll_eq]
@[simp] theorem Core.landAll_conflicts (c : Core) : c.landAll.conflicts = c.conflicts := by
  rw [Core.landAll_eq]
@[simp] theorem Core.landAll_banks (c : Core) : c.landAll.banks = c.banks := by
  rw [Core.landAll_eq]
@[simp] theorem Core.landAll_divFree (c : Core) : c.landAll.divFree = c.divFree := by
  rw [Core.landAll_eq]
@[simp] theorem Core.landAll_vq (c : Core) : c.landAll.vq = c.vq := by
  rw [Core.landAll_eq]
@[simp] theorem Core.landAll_vfly (c : Core) : c.landAll.vfly = c.vfly := by
  rw [Core.landAll_eq]
@[simp] theorem Core.landAll_replay (c : Core) : c.landAll.replay = c.replay := by
  rw [Core.landAll_eq]
@[simp] theorem Core.landAll_mem (c : Core) : c.landAll.mem = c.mem := by
  rw [Core.landAll_eq]
@[simp] theorem Core.landAll_memBad (c : Core) : c.landAll.memBad = c.memBad := by
  rw [Core.landAll_eq]
@[simp] theorem Core.landAll_retention (c : Core) : c.landAll.retention = c.retention := by
  rw [Core.landAll_eq]
@[simp] theorem Core.landAll_slice (c : Core) : c.landAll.slice = c.slice := by
  rw [Core.landAll_eq]
@[simp] theorem Core.landAll_channels (c : Core) : c.landAll.channels = c.channels := by
  rw [Core.landAll_eq]
@[simp] theorem Core.landAll_serial (c : Core) : c.landAll.serial = c.serial := by
  rw [Core.landAll_eq]
@[simp] theorem Core.landAll_ordered (c : Core) : c.landAll.ordered = c.ordered := by
  rw [Core.landAll_eq]
@[simp] theorem Core.landAll_pattern (c : Core) : c.landAll.pattern = c.pattern := by
  rw [Core.landAll_eq]
@[simp] theorem Core.landAll_tickets (c : Core) : c.landAll.tickets = c.tickets := by
  rw [Core.landAll_eq]
@[simp] theorem Core.landAll_atoms (c : Core) : c.landAll.atoms = c.atoms := by
  rw [Core.landAll_eq]
@[simp] theorem Core.landAll_aseq (c : Core) : c.landAll.aseq = c.aseq := by
  rw [Core.landAll_eq]
@[simp] theorem Core.landAll_aerr (c : Core) : c.landAll.aerr = c.aerr := by
  rw [Core.landAll_eq]
@[simp] theorem Core.landAll_alane (c : Core) : c.landAll.alane = c.alane := by
  rw [Core.landAll_eq]
@[simp] theorem Core.landAll_alaneAt (c : Core) : c.landAll.alaneAt = c.alaneAt := by
  rw [Core.landAll_eq]
@[simp] theorem Core.landAll_alaneArm (c : Core) : c.landAll.alaneArm = c.alaneArm := by
  rw [Core.landAll_eq]
@[simp] theorem Core.landAll_alaneOn (c : Core) : c.landAll.alaneOn = c.alaneOn := by
  rw [Core.landAll_eq]
@[simp] theorem Core.landAll_target (c : Core) : c.landAll.target = c.target := by
  rw [Core.landAll_eq]
@[simp] theorem Core.landAll_arrivals (c : Core) : c.landAll.arrivals = c.arrivals := by
  rw [Core.landAll_eq]
@[simp] theorem Core.landAll_ring (c : Core) : c.landAll.ring = c.ring := by
  rw [Core.landAll_eq]
@[simp] theorem Core.landAll_holders (c : Core) : c.landAll.holders = c.holders := by
  rw [Core.landAll_eq]
@[simp] theorem Core.landAll_binding (c : Core) : c.landAll.binding = c.binding := by
  rw [Core.landAll_eq]
@[simp] theorem Core.landAll_sparse (c : Core) : c.landAll.sparse = c.sparse := by
  rw [Core.landAll_eq]
@[simp] theorem Core.landAll_transfers (c : Core) : c.landAll.transfers = c.transfers := by
  rw [Core.landAll_eq]
@[simp] theorem Core.landAll_rcvd (c : Core) : c.landAll.rcvd = c.rcvd := by
  rw [Core.landAll_eq]
@[simp] theorem Core.landAll_quiet (c : Core) : c.landAll.quiet = c.quiet := by
  rw [Core.landAll_eq]
@[simp] theorem Core.landAll_fetchVa (c : Core) : c.landAll.fetchVa = c.fetchVa := by
  rw [Core.landAll_eq]
@[simp] theorem Core.landAll_rendErr (c : Core) : c.landAll.rendErr = c.rendErr := by
  rw [Core.landAll_eq]
@[simp] theorem Core.landAll_fatal (c : Core) : c.landAll.fatal = c.fatal := by
  rw [Core.landAll_eq]
@[simp] theorem Core.landAll_zeroUntil (c : Core) : c.landAll.zeroUntil = c.zeroUntil := by
  rw [Core.landAll_eq]

end Sys2Proof.Machine
end

