-- ==== Sys2Proof/Laws/Issue.lean ====
section
/-!
SUPPORT. What issuing an instruction does, once for every instruction: by the outcome of its meaning in the core that has
the turn.
-/

namespace Sys2Proof.Machine

theorem preTrap_plain {s : State} {c : Core} (h : IssuesPlain s c) (i : Instr) : preTrap c i = none := by
  simp [preTrap, h.plain, h.whole]

theorem preTrap_arith (c : Core) {i : Instr} (h : isArith i = true) : preTrap c i = none := by
  simp [preTrap, h]

theorem captureTrap_plain {s : State} {c : Core} (h : IssuesPlain s c) (i : Instr) : captureTrap c i = none := by
  have hw := h.whole
  unfold Core.capturing at hw
  unfold captureTrap
  cases hf : c.frame with
  | none => rfl
  | some f =>
    rw [hf] at hw
    have : ¬ f.pass = 0 := by simpa using hw
    simp [this]

/-- An instruction that names no vector register passes the check of a capture. -/
theorem captureTrap_scalar (c : Core) {i : Instr}
    (h : ∀ dd da db, vregsNamed (shiftRegs dd da db i) = []) : captureTrap c i = none := by
  unfold captureTrap
  cases c.frame with
  | none => rfl
  | some f =>
    dsimp only
    split
    · simp only [frameTrap, h, vregTrap]
      simp
    · rfl

theorem issueState_one {s : State} {c : Core} {i : Instr} (f : Nat → State → Res) (h : Issues s c)
    (hp : preTrap c i = none) : s.issueState i f = s.issueOne s.cur i f := by
  simp [State.issueState, h.turn, h.may, h.alone, hp]

theorem checked_eq {s : State} {c : Core} {i : Instr} (f : Nat → State → Res) (h : Issues s c)
    (hc : captureTrap c i = none) : checked i f s.cur s = f s.cur s := by
  simp [checked, h.turn, hc, orTrap]

/-- An instruction that completes. -/
theorem issue_done {s k : State} {c : Core} {i : Instr} {f : Nat → State → Res} {ctl : Ctl} (h : Issues s c)
    (hp : preTrap c i = none) (hc : captureTrap c i = none) (hf : f s.cur s = .done k ctl) :
    issue i f s = .next (k.retire s.cur i ctl) := by
  rw [issue, issueState_one f h hp, State.issueOne, checked_eq f h hc, hf]

/-- An instruction that waits. -/
theorem issue_wait {s k : State} {c : Core} {i : Instr} {f : Nat → State → Res} {w : Wait} (h : Issues s c)
    (hp : preTrap c i = none) (hc : captureTrap c i = none) (hf : f s.cur s = .wait k w) :
    issue i f s = .next (k.hold s.cur i w) := by
  rw [issue, issueState_one f h hp, State.issueOne, checked_eq f h hc, hf]

/-- An instruction that traps. -/
theorem issue_trap {s k : State} {c : Core} {i : Instr} {f : Nat → State → Res} {t : Trap} (h : Issues s c)
    (hp : preTrap c i = none) (hc : captureTrap c i = none) (hf : f s.cur s = .trap k t) :
    issue i f s = .next (k.takeTrap s.cur t c.issueAddr) := by
  rw [issue, issueState_one f h hp, State.issueOne, checked_eq f h hc, hf]
  simp only [h.turn]

/-- An instruction that completes and then enters the handler. -/
theorem issue_enter {s k : State} {c : Core} {i : Instr} {f : Nat → State → Res} {t : Trap} (h : Issues s c)
    (hp : preTrap c i = none) (hc : captureTrap c i = none) (hf : f s.cur s = .enter k t) :
    issue i f s =
      .next ((k.retire s.cur i .next).takeTrap s.cur t ((k.retire s.cur i .next).core s.cur).pc) := by
  rw [issue, issueState_one f h hp, State.issueOne, checked_eq f h hc, hf]

/-- A completed instruction whose effect lies in its own core. -/
theorem retire_setCore (s : State) (id : Nat) (c : Core) (i : Instr) (ctl : Ctl) (h : ctl ≠ .leave) :
    (s.setCore id c).retire id i ctl = s.setCore id (c.finish s.now i ctl) := by
  simp [State.retire, h, State.modCore]

/-- An instruction whose effect lies in its own core, not captured and without a modifier. -/
theorem issue_plain {s : State} {c k : Core} {i : Instr} {f : Nat → State → Res} {ctl : Ctl} (h : IssuesPlain s c)
    (hne : ctl ≠ .leave) (hf : f s.cur s = .done (s.setCore s.cur k) ctl) : issue i f s = .next (s.completed k i ctl) := by
  rw [issue_done h.toIssues (preTrap_plain h i) (captureTrap_plain h i) hf, retire_setCore _ _ _ _ _ hne]
  rfl

/-- An instruction with no effect of its own, not captured and without a modifier. -/
theorem issue_same {s : State} {c : Core} {i : Instr} {f : Nat → State → Res} {ctl : Ctl} (h : IssuesPlain s c)
    (hne : ctl ≠ .leave) (hf : f s.cur s = .done s ctl) : issue i f s = .next (s.completed c i ctl) := by
  rw [issue_done h.toIssues (preTrap_plain h i) (captureTrap_plain h i) hf]
  simp [State.retire, hne, State.modCore, State.completed, h.turn]

/-- A trapping instruction that is not captured and has no modifier: TPC is its address. -/
theorem issue_plain_trap {s k : State} {c : Core} {i : Instr} {f : Nat → State → Res} {t : Trap} (h : IssuesPlain s c)
    (hf : f s.cur s = .trap k t) : issue i f s = .next (k.takeTrap s.cur t c.pc) := by
  rw [issue_trap h.toIssues (preTrap_plain h i) (captureTrap_plain h i) hf, Core.issueAddr, h.plain]
  rfl

/-- A waiting instruction that is not captured and has no modifier. -/
theorem issue_plain_wait {s k : State} {c : Core} {i : Instr} {f : Nat → State → Res} {w : Wait} (h : IssuesPlain s c)
    (hf : f s.cur s = .wait k w) : issue i f s = .next (k.hold s.cur i w) :=
  issue_wait h.toIssues (preTrap_plain h i) (captureTrap_plain h i) hf

/-- The completion of an instruction outside macros and frames. -/
theorem finish_single {c k : Core} (h : c.single) (ho : k.ops = c.ops) (hf : k.frame = c.frame) (now : Nat) (i : Instr)
    (ctl : Ctl) : k.finish now i ctl =
      { ({ k with wait := .none, held := none, readyAt := now + 1, alaneOn := false } : Core).follow now ctl with
        md := none } := by
  unfold Core.finish
  simp only [ho, h.1]
  rw [hf]
  cases hc : c.frame with
  | none => rfl
  | some f => simp [h.2 f hc]

/-- An arithmetic instruction that names no vector register and whose effect lies in its own core. -/
theorem issue_arith {s : State} {c k : Core} {i : Instr} {f : Nat → State → Res} {ctl : Ctl} (h : Issues s c)
    (ha : isArith i = true) (hv : ∀ dd da db, vregsNamed (shiftRegs dd da db i) = []) (hne : ctl ≠ .leave)
    (hf : f s.cur s = .done (s.setCore s.cur k) ctl) : issue i f s = .next (s.completed k i ctl) := by
  rw [issue_done h (preTrap_arith c ha) (captureTrap_scalar c hv) hf, retire_setCore _ _ _ _ _ hne]
  rfl

/-- A core that may not issue is left as it is (00 R1). -/
theorem issue_not (i : Instr) (f : Nat → State → Res) {s : State} (h : (s.core s.cur).mayIssue s.now = false) :
    issue i f s = .next s := by
  simp [issue, State.issueState, h]

end Sys2Proof.Machine
end

