-- ==== Sys2Proof/Laws/Memory.lean ====
section
/-!
SUPPORT. Memory: every operation keeps the canonical form, and what a byte reads as after a write.
-/

namespace Sys2Proof.Machine

/-! ### The canonical form -/

/-- Every listed address lies above a bound. -/
def above (a : Nat) (m : List Host.Cell) : Prop := ∀ c ∈ m, a < c.1

theorem memWf_cons (a : Nat) (b : Byte) (m : List Host.Cell) :
    memWf ((a, b) :: m) = true ↔ b ≠ Config.blankByte ∧ above a m ∧ memWf m = true := by
  simp [memWf, above, and_assoc]

theorem memWf_filter (f : Host.Cell → Bool) (m : List Host.Cell) (h : memWf m = true) : memWf (m.filter f) = true := by
  induction m with
  | nil => rfl
  | cons p m ih =>
    obtain ⟨a, b⟩ := p
    obtain ⟨h1, h2, h3⟩ := (memWf_cons a b m).1 h
    rw [List.filter_cons]
    split
    · exact (memWf_cons a b _).2 ⟨h1, fun c hc => h2 c (List.mem_filter.1 hc).1, ih h3⟩
    · exact ih h3

theorem memWf_append {l r : List Host.Cell} (hl : memWf l = true) (hr : memWf r = true) (h : ∀ c ∈ l, above c.1 r) :
    memWf (l ++ r) = true := by
  induction l with
  | nil => exact hr
  | cons p l ih =>
    obtain ⟨blank, low, rest⟩ := (memWf_cons p.1 p.2 l).1 hl
    refine (memWf_cons p.1 p.2 (l ++ r)).2 ⟨blank, fun c hc => ?_, ih rest fun c hc => h c (.tail _ hc)⟩
    exact (List.mem_append.1 hc).elim (low c) (h p (.head _) c)

theorem memWf_eraseByte {m : List Host.Cell} (n : Nat) (h : memWf m = true) : memWf (eraseByte m n) = true :=
  memWf_filter _ m h

theorem memWf_insertByte {m : List Host.Cell} (n : Nat) (b : Byte) (hb : b ≠ Config.blankByte) (h : memWf m = true) :
    memWf (insertByte m n b) = true := by
  have high : above n (m.filter fun c => decide (n < c.1)) := fun c hc => of_decide_eq_true (List.mem_filter.1 hc).2
  refine memWf_append (memWf_filter _ m h) ((memWf_cons n b _).2 ⟨hb, high, memWf_filter _ m h⟩) fun c hc d hd => ?_
  have low : c.1 < n := of_decide_eq_true (List.mem_filter.1 hc).2
  exact (List.mem_cons.1 hd).elim (· ▸ low) fun hd => Nat.lt_trans low (high d hd)

/-- Writing one byte keeps the canonical form. -/
theorem memWf_writeByte {m : List Host.Cell} (n : Nat) (b : Byte) (h : memWf m = true) : memWf (writeByte m n b) = true := by
  unfold writeByte
  split
  · exact memWf_eraseByte n h
  · exact memWf_insertByte n b ‹_› h

/-- Writing bytes keeps the canonical form. -/
theorem memWf_writeBytes {m : List Host.Cell} (n : Nat) (bs : List Byte) (h : memWf m = true) :
    memWf (writeBytes m n bs) = true := by
  induction bs generalizing m n with
  | nil => exact h
  | cons b bs ih => exact ih _ (memWf_writeByte n b h)

/-- Writing a word keeps the canonical form. -/
theorem memWf_writeWord {m : List Host.Cell} (n : Nat) (w : Word) (h : memWf m = true) : memWf (writeWord m n w) = true :=
  memWf_writeBytes n _ h

/-- Clearing a range keeps the canonical form. -/
theorem memWf_clearRange {m : List Host.Cell} (a n : Nat) (h : memWf m = true) : memWf (clearRange m a n) = true :=
  memWf_filter _ m h

/-- Copying a range keeps the canonical form of the memory copied to. -/
theorem memWf_copyRange {d : List Host.Cell} (da : Nat) (m : List Host.Cell) (sa n : Nat) (h : memWf d = true) :
    memWf (copyRange d da m sa n) = true := by
  unfold copyRange
  generalize m.filter _ = l
  have h0 := memWf_clearRange da n h
  revert h0
  generalize clearRange d da n = e
  intro h0
  induction l generalizing e with
  | nil => exact h0
  | cons c l ih => exact ih _ (memWf_writeByte _ _ h0)

/-- Loading a local image keeps the canonical form. -/
theorem memWf_loadLocal {m : List Host.Cell} (n lc : Nat) (runs : List LocalRun) (h : memWf m = true) :
    memWf (loadLocal m n lc runs) = true := by
  unfold loadLocal
  have h0 := memWf_clearRange 0 n h
  revert h0
  generalize clearRange m 0 n = e
  intro h0
  induction runs generalizing e with
  | nil => exact h0
  | cons r l ih =>
    refine ih _ ?_
    simp only
    split
    · exact memWf_writeBytes _ _ h0
    · exact h0

/-! ### Reading after a write -/

/-- A byte of the cells whose addresses pass a test. -/
theorem readByte_filter (f : Nat → Bool) (m : List Host.Cell) (a : Nat) :
    readByte (m.filter fun c => f c.1) a = if f a then readByte m a else Config.blankByte := by
  induction m with
  | nil => simp [readByte]
  | cons p m ih =>
    by_cases e : p.1 = a
    · subst e
      by_cases hf : f p.1 = true <;> simp [readByte, hf, ih]
    · by_cases hf : f p.1 = true <;> simp [readByte, hf, e, ih]

theorem readByte_unlisted {m : List Host.Cell} {a : Nat} (h : ∀ c ∈ m, c.1 ≠ a) : readByte m a = Config.blankByte := by
  have : m.filter (fun c => c.1 != a) = m := List.filter_eq_self.2 fun c hc => by simpa using h c hc
  rw [← this, readByte_filter (· != a)]
  simp

/-- A byte of two lists joined. -/
theorem readByte_append (l r : List Host.Cell) (a : Nat) :
    readByte (l ++ r) a = if l.any (fun c => c.1 == a) then readByte l a else readByte r a := by
  induction l with
  | nil => rfl
  | cons p l ih => by_cases e : p.1 = a <;> simp [readByte, e, ih]

theorem readByte_eraseByte (m : List Host.Cell) (n a : Nat) :
    readByte (eraseByte m n) a = if a = n then Config.blankByte else readByte m a := by
  rw [eraseByte, readByte_filter (· != n)]
  by_cases e : a = n <;> simp [e]

theorem readByte_insertByte (m : List Host.Cell) (n a : Nat) (b : Byte) :
    readByte (insertByte m n b) a = if a = n then b else readByte m a := by
  rw [insertByte, readByte_append, readByte_filter (decide <| · < n)]
  rcases Nat.lt_trichotomy a n with lt | rfl | gt
  · simp only [readByte, readByte_filter (decide <| n < ·), if_neg (Nat.ne_of_lt lt), if_neg (Nat.ne_of_gt lt), decide_eq_true lt, if_true,
      decide_eq_false (Nat.not_lt_of_gt lt), Bool.false_eq_true, if_false]
    split
    · rfl
    · rename_i none
      refine (readByte_unlisted fun c hc e => none ?_).symm
      exact List.any_eq_true.2 ⟨c, List.mem_filter.2 ⟨hc, by simpa [e] using lt⟩, by simpa using e⟩
  · simp [readByte, List.any_filter]
  · have high (c : Host.Cell) : (decide (c.1 < n) && c.1 == a) = false := by simp; omega
    simp [readByte, readByte_filter (decide <| n < ·), List.any_filter, high, gt, Nat.ne_of_gt gt, Nat.ne_of_lt gt]

/-- What a byte reads as once one is written. -/
theorem readByte_written (m : List Host.Cell) (n a : Nat) (b : Byte) :
    readByte (writeByte m n b) a = if a = n then b else readByte m a := by
  unfold writeByte
  split
  · rename_i e
    rw [readByte_eraseByte, e]
  · exact readByte_insertByte m n a b

/-- A byte read where it was just written. -/
theorem readByte_writeByte (m : List Host.Cell) (n : Nat) (b : Byte) : readByte (writeByte m n b) n = b := by
  rw [readByte_written, if_pos rfl]

/-- A byte read elsewhere than where one was written. -/
theorem readByte_writeByte_other (m : List Host.Cell) (n a : Nat) (b : Byte) (h : a ≠ n) :
    readByte (writeByte m n b) a = readByte m a := by
  rw [readByte_written, if_neg h]

/-- Writing bytes leaves every byte outside them as it was. -/
theorem readByte_writeBytes_other (m : List Host.Cell) (n a : Nat) (bs : List Byte) (h : a < n ∨ n + bs.length ≤ a) :
    readByte (writeBytes m n bs) a = readByte m a := by
  induction bs generalizing m n with
  | nil => rfl
  | cons b bs ih =>
    simp only [List.length_cons] at h
    unfold writeBytes
    rw [ih _ _ (by omega), readByte_writeByte_other _ _ _ _ (by omega)]

/-- A byte of a string just written. -/
theorem readByte_writeBytes (m : List Host.Cell) (n i : Nat) (bs : List Byte) (h : i < bs.length) :
    readByte (writeBytes m n bs) (n + i) = bs[i] := by
  induction bs generalizing m n i with
  | nil => exact absurd h (Nat.not_lt_zero _)
  | cons b bs ih =>
    unfold writeBytes
    cases i with
    | zero =>
      rw [readByte_writeBytes_other _ _ _ _ (by omega)]
      exact readByte_writeByte m n b
    | succ i =>
      have := ih (writeByte m n b) (n + 1) i (by simpa using h)
      rw [show n + (i + 1) = n + 1 + i by omega, this]
      rfl

/-- Bytes read back where they were written. -/
theorem readBytes_writeBytes (m : List Host.Cell) (n : Nat) (bs : List Byte) :
    readBytes (writeBytes m n bs) n bs.length = bs := by
  have key : ∀ (k : List Host.Cell) (l : List Byte) (a : Nat), (∀ i (h : i < l.length), readByte k (a + i) = l[i]) →
      readBytes k a l.length = l := by
    intro k l
    induction l with
    | nil => intro a _; rfl
    | cons b l ih =>
      intro a h
      simp only [List.length_cons, readBytes]
      have h0 := h 0 (by simp)
      simp only [Nat.add_zero, List.getElem_cons_zero] at h0
      rw [h0, ih (a + 1)]
      intro i hi
      have := h (i + 1) (by simpa using hi)
      rw [show a + 1 + i = a + (i + 1) by omega, this]
      rfl
  exact key _ bs n fun i h => readByte_writeBytes m n i bs h

/-- What a byte reads as once a range is cleared. -/
theorem readByte_clearRange (m : List Host.Cell) (a n i : Nat) :
    readByte (clearRange m a n) i = if i < a ∨ a + n ≤ i then readByte m i else Config.blankByte := by
  rw [clearRange, readByte_filter fun i => decide (i < a) || decide (a + n ≤ i)]
  simp

end Sys2Proof.Machine
end

