-- ==== Sys2Proof/Tests/Slice0.lean ====
section
/-!
SUPPORT. The model's own tests: ill-formed terms, words written out from the encoding tables, single steps with results
computed by hand from the spec, and for every statement with hypotheses a state and operands that meet them.
-/

namespace Sys2Proof.Tests
open Sys2Proof.Machine

set_option Elab.async false

/-! ### Ill-formed terms (04 R84 to R97): each check refuses one -/

theorem test_wf_hint : wellFormed (.beqz 3 1 0) = false ∧ wellFormed (.bnez 3 1 0) = false ∧ wellFormed (.bltz 3 1 0) = false ∧
    wellFormed (.bgez 3 1 0) = false ∧ wellFormed (.bgtz 3 1 0) = false ∧ wellFormed (.blez 3 1 0) = false ∧
    wellFormed (.blez 2 1 0) = true := by decide

theorem test_wf_body_length : wellFormed (.loop 1 0) = false ∧ wellFormed (.loopi 5 0) = false ∧ wellFormed (.loopi 0 1) = true := by
  decide

theorem test_wf_lane_width : wellFormed (.viadd 1 2 3 0 3) = false ∧ wellFormed (.vshl 1 2 3 0 3) = false ∧
    wellFormed (.vimulh 1 2 3 0 3) = false ∧ wellFormed (.vxor 1 2 3 0 3) = false ∧ wellFormed (.vimax 1 2 3 0 2) = true := by decide

theorem test_wf_block_register : wellFormed (.vfxenc 1 29) = false ∧ wellFormed (.vfxenc 1 28) = true := by decide

theorem test_wf_gang_size : wellFormed (.gang 0) = false ∧ wellFormed (.gang 4) = false ∧ wellFormed (.gang 3) = true := by decide

theorem test_wf_rows_and_formats : wellFormed (.mbinda 3 1 0) = false ∧ wellFormed (.mbinda 8 1 5) = false ∧
    wellFormed (.mldb 1 5) = false ∧ wellFormed (.spld 1 2 3) = false ∧ wellFormed (.spmm 0 1 3) = false ∧
    wellFormed (.mbinda 8 1 4) = true := by decide

theorem test_wf_selectors : wellFormed (.cpyq 1 2 5) = false ∧ wellFormed (.aadd 1 2 3 5 0) = false ∧
    wellFormed (.vafadd 1 2 3 7 0) = false ∧ wellFormed (.fence 5) = false ∧ wellFormed (.acas 1 2 3 4 3) = true := by decide

theorem test_wf_system_register : wellFormed (.gsr 1 0x00C) = false ∧ wellFormed (.ssr 1 0x022) = false ∧
    wellFormed (.gsr 1 0x010) = false ∧ wellFormed (.gsr 1 0x033) = true := by decide

theorem test_wf_scale : wellFormed (.modifierWord 0 0 0 0 0 1) = false ∧ wellFormed (.modifierWord 0 0 0 0 1 1) = true := by decide

/-! ### Decoding: words written out field by field from R86 to R94, and the worked encodings of 04 -/

theorem test_decode_alu : decodeWord (0x01#6 ++ 3#5 ++ 1#5 ++ 2#5 ++ 1#11) = .ok (.sub 3 1 2) := by decide
theorem test_decode_immediate : decodeWord (0x02#6 ++ 3#5 ++ 1#5 ++ 0xFFFE#16) = .ok (.addi 3 1 0xFFFE) := by decide
theorem test_decode_shift : decodeWord (0x08#6 ++ 3#5 ++ 1#5 ++ 2#2 ++ 0#8 ++ 33#6) = .ok (.srai 3 1 33) := by decide
theorem test_decode_lui : decodeWord (0x09#6 ++ 3#5 ++ 0#5 ++ 0x8001#16) = .ok (.lui 3 0x8001) := by decide
theorem test_decode_muldiv : decodeWord (0x0A#6 ++ 3#5 ++ 1#5 ++ 2#5 ++ 4#11) = .ok (.divu 3 1 2) := by decide
theorem test_decode_branch : decodeWord (0x0D#6 ++ 2#2 ++ 9#5 ++ 0x40001#19) = .ok (.bltz 2 9 0x40001) := by decide
theorem test_decode_jump : decodeWord (0x11#6 ++ 31#5 ++ 0x1FFFFF#21) = .ok (.jal 31 0x1FFFFF) := by decide
theorem test_decode_loop : decodeWord (0x13#6 ++ 7#5 ++ 0#5 ++ 300#16) = .ok (.loop 7 300) := by decide
theorem test_decode_worked_loopi : decodeWord 0x50019003 = .ok (.loopi 100 3) := by decide
theorem test_decode_worked_repf : decodeWord 0x54C71100 = .ok (.repf 3 7 1 1 0) := by decide
theorem test_decode_worked_mcall : decodeWord 0x58522180 = .ok (.mcall 5 4 8 12 0) := by decide
theorem test_decode_worked_load : decodeWord 0x5CA2800C = .ok (.ldW 5 2 12) := by decide
theorem test_decode_store : decodeWord (0x18#6 ++ 5#5 ++ 2#5 ++ 2#3 ++ 0x1FFE#13) = .ok (.stH 5 2 0x1FFE) := by decide
theorem test_decode_path : decodeWord (0x19#6 ++ 3#5 ++ 1#5 ++ 2#5 ++ 4#11) = .ok (.pmort 3 1 2) := by decide
theorem test_decode_fp32 : decodeWord (0x1A#6 ++ 1#5 ++ 2#5 ++ 3#5 ++ 5#3 ++ 0#8) = .ok (.vadd 1 2 3 5) := by decide
theorem test_decode_worked_bf16 : decodeWord 0x6C853303 = .ok (.vfmaBf 4 5 6 3) := by decide
theorem test_decode_worked_integer : decodeWord 0x70221840 = .ok (.viadd 1 2 3 0 1) := by decide
theorem test_decode_insert : decodeWord (0x1D#6 ++ 1#5 ++ 2#5 ++ 7#5 ++ 0#3 ++ 11#8) = .ok (.vins 1 2 7) := by decide
theorem test_decode_vector_memory : decodeWord (0x1E#6 ++ 1#5 ++ 2#5 ++ 4#3 ++ 9#5 ++ 0#5 ++ 6#3) = .ok (.vgth 1 2 9 6) := by decide
theorem test_decode_conversion : decodeWord (0x1F#6 ++ 1#5 ++ 2#5 ++ 3#5 ++ 4#3 ++ 0#8) = .ok (.vcvtfb 1 2 3 4) := by decide
theorem test_decode_special : decodeWord (0x20#6 ++ 1#5 ++ 2#5 ++ 0#5 ++ 4#3 ++ 0#8) = .ok (.vexp2 1 2 4) := by decide
theorem test_decode_gang : decodeWord (0x21#6 ++ 0#15 ++ 3#5 ++ 0#6) = .ok (.gang 3) := by decide
theorem test_decode_matrix : decodeWord (0x22#6 ++ 8#5 ++ 4#5 ++ 0#5 ++ 2#5 ++ 1#6) = .ok (.mbinda 8 4 2) := by decide
theorem test_decode_comb : decodeWord (0x23#6 ++ 0#5 ++ 4#5 ++ 6#5 ++ 2#5 ++ 0#6) = .ok (.spld 4 6 2) := by decide
theorem test_decode_copy : decodeWord (0x24#6 ++ 3#5 ++ 4#5 ++ 5#5 ++ 0#2 ++ 1#1 ++ 0#1 ++ 1#1 ++ 0#6) = .ok (.cpy 3 4 5 1 0 1) := by
  decide
theorem test_decode_gather : decodeWord (0x25#6 ++ 3#5 ++ 4#5 ++ 5#5 ++ 6#5 ++ 1#6) = .ok (.scat 3 4 5 6) := by decide
theorem test_decode_scalar_atomic : decodeWord (0x26#6 ++ 3#5 ++ 4#5 ++ 5#5 ++ 4#3 ++ 0#2 ++ 3#2 ++ 9#4) = .ok (.acas 3 4 5 4 3) := by
  decide
theorem test_decode_worked_vector_atomic : decodeWord 0x9C000100 = .ok (.vaadd 0 0 0 1 0) := by decide
theorem test_decode_barrier : decodeWord (0x28#6 ++ 3#5 ++ 4#5 ++ 0#6 ++ 9#4 ++ 5#6) = .ok (.vote 3 4 9) := by decide
theorem test_decode_waggle : decodeWord (0x29#6 ++ 3#5 ++ 0#5 ++ 2#5 ++ 17#5 ++ 1#6) = .ok (.wgres 3 2 17) := by decide
theorem test_decode_exchange : decodeWord (0x2A#6 ++ 0#5 ++ 4#5 ++ 5#5 ++ 0#5 ++ 1#6) = .ok (.xsend 4 5) := by decide
theorem test_decode_queue : decodeWord (0x2B#6 ++ 3#5 ++ 4#5 ++ 5#5 ++ 1#5 ++ 0#6) = .ok (.qapp 3 4 5 1) := by decide
theorem test_decode_forage : decodeWord (0x2C#6 ++ 3#5 ++ 4#5 ++ 0#10 ++ 5#6) = .ok (.launch 3 4) := by decide
theorem test_decode_patch : decodeWord (0x2D#6 ++ 4#5 ++ 0#5 ++ 0#8 ++ 200#8) = .ok (.patchi 4 200) := by decide
theorem test_decode_system : decodeWord (0x30#6 ++ 7#5 ++ 0#5 ++ 0x02A#10 ++ 2#6) = .ok (.gsr 7 0x02A) := by decide
theorem test_decode_worked_modifier : decodeWord 0xF8C00000 = .ok (.modifierWord 0 0 3 0 0 0) := by decide
/-- The reason of a word that is no instruction, 0 for one that is. -/
def reasonOf (w : Word) : Nat :=
  match decodeWord w with
  | .ok _ => 0
  | .error e => e.code

theorem test_decode_illegal : reasonOf 0x04611015 = 2 ∧ reasonOf 0x9C000040 = 3 ∧ reasonOf 0x2FFFFFFF = 8 ∧ reasonOf 0x50000000 = 9 ∧
    reasonOf 0xBBFFFFFF = 1 ∧ reasonOf 0 = 1 ∧ reasonOf (0x21#6 ++ 0#15 ++ 4#5 ++ 0#6) = 2 ∧
    reasonOf (0x1D#6 ++ 1#5 ++ 2#5 ++ 9#5 ++ 0#3 ++ 11#8) = 4 := by decide

/-! ### Small states -/

/-- A running core of context 0, its kernel with all registers, channels, local memory and macros. -/
def ready : Core :=
  { Core.reset with ctx := some 0, tag := 1, status := .running, resVregs := 32, resBars := 16, resLocal := 0x8000, resMacros := 64 }

/-- A closed fact that evaluation shows. -/
theorem met {p : Prop} [Decidable p] (h : p := by decide +kernel) : p := h

/-- The module with one core, of the running context of one launch. -/
def here (c : Core) : State := { State.reset with cores := [(0, c)], contexts := [(0, pageContext)] }

theorem here_issues {c : Core} (h : c.mayIssue 0 = true) (a : c.inGang = false) : Issues (here c) c := ⟨rfl, h, a⟩

theorem here_plain {c : Core} (h : c.mayIssue 0 = true) (a : c.inGang = false) (m : c.md = none) (w : c.capturing = false) :
    IssuesPlain (here c) c := { here_issues h a with plain := m, whole := w }

theorem ready_plain : IssuesPlain (here ready) ready := here_plain met met rfl rfl

theorem plain_of {s : State} {c : Core}
    (h : c.mayIssue s.now = true ∧ c.inGang = false ∧ c.md = none ∧ c.capturing = false := by decide +kernel) (t : s.core s.cur = c := by rfl) : IssuesPlain s c :=
  { turn := t, may := h.1, alone := h.2.1, plain := h.2.2.1, whole := h.2.2.2 }

/-! ### Single steps -/

/-- The state that an outcome goes on to; a fault or a refusal leaves the state after reset. -/
def after (o : Host.Outcome State Fault Refusal) : State :=
  match o with
  | .next t => t
  | .fault _ => State.reset
  | .refused _ => State.reset

/-- A core with values in g1 and g2. -/
def holding (x y : Word) : Core := { ready with g := (ready.g.set 1 x).set 2 y }

theorem test_add_wraps : ((after (exec (.add 3 1 2) (here (holding 0xFFFFFFFF 1)))).core 0).readG 3 = 0 := by decide
theorem test_sra_keeps_sign : ((after (exec (.srai 3 1 31) (here (holding 0x80000000 0)))).core 0).readG 3 = 0xFFFFFFFF := by decide
theorem test_g0_discards : ((after (exec (.addi 0 1 5) (here (holding 3 0)))).core 0).readG 0 = 0 := by decide
theorem test_div_by_zero : (((after (exec (.div 3 1 2) (here (holding 9 0)))).core 0).landDue 18).readG 3 = 0xFFFFFFFF := by decide
theorem test_div_overflow :
    (((after (exec (.div 3 1 2) (here (holding 0x80000000 0xFFFFFFFF)))).core 0).landDue 18).readG 3 = 0x80000000 := by decide
theorem test_mul_lands_late : let c := (after (exec (.mul 3 1 2) (here (holding 7 6)))).core 0
    (c.landDue 2).readG 3 = 0 ∧ (c.landDue 3).readG 3 = 42 := by decide
theorem test_branch_backwards : ((after (exec (.bltz 0 1 0x7FFFE) (here { holding 0x80000000 0 with pc := 0x100 }))).core 0).pc = 0xF8 := by
  decide
theorem test_jal_links : let c := (after (exec (.jal 31 2) (here { ready with pc := 0x100 }))).core 0
    c.pc = 0x108 ∧ c.readG 31 = 0x104 := by decide
theorem test_store_little_endian :
    ((after (exec (.stW 1 2 0) (here (holding 0x11223344 0x40)))).core 0).mem = [(0x40, 0x44), (0x41, 0x33), (0x42, 0x22), (0x43, 0x11)] := by
  decide
theorem test_load_extends_sign :
    (((after (exec (.ldB 3 2 1) (here { holding 0 0x40 with mem := [(0x41, 0x80)] }))).core 0).landDue 3).readG 3 = 0xFFFFFF80 := by
  decide
theorem test_store_of_zero_is_blank : ((after (exec (.stB 0 2 0) (here { holding 0 0x40 with mem := [(0x40, 9)] }))).core 0).mem = [] := by
  decide

/-- A context whose kernel has a handler at 0x200. -/
def handling (c : Core) : State :=
  { here c with contexts := [(0, { pageContext with image := { Image.reset with
      kernels := [(0, { pageKernel with header := { pageKernel.header with handler := some 0x200 } })] } })] }

theorem test_trap_enters : let c := (after (exec (.trap 17) (handling { ready with pc := 0x100 }))).core 0
    c.pc = 0x200 ∧ c.handler = true ∧ c.cause = 0x0D ∧ c.tinfo[0] = 17 ∧ c.tpc = 0x104 := by decide
theorem test_misaligned_traps : let c := (after (exec (.ldW 3 2 0) (handling { holding 0 0x42 with pc := 0x100 }))).core 0
    c.pc = 0x200 ∧ c.cause = 0x03 ∧ c.tinfo[0] = 0x42 ∧ c.tinfo[1] = 4 ∧ c.tpc = 0x100 := by decide
theorem test_morton : morton 3 5 = 27 ∧ mortonRow 27 = 3 ∧ mortonCol 27 = 5 := by decide

/-- An entry of the vector queue. -/
def queued (i : Instr) : VEntry :=
  { instr := i, addr := 0, rmode := roundingOf 0, md := none, scalar := 0, lanes := [], bind := none, data := 0, lane0 := 0, laneN := 8,
    seqs := [], stamp := 0, take := false }

/-- What a vector instruction on `x` in v2 and `y` in v3 has written to v1 once it has completed. -/
def written (i : Instr) (x y : BitVec 256) : BitVec 256 :=
  let c : Core := { ready with v := (ready.v.set 2 x).set 3 y }
  (c.land (flyOf (queued i) (vectorEffect c (queued i)) 0)).readV 1

theorem test_vadd_ties_to_even : elem 32 (written (.vadd 1 2 3 0) 0x3F800000 0x33800000) 0 = 0x3F800000 ∧
    elem 32 (written (.vadd 1 2 3 0) 0x3F800001 0x33800000) 0 = 0x3F800002 := by decide +kernel
theorem test_viadd_packed : written (.viadd 1 2 3 0 1) 0x0001FFFF 0x00000001 = 0x00010000 := by decide +kernel
theorem test_vcvtfb_ties_to_even : elem 16 (written (.vcvtfb 1 2 3 0) 0x3F808000 0) 0 = 0x3F80 := by decide +kernel

/-- A word in place runs as the first instruction: ADDI g3, g1, 5 of 04 R86. -/
theorem test_first_word : let s := State.reset.withFetchWord 32 ((0x02#6 ++ 3#5 ++ 1#5 ++ 5#16 : Word).toNat)
    ((after (step s)).core 0).readG 3 = 5 ∧ ((after (step s)).core 0).pc = 4 := by decide +kernel

theorem test_reset_memory : memoryWf State.reset = true := by decide

/-! ### Scalar arithmetic and control -/

theorem witness_AluResults : Issues (here ready) ready := ready_plain.toIssues

theorem witness_ImmediateResults : IssuesPlain (here ready) ready := ready_plain

/-- A free divider, and a busy one. -/
theorem witness_MultiplyDivideResults :
    (Issues (here ready) ready ∧ ready.divFree ≤ (here ready).now) ∧
    ∃ c : Core, Issues (here c) c ∧ (here c).now < c.divFree :=
  ⟨⟨ready_plain.toIssues, met⟩, { ready with divFree := 5 }, here_issues met met, met⟩

/-- Saturation at both ends of each width's range and inside, a tie of the scale stage, every clamp. -/
theorem witness_IntegerModifierStages :
    let m : Modifier := ⟨false, false, 0, true, false, 0⟩
    (m.sat = true ∧ ({ m with sat := false }).sat = false ∧ ∀ w ∈ [8, 16, 32],
      stagesInt m (scaleInt m.scale (2 ^ (w - 1))) > 2 ^ (w - 1) - 1 ∧ stagesInt m (scaleInt m.scale (-2 ^ (w - 1) - 1)) < -2 ^ (w - 1) ∧
      stagesInt m (scaleInt m.scale (2 ^ (w - 1) - 1)) ≤ 2 ^ (w - 1) - 1 ∧ stagesInt m (scaleInt m.scale (2 ^ w)) > 2 ^ w - 1 ∧
      stagesInt m (scaleInt m.scale (-1)) < 0) ∧
    (1 ≠ 0 ∧ 2 * (1 - scaleInt (-1) 1 * 2 ^ 1 : Int).natAbs = 2 ^ 1) ∧ ∀ k ∈ [0, 1, 2, 3], ({ m with clamp := k }).clamp = k := by
  decide

theorem witness_ResultsLandLate : (0 < 1 ∧ (1 : BitVec 5) ≠ 0 ∧ (2 : BitVec 5) ≠ 1) ∧ 0 + 1 < 3 := by decide

/-- A scalar instruction that completes. -/
theorem witness_ScalarFrame :
    Issues (here ready) ready ∧ ready.single ∧ ready.md = none ∧ ∃ t, exec (.add 1 2 3) (here ready) = .next t :=
  ⟨ready_plain.toIssues, ⟨rfl, fun _ h => nomatch h⟩, rfl, _, rfl⟩

theorem witness_BranchesDecide : IssuesPlain (here ready) ready ∧ ready.single := ⟨ready_plain, rfl, fun _ h => nomatch h⟩

/-- A target that is a multiple of 4 and one that is not. -/
theorem witness_JumpsAndLinks :
    IssuesPlain (here ready) ready ∧ ready.single ∧ (ready.readG 0 + (4#16).signExtend 32).toNat % 4 = 0 ∧
      (ready.readG 0 + (2#16).signExtend 32).toNat % 4 ≠ 0 :=
  ⟨ready_plain, ⟨rfl, fun _ h => nomatch h⟩, met, met⟩

/-- A core inside a loop whose body ends at address 16. -/
def inLoop : Core := { ready with loops := [{ first := 4, last := 16, remaining := 2 }] }

/-- Room for a body up to the end of the loop around it, none beyond it, and none where two loops are active; a count of 0. -/
theorem witness_LoopsIterate_words :
    (IssuesPlain (here inLoop) inLoop ∧ inLoop.single) ∧
    ¬(2 ≤ inLoop.loops.length ∨ ∃ k ks, inLoop.loops = k :: ks ∧ k.last.toNat < inLoop.pc.toNat + 4 * 4) ∧
    (2 ≤ inLoop.loops.length ∨ ∃ k ks, inLoop.loops = k :: ks ∧ k.last.toNat < inLoop.pc.toNat + 4 * 5) ∧
    (inLoop.readG 0).toNat = 0 ∧ (7#16).toNat ≠ 0 := by
  refine ⟨⟨here_plain met met rfl rfl, rfl, fun _ h => nomatch h⟩, ?_, Or.inr ⟨_, _, rfl, met⟩, met⟩
  rintro (h | ⟨k, ks, h, hk⟩)
  · exact absurd h met
  · injection h with h1 _
    subst h1
    exact absurd hk met

/-- A pass remains, the last pass, a target on each side of the body and inside it. -/
theorem witness_LoopsIterate_backEdges :
    let l : LoopRec := { first := 4, last := 16, remaining := 2 }
    inLoop.loops = l :: [] ∧ l.last = 16 ∧ l.last ≠ 20 ∧ 1 < l.remaining ∧ ({ l with remaining := 1 } : LoopRec).remaining ≤ 1 ∧
      ready.loops = [] ∧ (0 : Word).toNat < l.first.toNat ∧ l.last.toNat < (20 : Word).toNat ∧ l.first.toNat ≤ (4 : Word).toNat ∧
      (16 : Word).toNat ≤ l.last.toNat := by
  decide

/-! ### The vector unit -/

theorem witness_VectorIssue :
    (ready.vectorStall = false ∧ Takes (here ready) ready (.vadd 1 2 3 0) ∧
      (∀ r ∈ vregsNamed (.vadd 1 2 3 0), r.toNat < ready.resVregs.toNat)) ∧
    (∃ c : Core, IssuesPlain (here c) c ∧ 16 ≤ c.vq.length) ∧
    (∃ c : Core, IssuesPlain (here c) c ∧ c.vq.length < 16 ∧ c.feeds = false ∧ c.resVregs.toNat ≤ (16 : BitVec 5).toNat) ∧
    (IssuesPlain (here ready) ready ∧ (31 : BitVec 5).toNat < ready.resVregs.toNat ∧ ready.pendingV 31 = false) ∧
    ∃ c : Core, IssuesPlain (here c) c ∧ (3 : BitVec 5).toNat < c.resVregs.toNat ∧ c.pendingV 3 = true :=
  ⟨⟨rfl, { ready_plain.toIssues with fits := rfl, checked := rfl }, met⟩,
   ⟨{ ready with vq := List.replicate 16 (queued (.vmov 1 2 0)) }, here_plain met met rfl rfl, met⟩,
   ⟨{ ready with resVregs := 16 }, here_plain met met rfl rfl, met⟩,
   ⟨ready_plain, met⟩,
   ⟨{ ready with vq := [queued (.vmov 3 2 0)] }, here_plain met met rfl rfl, met⟩⟩

/-- A core whose queue holds one instruction. -/
def queueing : Core := { ready with vq := [queued (.vmov 1 2 0)] }

/-- A dispatched instruction that is ready in cycle `t`. -/
def flying (t : Nat) : VFly :=
  { instr := .vmov 1 2 0, vreg := some 1, vmask := 0, value := 0, mreg := none, mvalue := 0, flags := 0, readyAt := t, stamp := 0 }

/-- A vector frame of one instruction in its first replay. -/
def feedingFrame : Frame :=
  { addr := 0, n := 1, count := 2, sd := 1, sa := 1, sb := 1, captured := [⟨none, .vadd 1 2 3 0, roundingOf 0⟩], pass := 1, pos := 0,
    feeding := true }

theorem witness_VectorUnitRuns :
    (List.Pairwise (· < ·) [0, 1] ∧ leastPass (here ready) [0, 1] = some 0) ∧
    ((here queueing).core 0 = queueing ∧ 0 ∈ clusterCores 0 ∧ noLane (.vmov 1 2 0) = false ∧ isVMem (.vmov 1 2 0) = false ∧
      mayDispatch queueing = true ∧ look 0 (laneKey { here queueing with now := 7 } 0 0) ((here queueing).cluster 0).laneFree ≤ 7 ∧ ((here queueing).cluster 0).lastDisp ≠ 7 ∧
      slotServes { here queueing with now := 7 } 0 0 0 = true ∧
      ∀ n ∈ clusterCores 0, n ≠ 0 → mayDispatch ((here queueing).core n) = false) ∧
    (let c := { ready with vfly := [flying 0] }
     (here c).core 0 = c ∧ c.vfly = [flying 0] ∧ (flying 0).readyAt ≤ (here c).now ∧ (flying 0).vreg = some 1 ∧
      (flying 0).mreg = none) ∧ (here ready).now < (flying 3).readyAt ∧
    (let c := { ready with frame := some feedingFrame }
     (here c).core 0 = c ∧ feedingFrame.feeding = true ∧ feedingFrame.captured[feedingFrame.pos]?.isSome ∧ c.vq.length < 16) ∧
    (let r : Replay := ⟨[3, 19], 0, 0, true, some 1⟩
     r.since < 1 ∧ r.words ≠ [] ∧ ready.conflicts.toNat % 65536 < 65535 ∧ (serveWords 0 [] r.words).2 = [19] ∧
      (serveWords 0 [] [3]).2 = [] ∧ 0 ≤ r.since ∧ r.lane = some 1) ∧
    clash 0 [(3, 3)] [19] = true ∧ (ready.bankCycle 0 []).waited = false ∧ ready.conflicts.toNat / 65536 < 65535 := by
  decide +kernel

/-- A window binding onto a tree of depth 2, and a tree smaller than its square. -/
def smallBind : WinBind :=
  { window := 1, m0 := 0, depth := 2, rows := 3, cols := 3, scaled := false, clamp := 0, dloc := 0, sloc := 0 }

theorem witness_VectorMemoryAccesses :
    IssuesPlain (here ready) ready ∧ ready.vectorStall = false ∧
    (∀ k h, bindHandle ready k = some h → recordReady (here ready) (here ready).cur h = true) ∧
    ready.pendingV 4 = false ∧ ready.pendingM 0 = false ∧
    vmemCheck (here ready) ready (.vld 1 0 32) = .ok (none, (List.range 8).map fun n => (n, (32 + 4 * n : Int))) ∧
    (((0 : Word) + (32#13).signExtend 32).toNat % 4 = 0 ∧ ((0 : Word) + (32#13).signExtend 32).toNat + 32 ≤ 0x8000) ∧
    smallBind.ext 15 = false ∧
    (∀ n ∈ [1, 2, 3, 4, 5, 6, 7], ∀ sc ∈ [true, false], let w : WinBind := { smallBind with window := n, scaled := sc, dloc := 32, sloc := 4 }
     w.window = n ∧ w.m0 + 12 < 4 ^ w.depth ∧ mortonRow (w.m0 + 12) < w.rows ∧ mortonCol (w.m0 + 12) < w.cols ∧
       32 * w.dloc + 24 < 0x8000 ∧ 32 * w.sloc < 0x8000 ∧ w.scaled = sc ∧ 32 * w.sloc ≠ 32 * w.dloc + 12 ∧ memWf ready.mem = true) ∧
    (value32 0x7FC00001).isNaN = true ∧ (value32 0x3F800000).isNaN = false := by
  refine ⟨ready_plain, rfl, ?_, met, met, met, met, met, met, met, met⟩
  intro k h hk
  have : bindHandle ready k = none := by
    unfold bindHandle
    have : ready.winbind[k % 8]'(Nat.mod_lt _ (by omega)) = 0 := by simp [ready, Core.reset]
    simp [this, bitsOf]
  simp [this] at hk

/-! ### Frames, macros and prefixes -/

/-- A frame of `n` instructions to be issued `k` times with `cap` captured, at a pass and a position. -/
def frameAt (n k : Nat) (cap : List Captured) (pass pos : Nat) : Frame :=
  { addr := 0, n := n, count := k, sd := 1, sa := 1, sb := 1, captured := cap, pass := pass, pos := pos, feeding := false }

/-- A captured instruction. -/
def taken (i : Instr) : Captured := ⟨none, i, roundingOf 0⟩

/-- A context whose code page is on demand. -/
def lacking (c : Core) : State :=
  let s := pageTables (here c)
  writeEntry s 2560 (leafEntry 0 pageFrame false false true true true false 1 1)

/-- A free sequencer with room and with a loop that ends too early, and a busy sequencer; every course of a frame; a replay and a
macro's operation. -/
theorem witness_RepeatFramesReplay :
    (IssuesPlain (here ready) ready ∧ ready.ops = [] ∧ ready.frame = none ∧
      ∀ l ls, ready.loops = l :: ls → blockFits (here ready) 0 l.last.toNat 2 4 = .ok true) ∧
    (∃ c : Core, IssuesPlain (here c) c ∧ c.ops = [] ∧ c.frame = none ∧
      ∃ l ls, c.loops = l :: ls ∧ blockFits (here c) 0 l.last.toNat 3 4 = .ok false) ∧
    (∃ page st, blockFits (lacking inLoop) 0 16 2 4 = .error (page, st)) ∧
    (let s := State.reset.withFetchWord 32 0xF8C00000
     fetchAt s 0 0 = .word 0xF8C00000 ∧ blockFits s 0 16 2 0 = .ok true) ∧
    (∃ c : Core, IssuesPlain (here c) c ∧ c.ops = [] ∧ c.frame ≠ none) ∧
    (let cap (f : Frame) (i : Instr) := f.captured ++ [⟨none, i, roundingOf ready.rmode⟩]
     (∀ f ∈ [frameAt 2 3 [] 0 0, frameAt 1 1 [] 0 0, frameAt 1 3 [] 0 0, frameAt 1 3 [taken (.add 1 2 3)] 1 0,
        frameAt 2 3 [taken (.add 1 2 3), taken (.add 4 5 6)] 1 0], f.feeding = false ∧ ({ ready with frame := some f } : Core).ops = []) ∧
     (cap (frameAt 2 3 [] 0 0) (.add 1 2 3)).length < 2 ∧ 1 ≤ (cap (frameAt 1 1 [] 0 0) (.add 1 2 3)).length ∧
     (∀ e ∈ cap (frameAt 1 3 [] 0 0) (.vadd 1 2 3 0), isVector e.instr = true) ∧
     (∃ e ∈ cap (frameAt 1 3 [] 0 0) (.add 1 2 3), isVector e.instr = false) ∧ 0 + 1 < 2 ∧ 1 ≤ 0 + 1 ∧ 1 + 1 < 3 ∧ 3 ≤ 2 + 1) ∧
    ∃ c d : Core, (here c).core 0 = c ∧ c.held = none ∧ c.ops = [] ∧ c.frame = some (frameAt 1 3 [taken (.add 1 2 3)] 1 0) ∧
      (here d).core 0 = d ∧ d.held = none ∧ d.ops = [(none, .add 1 2 3)] := by
  refine ⟨⟨ready_plain, rfl, rfl, ?_⟩,
    ⟨{ ready with loops := [⟨0, 4, 2⟩] }, here_plain met met rfl rfl, rfl, rfl, _, _, rfl, met⟩,
    ⟨_, _, rfl⟩, met,
    ⟨{ ready with frame := some { frameAt 1 3 [] 1 0 with feeding := true } }, here_plain met met rfl met, rfl,
      met⟩,
    met,
    { ready with frame := some (frameAt 1 3 [taken (.add 1 2 3)] 1 0) }, { ready with ops := [(none, .add 1 2 3)] }, met⟩
  intro l ls h
  exact absurd h (by simp [ready, Core.reset])

/-- A cluster that holds the kernel's macro 5 of one operation. -/
def macroCluster : Cluster := { Cluster.reset with macros := [⟨0, 0, [(5, [(0x04611000, 0)])]⟩] }

/-- Core 0 where its kernel's macros stand. -/
def calling (c : Core) : State := { here c with clusters := [(0, macroCluster)] }

/-- The module with tables in place: page 0 of context 0 is the frame, readable, writable, executable and checked, and holds the
word `w` at address 4. -/
def paged (w : Word) (c : Core) : State :=
  let s1 := pageTables (here c)
  let s2 := writeEntry s1 2560 (leafEntry 0 pageFrame true true true false true false 1 1)
  { s2 with hbm := writeWord s2.hbm (pageFrame + 4) w }

/-- A macro within the limits of the kernel and one beyond them, one the kernel does not define; modifier words before an
arithmetic word, before another word, and at the end of a loop's body. -/
theorem witness_MacrosAndPrefixes :
    (IssuesPlain (calling ready) ready ∧ ready.single ∧ (5#6).toNat < ready.resMacros.toNat ∧
      (calling ready).launchOf ready = some pageLaunch ∧
      macroSet ((calling ready).cluster 0) 0 0 = some (0, ⟨0, 0, [(5, [(0x04611000, 0)])]⟩) ∧ macroCluster.slotsBad = [] ∧
      expand (macroParam 4 8 12 0) none [(0x04611000, 0)] = .ok [(none, .add 3 1 2)] ∧
      macroSet ((here ready).cluster 0) 0 0 = none ∧ (here ready).launchOf ready = some pageLaunch) ∧
    (∃ c : Core, IssuesPlain (calling c) c ∧ c.single ∧ c.resMacros.toNat ≤ (5#6).toNat) ∧
    (∀ w ∈ [(0x04611000#32, true), (0x5CA2800C, false)], ∃ i, IssuesPlain (paged w.1 ready) ready ∧
      fetchAt (paged w.1 ready) 0 4 = .word w.1 ∧ arithWord w.1 = w.2 ∧ decodeWord w.1 = .ok i) ∧
    (∃ c : Core, IssuesPlain (paged 0x04611000 c) c ∧ fetchAt (paged 0x04611000 c) 0 4 = .word 0x04611000 ∧ ∃ l ∈ c.loops, l.last = c.pc) ∧
    ∀ l ∈ ready.loops, l.last ≠ ready.pc := by
  refine ⟨⟨plain_of, ⟨rfl, fun _ h => nomatch h⟩, met⟩,
    ⟨{ ready with resMacros := 5 }, plain_of, ⟨rfl, fun _ h => nomatch h⟩, met⟩, ?_,
    ⟨{ ready with loops := [⟨0, 0, 2⟩] }, plain_of, met⟩, met⟩
  intro w hw
  rcases List.mem_cons.1 hw with rfl | hw
  · exact ⟨.add 3 1 2, plain_of, met⟩
  · rcases List.mem_cons.1 hw with rfl | hw
    · exact ⟨.ldW 5 2 12, plain_of, met⟩
    · exact absurd hw (List.not_mem_nil)

/-! ### Local memory and paths -/

/-- A core whose register 2 addresses aligned bytes, beyond raw local memory, beyond its limit, and between words. -/
def at2 (x : Word) (c : Core) : Core := { c with g := c.g.set 2 x }

theorem witness_ScalarMemoryAccesses :
    (∀ n ∈ [1, 2, 4], let c := at2 0x7FFC ready
      IssuesPlain (here c) c ∧ c.single ∧ c.accessStalls = false ∧ (c.readG 2 + (0#13).signExtend 32).toNat < 0x8000 ∧
      (c.readG 2 + (0#13).signExtend 32).toNat < c.resLocal.toNat ∧ (c.readG 2 + (0#13).signExtend 32).toNat % n = 0 ∧ c.memBad = [] ∧
      c.locked 0x7FFC n = false ∧ memWf c.mem = true) ∧
    (∃ c : Core, IssuesPlain (here c) c ∧ c.accessStalls = true) ∧
    (IssuesPlain (here (at2 0x8000 ready)) (at2 0x8000 ready) ∧ (at2 0x8000 ready).readG 2 = 0x8000) ∧
    (∃ c : Core, IssuesPlain (here c) c ∧ c.accessStalls = false ∧ c.readG 2 = 0x100 ∧ c.resLocal = 0x100) ∧
    (IssuesPlain (here (at2 0x101 ready)) (at2 0x101 ready) ∧ ((at2 0x101 ready).readG 2).toNat % 2 ≠ 0) ∧
    (let c := at2 0x100 { ready with memBad := [0x40] }
     IssuesPlain (here c) c ∧ c.accessStalls = false ∧ c.readG 2 = 0x100 ∧ 0x100 < c.resLocal.toNat ∧ 0x100 / 4 ∈ c.memBad ∧
       c.locked 0x100 4 = false ∧ ∀ w ∈ c.memBad, 0x104 + 4 ≤ 4 * w ∨ 4 * w + 4 ≤ 0x104) ∧
    (∃ k : Core, k.pend = [⟨3, 4, 9, none⟩] ++ [⟨3, 5, 9, some 0⟩] ++ [⟨3, 6, 9, some 1⟩] ∧
      ∀ q ∈ ([⟨3, 4, 9, none⟩] ++ [⟨3, 6, 9, some 1⟩] : List Pend), q.load ≠ some (here ready).now) := by
  refine ⟨?_, ⟨{ ready with vq := [queued (.vld 1 0 0)] }, plain_of, met⟩, ⟨plain_of, met⟩,
    ⟨at2 0x100 { ready with resLocal := 0x100 }, plain_of, met⟩, ⟨plain_of, met⟩, ⟨plain_of, met⟩, ⟨{ ready with pend := _ }, rfl, met⟩⟩
  intro n hn
  refine ⟨plain_of, ⟨rfl, fun _ h => nomatch h⟩, ?_⟩
  revert n
  decide

/-- A context with tree 7: 32 rows and columns of words from address 0. -/
def planted (h : BitVec 256) : Context := { pageContext with trees := [(7, h)] }

/-- The record of a tree of depth 5 with these sizes. -/
def recordOf (rows cols : Nat) : BitVec 256 := BitVec.ofNat 256 (2 ^ 192 + 5 * 2 ^ 208 + rows * 2 ^ 128 + cols * 2 ^ 160)

/-- Core 0 with its cluster holding the tree's record. -/
def growing (c : Core) : State :=
  { here c with contexts := [(0, planted (recordOf 32 32))], clusters := [(0, { Cluster.reset with cached := [(0, 7)] })] }

/-- The tree as its record gives it. -/
def tree7 : Tree := ⟨0, 5, 32, 32, 0, 0, false, 0⟩

/-- A core whose paths all are `p`, with 2 in g1 and 40 in g2. -/
def walking (p : Path) : Core := { ready with a := Vector.replicate 8 p, g := (ready.g.set 1 2).set 2 40 }

/-- Each check of a path; paths that pass it with a child, a parent, a successor, a prefix and an element, and those without; a
record that is not cached. -/
theorem witness_PathInstructions :
    (treeAt (growing ready) 0 8 = none ∧ treeAt (growing ready) 0 7 = some tree7 ∧ bitsOf (mkPath 7 3 16).toNat 48 3 = 0 ∧
      bitsOf ((mkPath 7 3 16).toNat + 2 ^ 48) 48 3 ≠ 0 ∧ tree7.depth < 6 ∧ 4 ^ tree7.depth ≤ 1024 ∧ 17 % 4 ^ (tree7.depth - 3) ≠ 0 ∧
      16 % 4 ^ (tree7.depth - 3) = 0) ∧ (5 < 2 ^ 24 ∧ 9 < 2 ^ 24) ∧
    (let p := mkPath 7 3 16
     let c := walking p
     IssuesPlain (growing c) c ∧ (0, 7) ∈ ((growing c).cluster 0).cached ∧ checkPath (growing c) 0 p = .ok tree7 ∧ 3 < tree7.depth ∧
       0 < 3 ∧ 16 + 4 ^ (tree7.depth - 3) < 4 ^ tree7.depth ∧ (c.readG 1).toNat % 32 ≤ 3 ∧ (c.readG 1).toNat < 2 ^ tree7.depth ∧
       morton 4 0 % 4 ^ (tree7.depth - 3) = 0 ∧ 3 < (c.readG 2).toNat % 32) ∧
    (let c := walking (mkPath 7 5 1023)
     IssuesPlain (growing c) c ∧ checkPath (growing c) 0 (mkPath 7 5 1023) = .ok tree7 ∧ bitsOf (mkPath 7 5 1023).toNat 51 5 = tree7.depth ∧
       4 ^ tree7.depth ≤ 1023 + 4 ^ (tree7.depth - 5)) ∧
    (let c := walking (mkPath 7 0 0)
     IssuesPlain (growing c) c ∧ checkPath (growing c) 0 (mkPath 7 0 0) = .ok tree7 ∧ bitsOf (mkPath 7 0 0).toNat 51 5 = 0) ∧
    (∃ r, let c := walking (mkPath 7 6 0)
     IssuesPlain (growing c) c ∧ (0, 7) ∈ ((growing c).cluster 0).cached ∧ checkPath (growing c) 0 (mkPath 7 6 0) = .error r) ∧
    (∀ ms ∈ [[], [HwUnit.treeCache 0]], let s := { here (walking 0) with marks := ms }
      IssuesPlain s (walking 0) ∧ (0, 0) ∉ (s.cluster 0).cached ∧ s.marks = ms) := by
  refine ⟨met, met, ⟨plain_of, met⟩, ⟨plain_of, met⟩, ⟨plain_of, met⟩, ⟨3, plain_of, met⟩, ?_⟩
  intro ms h
  exact ⟨plain_of (show (walking 0).mayIssue 0 = true ∧ (walking 0).inGang = false ∧ (walking 0).md = none ∧ (walking 0).capturing = false from met), (by decide +kernel : (0, 0) ∉ ((here (walking 0)).cluster 0).cached), rfl⟩

/-! ### Vector results -/

/-- The last lane of each width, a destination other than m0; exact values, in FP16, on the bound of each mode and within it;
numbers, infinities and NaNs; magnitudes that a clamp takes and that it does not. -/
theorem witness_FloatVectorResults : (7 < 8 ∧ 15 < 16 ∧ (1 : BitVec 5) ≠ 2) ∧
    (let at' (k : Nat) (q : Int) : ℚ := (k : ℚ) * (2 : ℚ) ^ q
     let val (c : Nat) : ℚ := if c < 2 ^ 10 then at' c (1 - 15 - 10) else at' (2 ^ 10 + c % 2 ^ 10) ((c / 2 ^ 10 : Nat) - 15 - 10)
     let top := (2 ^ 5 - 1) * 2 ^ 10
     (val (top - 1) + val top ≤ 2 * at' 4095 4 ∧ ¬val (top - 1) + val top ≤ 2 * at' 2047 5) ∧
     (val (top - 1) < at' 1 16 ∧ ¬val (top - 1) < at' 2047 5) ∧ val top ≤ at' 1 16 ∧
     at' 1 (-15) < val (2 ^ 10) - at' 1 (-1 - 15 - 10) ∧ ¬at' 1 0 < val (2 ^ 10) - at' 1 (-1 - 15 - 10)) ∧
    ((0x3F800000 : Word).extractLsb' 23 8 ≠ 255 ∧ (0x7F800001 : Word).extractLsb' 23 8 = 255 ∧ (0x3C00 : BitVec 16).extractLsb' 10 5 ≠ 31 ∧
      (0x7C01 : BitVec 16).extractLsb' 10 5 = 31) ∧
    (Value.inf true).isNaN = false ∧ (fMul (.inf true) (.fin false 0 0)).1.isNaN = true ∧
    0x7F800000 < (0x7FC00000 : Word).toNat % 2 ^ 31 ∧ (0xBF800000 : Word).toNat % 2 ^ 31 ≤ 0x7F800000 := by
  refine ⟨met, ?_, met, met, met, met, met⟩
  norm_num

theorem witness_IntegerVectorResults : ∀ k ∈ [((0 : BitVec 2), 32), (1, 16), (2, 8)], 256 / k.2 - 1 < 256 / k.2 := by decide

theorem witness_OtherVectorResults : 7 < 8 ∧ 15 < 16 ∧ (1 : BitVec 3) ≠ 0 ∧ (2 : BitVec 3) ≠ 1 := by decide

/-- Codes whose exponents are all `e`. -/
def alike (e : Nat) : List Nat := List.replicate 32 (8 * e + 1)

/-- Codes of many exponents. -/
def mixed : List Nat := (List.range 32).map fun i => 8 * (i * 5 % 16) + 7

/-- The candidates of an FX8 block: each mode with each base. -/
def modesAndBases : List (Nat × Nat) := [1, 2, 3].flatMap fun md => (List.range 16).map fun b => (md, b)

/-- One candidate of the choice. -/
def weighed (es : List Nat) (best : Option (Nat × Nat × Nat)) (c : Nat × Nat) : Option (Nat × Nat × Nat) :=
  let t := tokensLength c.1 c.2 es
  if 112 < t then best
  else match best with
    | none => some (t, c)
    | some (bt, bc) => if t < bt then some (t, c) else some (bt, bc)

theorem chosen_eq (es : List Nat) : fx8Choose es = (modesAndBases.foldl (weighed es) none).map fun p => p.2 := rfl

/-- A block none of whose candidates fits is raw. -/
theorem raw_block {es : List Nat} (h : ∀ c ∈ modesAndBases, 112 < tokensLength c.1 c.2 es) : fx8Choose es = none := by
  have all : ∀ l : List (Nat × Nat), (∀ c ∈ l, 112 < tokensLength c.1 c.2 es) → l.foldl (weighed es) none = none := by
    intro l
    induction l with
    | nil => exact fun _ => rfl
    | cons c l ih =>
      intro hl
      have : weighed es none c = none := by simp [weighed, hl c (.head _)]
      rw [List.foldl_cons, this]
      exact ih fun d hd => hl d (.tail _ hd)
  rw [chosen_eq, all _ h]
  rfl

/-- A block that its first candidate suits has a mode. -/
theorem block_mode {es : List Nat} (h : tokensLength 1 0 es ≤ 112) : fx8Choose es ≠ none := by
  have keeps : ∀ (l : List (Nat × Nat)) (b : Nat × Nat × Nat), l.foldl (weighed es) (some b) ≠ none := by
    intro l
    induction l with
    | nil => exact fun _ h => nomatch h
    | cons c l ih =>
      intro b
      rw [List.foldl_cons]
      have : ∃ b', weighed es (some b) c = some b' := by
        unfold weighed
        dsimp only
        split
        · exact ⟨_, rfl⟩
        · split <;> exact ⟨_, rfl⟩
      obtain ⟨b', hb⟩ := this
      rw [hb]
      exact ih b'
  have first : modesAndBases.foldl (weighed es) none = (modesAndBases.drop 1).foldl (weighed es) (some (tokensLength 1 0 es, 1, 0)) := by
    have one : weighed es none (1, 0) = some (tokensLength 1 0 es, 1, 0) := by simp [weighed, Nat.not_lt.2 h]
    have split : modesAndBases = (1, 0) :: modesAndBases.drop 1 := by decide
    conv_lhs => rw [split, List.foldl_cons, one]
  rw [chosen_eq, first]
  intro e
  exact keeps _ _ (Option.map_eq_none_iff.1 e)

/-- Codes of each narrow format, an FX8 block with a mode and one that is raw, malformed blocks of either kind; the elements of a
block to encode, all zero and not, under a clamp and without one. -/
theorem witness_OtherVectorResults_narrow :
    (0x7F < 2 ^ (4 + 3) ∧ 0x7F < 2 ^ (5 + 2) ∧ 7 < 2 ^ (2 + 1) ∧ 0x7F < 2 ^ (8 - 1) ∧ 7 < 2 ^ (4 - 1) ∧ 0x7BFF < 0x7C00 ∧ 255 < 256) ∧
    (∀ codes ∈ [alike 0, mixed], codes.length = 32 ∧ (∀ c ∈ codes, c < 256) ∧ ∀ e ∈ codes.map fun c => c / 8 % 16, e < 16) ∧
    fx8Choose ((alike 0).map fun c => c / 8 % 16) ≠ none ∧ fx8Choose (mixed.map fun c => c / 8 % 16) = none ∧
    ((([9] : List Byte).getD 0 0).toNat / 64 = 0 ∧ 8 < (([9] : List Byte).getD 0 0).toNat % 64 ∧
      (([0x50] : List Byte).getD 0 0).toNat / 64 ≠ 0 ∧ 15 < (([0x50] : List Byte).getD 0 0).toNat % 64 ∧ fx8Codes [9] = none ∧
      fx8Codes (List.replicate 32 0) ≠ none) ∧
    (∀ k ∈ [0, 127], let b : WinBind := { smallBind with window := 6, clamp := k }
     ({ queued (.vfxenc 1 2) with bind := some b }).bind = some b ∧ b.clamp < 128) ∧
    value32 0x3F800000 = .fin false (2 ^ 23) (-23) ∧ value32 0 = .fin false 0 (-149) ∧
    elem 32 (({ ready with v := ready.v.set 2 0x3F800000 } : Core).readV 2) 0 = 0x3F800000 := by
  refine ⟨met, met, block_mode met, raw_block met, met, met, met, met, met⟩

/-! ### Traps and system instructions -/

/-- A kernel with a handler at 0x200. -/
def handlerKernel : Kernel := { pageKernel with header := { pageKernel.header with handler := some 0x200 } }

/-- Core 0 with context 0 running a launch of that kernel that stops for the debugger. -/
def debugged (c : Core) : State :=
  { here c with contexts := [(0, { pageContext with
      image := { Image.reset with kernels := [(0, handlerKernel)] }
      launches := [(0, { pageLaunch with record := { pageLaunch.record with debug := true } })] })] }

/-- A trap of a kernel with a handler, of one without, and inside a handler; a return inside a handler and outside. -/
theorem witness_TrapsEnterAndReturn :
    ((handling ready).core 0 = ready ∧ ready.handler = false ∧ ready.feeds = false ∧ debugOn (handling ready) ready = false ∧
      (handling ready).kernelOf ready = some handlerKernel ∧ handlerKernel.header.handler = some 0x200) ∧
    ((here ready).core 0 = ready ∧ ready.ctx = some 0 ∧ ((here ready).ctx 0).faultRec = none ∧ handlerOf (here ready) ready = none ∧
      debugOn (here ready) ready = false ∧ ready.mayEnd = true) ∧
    (let c : Core := { ready with pend := [⟨1, 5, 9, none⟩] }
     (here c).core 0 = c ∧ c.ctx = some 0 ∧ handlerOf (here c) c = none ∧ debugOn (here c) c = false ∧ c.mayEnd = false) ∧
    (let c : Core := { ready with fatal := some (⟨0x06, 0, 1, 0, 0⟩, 4) }
     (here c).core 0 = c ∧ c.fatal = some (⟨0x06, 0, 1, 0, 0⟩, 4) ∧ c.status = .running ∧ c.mayEnd = true) ∧
    (∃ c : Core, IssuesPlain (here c) c ∧ c.handler = true ∧ c.ctx = some 0) ∧ IssuesPlain (here ready) ready := by
  refine ⟨met, met, met, met, ⟨{ ready with handler := true }, plain_of, met⟩, ready_plain⟩

theorem witness_TrapAndBreakpointEnter :
    IssuesPlain (handling ready) ready ∧ ready.single ∧ (debugged ready).core 0 = ready ∧ ready.handler = false ∧
      debugOn (debugged ready) ready = true ∧ ready.mayEnd = true :=
  ⟨plain_of, ⟨rfl, fun _ h => nomatch h⟩, met⟩

/-- A core with an earlier access under way, one with a pending read of the flags and its latch set, and one with neither. -/
theorem witness_SystemRegisters :
    (IssuesPlain (here ready) ready ∧ ready.flagsPending = false ∧ ready.localDone = true ∧ ready.fenced = true ∧ ready.latch = false ∧
      (here ready).late = [] ∧ ready.accessesDone = true ∧ (7 : Word) &&& 15 ≠ 0 ∧ ready.readG 0 &&& 15 = 0) ∧
    (∃ c : Core, IssuesPlain (here c) c ∧ c.flagsPending = true) ∧ ∃ c : Core, IssuesPlain (here c) c ∧ c.fenced = false ∧ c.latch = true :=
  ⟨⟨ready_plain, met⟩, ⟨{ ready with vq := [queued (.vadd 1 2 3 0)] }, plain_of, met⟩,
    { ready with latch := true, vq := [queued (.vld 1 0 0)] }, plain_of, met⟩

/-! ### Gangs -/

/-- A core that waits in the rendezvous of a gang of 4. -/
def gathering : Core := { ready with wait := .gang 4, held := some (.gang 2) }

/-- Core 5 about to execute GANG 4, the others of its set waiting. -/
def meeting : State := { here ready with cur := 5, cores := [(4, gathering), (5, ready), (6, gathering), (7, gathering)] }

/-- Core 5 about to execute GANG 4, core 4 of its set idle. -/
def missing : State :=
  { here ready with cur := 5, cores := [(0, ready), (1, ready), (2, ready), (3, ready), (4, { ready with status := .idle }), (5, ready),
                                        (6, ready), (7, ready)] }

/-- Member `i` of a gang of 2. -/
def member (i : Nat) : Core := { ready with gangstat := BitVec.ofNat 32 (128 + 16 + i), leader := 4 }

/-- Cores 4 and 5 in a gang, the second as `f` leaves it, the leader at an instruction of its own; their kernel has a handler. -/
def ganged (f : Core → Core) : State :=
  { handling ready with cur := 4, cores := [(4, member 0), (5, f (member 1)), (6, ready)] }

/-- The conditions under which a gang issues. -/
def GangReady (s : State) : Prop :=
  (s.core s.cur).mayIssue s.now = true ∧ (s.core s.cur).inGang = true ∧ (s.core s.cur).gangMember = 0 ∧
    ∀ m ∈ gangCores s s.cur, (s.core m).ops = [] ∧ (s.core m).frame = none ∧ (s.core m).inGang = true ∧
      (m ≠ s.cur → (s.core m).gangMember ≠ 0)

theorem witness_GangsForm :
    (let s := ganged id
     GangReady s ∧ (s.core s.cur).md = none ∧ (s.core s.cur).handler = false ∧ handlerOf s (s.core s.cur) = some 0x200 ∧
       gangCores s s.cur = [4, 5]) ∧
    (IssuesPlain meeting ready ∧ 2 ≤ 3 ∧ meeting.cur / 8 = 0 ∧ ready.status = .running ∧ ready.single ∧ ready.pend = [] ∧ gathering.single ∧
      ∀ m < 4, 4 + m ≠ meeting.cur → (meeting.core (4 + m)).status = .running ∧ (meeting.core (4 + m)).ctx = ready.ctx ∧
        (meeting.core (4 + m)).wait = .gang 4 ∧ (meeting.core (4 + m)).inGang = false ∧ (meeting.core (4 + m)).pend = []) ∧
    (IssuesPlain missing ready ∧ 4 ∈ gangSet 5 4 ∧ (missing.core 4).status = .idle ∧
      ∀ j ∈ clusterCores 0, j ≠ 4 → j = 5 ∨ (missing.core j).status = .running ∧ (missing.core j).ctx = ready.ctx ∧
        (missing.core j).inGang = false ∧ (missing.core j).wait = .none) :=
  ⟨⟨⟨met, met, met, met⟩, met⟩, ⟨plain_of, met, met, met, ⟨rfl, fun _ h => nomatch h⟩, met, ⟨rfl, fun _ h => nomatch h⟩, met⟩,
    plain_of, met⟩

/-- A gang at work; a member whose divider is busy; loads and stores of every member, and one whose address is not aligned; vector
instructions; a target of JALR. -/
theorem witness_GangMembersExecute :
    (GangReady (ganged id) ∧ gangCores (ganged id) 4 = [4, 5]) ∧ GangReady (ganged fun c => { c with divFree := 5 }) ∧
    GangReady (ganged (at2 0x44)) ∧ GangReady (ganged (at2 0x41)) ∧
    (let s := ganged fun c => { c with divFree := 5 }
     ∃ m ∈ gangCores s 4, s.now < (s.core m).divFree) ∧
    ((ganged id).core 4).md = none ∧
    (∀ x ∈ [0x44, 0x41], let s := ganged (at2 (BitVec.ofNat 32 x))
     (∀ m ∈ gangCores s 4, (s.core m).accessStalls = false ∧ ((s.core m).readG 2).toNat < 0x8000 ∧
        ((s.core m).readG 2).toNat < (s.core m).resLocal.toNat ∧ ((s.core m).readG 2).toNat / 4 ∉ (s.core m).memBad ∧
        (s.core m).locked ((s.core m).readG 2).toNat 4 = false ∧ (s.core m).handler = false ∧ handlerOf s (s.core m) = some 0x200) ∧
       ((∃ m ∈ gangCores s 4, ((s.core m).readG 2).toNat % 4 ≠ 0) ↔ x = 0x41)) ∧
    (let s := ganged id
     ∀ j ∈ [Instr.vmov 1 2 0, .vbcast 1 2 0, .vexp2 1 2 0], ∀ m ∈ gangCores s 4,
       (s.core m).vectorStall = false ∧ (s.core m).pend = [] ∧ ∀ r ∈ vregsNamed j, r.toNat < (s.core m).resVregs.toNat) ∧
    (((ganged id).core 4).readG 2 + (8#16).signExtend 32).toNat % 4 = 0 := by
  exact ⟨⟨⟨met, met, met, met⟩, met⟩, ⟨met, met, met, met⟩, ⟨met, met, met, met⟩, ⟨met, met, met, met⟩, met, met, met, met, met⟩

/-! ### The matrix engine -/

/-- A core with a slice as `f` changes it. -/
def sliced (f : Slice → Slice) : Core := { at2 0x400 ready with slice := f Slice.reset }

theorem sliced_plain (f : Slice → Slice) : IssuesPlain (here (sliced f)) (sliced f) := here_plain (show ready.mayIssue 0 = true by decide +kernel) (show ready.inGang = false by decide +kernel) rfl rfl

/-- A slice free for MWAIT, MZERO, MBINDA, MLDB and MRD; one without operands, one with too many rows, one of mixed classes, and
one with an error of its last operation. -/
theorem witness_MatrixInstructions :
    (let c := sliced id
     IssuesPlain (here c) c ∧ c.tileInFlight 1 = false ∧ c.slice.err = none ∧ c.localDone = true ∧ c.slice.stagedAt ≤ 0 ∧
       (c.readG 2).toNat % 32 = 0 ∧ (c.readG 2).toNat + panelSize 2 8 ≤ 0x8000 ∧ (c.readG 2).toNat + panelSize 2 8 ≤ c.resLocal.toNat ∧
       (c.readG 2).toNat + pieceSize 2 ≤ 0x8000 ∧ (c.readG 2).toNat + pieceSize 2 ≤ c.resLocal.toNat ∧ c.memBad = [] ∧
       c.vectorStall = false ∧ (31 : BitVec 5).toNat < c.resVregs.toNat ∧ c.tileBusy 1 7 = false ∧ maxRows (here c) 0 ≤ 8 ∧
       c.slice.st ≠ .rotating ∧ c.slice.st ≠ .draining ∧ c.sparse = none ∧ c.wait = .none ∧ c.slice.abound = false ∧
       ∀ m ∈ clusterCores 0, maxRows (here c) m ≤ 8) ∧
    (∀ r ∈ [(0x7FE0, 0x8000), (0x400, 0x410), (0x404, 0x8000)], let c := { at2 (BitVec.ofNat 32 r.1) ready with resLocal := BitVec.ofNat 32 r.2 }
      IssuesPlain (here c) c ∧ c.localDone = true ∧ c.slice.stagedAt ≤ 0 ∧ (c.readG 2).toNat = r.1 ∧ c.resLocal.toNat = r.2) ∧
    (∀ n ∈ [panelSize 2 8, pieceSize 2], 0x8000 < 0x7FE0 + n ∧ 0x400 + n ≤ 0x8000 ∧ 0x410 < 0x400 + n ∧ 0x404 + n ≤ 0x8000 ∧
      0x404 % 32 ≠ 0) ∧
    (let c := sliced fun x => { x with abound := true, bstaged := true, arows := 9 }
     IssuesPlain (here c) c ∧ maxRows (here c) 0 < c.slice.arows) ∧
    (let c := sliced fun x => { x with abound := true, bstaged := true, arows := 8, afmt := 3 }
     IssuesPlain (here c) c ∧ c.slice.arows ≤ maxRows (here c) 0 ∧ fmtClass c.slice.afmt ≠ fmtClass c.slice.bfmt) ∧
    (let c := sliced fun x => { x with err := some ⟨1, 64, 5, 0⟩ }
     IssuesPlain (here c) c ∧ c.tileInFlight 1 = false ∧ c.slice.err = some ⟨1, 64, 5, 0⟩) :=
  ⟨⟨sliced_plain _, met⟩, fun r h => ⟨plain_of (by revert r; decide +kernel), by revert r; decide +kernel⟩, met, ⟨sliced_plain _, met⟩,
    ⟨sliced_plain _, met⟩, sliced_plain _, met⟩

/-- A core whose slice is bound, ready for a joint operation on tile 1, and one that waits for it. -/
def joining : Core := sliced fun x => { x with abound := true, bstaged := true, arows := 4, st := .bound }

/-- A core that waits for the joint operation on tile 1. -/
def joined : Core := { joining with wait := .joint 1, held := some (.gissue 1), slice := { joining.slice with st := .issued } }

/-- Core 2 about to execute the last GISSUE of its cluster. -/
def rendezvous : State :=
  { here ready with cur := 2, cores := [(0, joined), (1, joined), (2, joining), (3, joined), (4, joined), (5, joined), (6, joined),
                                        (7, joined)] }

/-- A joint operation in ring step `n`. -/
def jointIn (n : Nat) : JointOp := ⟨0, 4, 1, n, List.replicate 8 ([], 0, 4), [], [], []⟩

/-- Cluster 0 in ring step `n` of an operation, core 2 with a slice in this state and a piece on its way. -/
def turning (n : Nat) (st : SliceState) : State :=
  { here ready with now := 5000, cores := [(2, sliced fun x => { x with st := st, wm := 0, tile := 1, stagedAt := 9 })],
                    clusters := [(0, { Cluster.reset with joint := some (jointIn n) })] }

theorem witness_MatrixOperations :
    (IssuesPlain rendezvous joining ∧ joining.single ∧ rendezvous.cur / 8 = 0 ∧ joining.wait = .none ∧ joining.slice.st = .bound ∧
      joining.slice.abound = true ∧ joining.slice.bstaged = true ∧ joining.slice.arows ≤ maxRows rendezvous 2 ∧
      fmtClass joining.slice.afmt = fmtClass joining.slice.bfmt ∧ joining.slice.stagedAt ≤ rendezvous.now ∧ joining.localDone = true ∧
      joining.sparse = none ∧ joining.rendErr = none ∧ joining.pend = [] ∧ joining.status = .running ∧ joining.held = none ∧ joined.single ∧
      ∀ m ∈ clusterCores 0, m ≠ 2 → (rendezvous.core m).wait = .joint 1 ∧ (rendezvous.core m).rendErr = none ∧
        (rendezvous.core m).pend = [] ∧ (rendezvous.core m).status = .running ∧ (rendezvous.core m).ctx = joining.ctx ∧
        (rendezvous.core m).held = some (.gissue 1) ∧ rendezvous.core m = joined ∧
        fmtClass (rendezvous.core m).slice.afmt = fmtClass joining.slice.afmt) ∧
    (∀ n ∈ [3, 7], let s := turning n .rotating
      (s.cluster 0).joint = some (jointIn n) ∧ (jointIn n).step < 8 ∧ (jointIn n).start + n * stepLen (jointIn n) ≤ s.now ∧
        (s.core 2).slice.st = .rotating ∧ 2 ∈ clusterCores 0 ∧ (s.core 2).slice.stagedAt ≠ 0 ∧ (s.core 2).slice.stagedAt ≤ s.now) ∧
    (let s := turning 8 .draining
     let c := s.core 2
     clusterOf 2 = 0 ∧ (s.cluster 0).joint = some (jointIn 8) ∧ c.slice.st = .draining ∧ 1 + 7 * (32 / 2 * 4) + (0 + 1) * 32 ≤ s.now ∧
       c.slice.wm < 8 ∧ c.slice.tile < 2 ∧ (jointIn 8).badA.getD 2 none = none ∧ (jointIn 8).badB.getD 2 none = none ∧
       0 + 1 < 4 / 2 ∧ 4 / 2 ≤ 1 + 1) ∧
    (let o := { jointIn 8 with panels := List.replicate 8 (List.replicate 32 9, 4, 4), pieces := List.replicate 8 (List.replicate 32 9, 4),
                               badA := [none, none, some (0x40, 3)], badB := [none, none, some 1] }
     let s := { turning 8 .draining with clusters := [(0, { Cluster.reset with joint := some o })] }
     (s.cluster 0).joint = some o ∧ o.badA.getD 2 none = some (0x40, 3) ∧ o.badB.getD 2 none = some 1 ∧ (o.panels.getD 2 ([], 0, 0)).2 = (4, 4) ∧
       fx8Codes (((o.panels.getD 2 ([], 0, 0)).1.drop (32 * 0)).take 32) = none) := by
  refine ⟨⟨plain_of, ⟨rfl, fun _ h => nomatch h⟩, met, met, met, met, met, met, met,
    met, met, met, met, met, met, met, ⟨rfl, fun _ h => nomatch h⟩, met⟩, met,
    met, met⟩

/-! ### Sparse tiles, combs and local memory -/

/-- A bitmap with some non-zeros. -/
def someBits : List Host.Cell := [(0x400, 0x5A), (0x409, 0x01), (0x41F, 0x80)]

/-- The bitmap as its 64 bytes. -/
def bitmap7 : List Byte := readBytes someBits 0x400 64

/-- A core with that bitmap at 0x400, g4 naming it and g6 an operand at 0x1000, its paths into tree 7. -/
def sparseCore : Core :=
  { ready with g := (ready.g.set 4 0x400).set 6 0x1000, mem := someBits, a := Vector.replicate 8 (mkPath 7 2 0) }

/-- The same core with the tile bound. -/
def boundCore : Core := { sparseCore with binding := ⟨true, false, 0x400, mkPath 7 2 0, 0, popBytes bitmap7, digestOf bitmap7, bitmap7⟩ }

/-- The comb of that bitmap in a state. -/
def combIn (st : CombState) (pins : Nat) : Comb := ⟨0, mkPath 7 2 0, digestOf bitmap7, bitmap7, st, 30, 5, [], pins, 1, [], false, 3⟩

/-- Core 3 in cycle 9, its cluster with the record of tree 7 and these combs. -/
def combing (c : Core) (qs : List (Nat × Comb)) : State :=
  { here c with now := 9, cur := 3, cores := [(3, c)], clusters := [(0, { Cluster.reset with cached := [(0, 7)], combs := qs })],
                contexts := [(0, planted (recordOf 32 32))] }

/-- A tile to bind, an SPMM without one, SPMM on a comb that is READY and on one that is not, and an operation at its end. -/
theorem witness_SparseTiles :
    (let s := combing sparseCore [(4, combIn .ready 0)]
     IssuesPlain s sparseCore ∧ sparseCore.localDone = true ∧ (sparseCore.readG 4).toNat % 32 = 0 ∧ (sparseCore.readG 4).toNat + 72 ≤ 0x8000 ∧
       (sparseCore.readG 4).toNat + 72 ≤ sparseCore.resLocal.toNat ∧ (0, 7) ∈ (s.cluster 0).cached ∧
       checkPath s 0 (sparseCore.readA 2) = .ok tree7 ∧ seenComb 9 (s.cluster 0) 0 (sparseCore.readA 2) bitmap7 = some (4, combIn .ready 0)) ∧
    (∀ r ∈ [(0x7FE0, 0x8000), (0x400, 0x410), (0x404, 0x8000)],
      let c := { boundCore with g := (boundCore.g.set 4 (BitVec.ofNat 32 r.1)).set 6 (BitVec.ofNat 32 r.1), resLocal := BitVec.ofNat 32 r.2 }
      IssuesPlain (combing c []) c ∧ c.localDone = true ∧ (c.readG 4).toNat = r.1 ∧ (c.readG 6).toNat = r.1 ∧ c.resLocal.toNat = r.2 ∧
        c.slice.st ≠ .rotating ∧ c.slice.st ≠ .draining ∧ c.sparse = none ∧ c.binding.bound = true ∧ c.binding.stale = false) ∧
    (0x8000 < 0x7FE0 + 72 ∧ 0x410 < 0x400 + 72 ∧ 0x404 % 32 ≠ 0 ∧ 0x400 + bSize 0 ≤ 0x8000) ∧
    (∃ c : Core, IssuesPlain (combing c []) c ∧ c.binding.bound = false ∧ c.slice.st = .bound ∧ c.sparse = none ∧ c.localDone = true) ∧
    (∀ st ∈ [CombState.ready, .building], let s := combing boundCore [(4, combIn st 0)]
      let c := boundCore
      IssuesPlain s c ∧ c.slice.st ≠ .rotating ∧ c.slice.st ≠ .draining ∧ c.sparse = none ∧ c.localDone = true ∧ c.binding.bound = true ∧
        c.binding.stale = false ∧ (c.readG 6).toNat % 32 = 0 ∧ (c.readG 6).toNat + bSize 0 ≤ 0x8000 ∧
        (c.readG 6).toNat + bSize 0 ≤ c.resLocal.toNat ∧ c.binding.base + tileSize 0 (popBytes bitmap7) ≤ 0x8000 ∧
        c.binding.base + tileSize 0 (popBytes bitmap7) ≤ c.resLocal.toNat ∧ fmtClass 0 = fmtClass c.binding.fmt ∧
        (∀ i < 8, maxRows s s.cur ≤ i → rowKs c.binding.bitmap i = []) ∧
        matchComb (s.cluster 0) 0 c.binding.path bitmap7 = some (4, combIn st 0) ∧ seenComb 9 (s.cluster 0) 0 c.binding.path bitmap7 = some (4, combIn st 0) ∧
        (combIn st 0).readyAt < s.now ∧ popBytes bitmap7 ≤ 384) ∧
    (let q := { combIn .queued 0 with lastUse := 9 }
     let s := combing boundCore [(4, q)]
     matchComb (s.cluster 0) 0 boundCore.binding.path bitmap7 = some (4, q) ∧ q.st = .queued ∧ q.lastUse = s.now) ∧
    (let o : SparseOp := ⟨1, 0x400, 0, bitmap7, 0x1000, 0, 8, some 4⟩
     let c : Core := { boundCore with sparse := some o }
     let s := combing c [(4, combIn .ready 1)]
     s.core 3 = c ∧ c.sparse = some o ∧ o.endAt ≤ s.now ∧ c.memBad = [] ∧
       (s.cluster (clusterOf 3)).combs.find? (fun p => p.1 == 4) = some (4, combIn .ready 1) ∧ (combIn .ready 1).drop = false) := by
  refine ⟨⟨plain_of, met⟩, fun r h => ⟨plain_of (by revert r; decide +kernel), by revert r; decide +kernel⟩, met,
    ⟨{ sparseCore with slice := { Slice.reset with st := .bound } }, plain_of, met⟩, ?_, met, met⟩
  intro st h
  refine ⟨plain_of ⟨show boundCore.mayIssue 9 = true by decide +kernel, show boundCore.inGang = false by decide +kernel, rfl, rfl⟩, ?_⟩
  revert st
  decide +kernel

/-- A queue of two combs, and a comb at the end of its building, as it is and when it is to be dropped; a core with and without a
binding, a comb to wait for, and combs of each fate. -/
theorem witness_CombsBuildAndServe :
    (let s := { combing ready [(2, combIn .queued 0), (4, combIn .queued 0)] with
       clusters := [(0, { Cluster.reset with combs := [(2, combIn .queued 0), (4, combIn .queued 0)], queue := [4, 2] })] }
     let cl := s.cluster 0
     has 0 cl.building = false ∧ cl.queue = 4 :: [2] ∧ 4 ∉ [2] ∧ cl.combs.find? (fun p => p.1 == 4) = some (4, combIn .queued 0) ∧
       sharedCluster s 0 = false ∧ combSlots s 0 (combTag s (combIn .queued 0)) cl + macroSlots s 0 (combTag s (combIn .queued 0)) +
         (combIn .queued 0).len ≤ 4096) ∧
    (∀ d ∈ [true, false], let q := { combIn .building 0 with drop := d, reqs := [(3, 0)] }
      let s := { combing ready [] with clusters := [(0, { Cluster.reset with combs := [(4, q)], building := [(0, 4)] })] }
      (s.cluster 0).building = [(0, 4)] ∧ (s.cluster 0).combs.find? (fun p => p.1 == 4) = some (4, q) ∧ q.readyAt ≤ s.now) ∧
    (IssuesPlain (combing sparseCore []) sparseCore ∧ sparseCore.binding.bound = false ∧ sparseCore.binding.stale = false ∧
      sparseCore.sparse = none ∧ sparseCore.binding.nnz = 0) ∧
    (∀ q ∈ [combIn .building 0, combIn .ready 0, combIn .ready 2, combIn .queued 0, { combIn .ready 0 with path := 9 }],
      let s := combing boundCore [(4, q)]
      IssuesPlain s boundCore ∧ boundCore.binding.bound = true ∧ boundCore.binding.stale = false ∧ (4, q) ∈ (s.cluster 0).combs ∧ q.ctx = 0) ∧
    bindingComb (combing boundCore [(4, combIn .building 0)]) 3 = some (combIn .building 0) ∧
    bindingComb (combing boundCore [(4, combIn .ready 0)]) 3 = some (combIn .ready 0) ∧
    (combIn .ready 0).path = boundCore.readA 2 ∧ (9 : Path) ≠ boundCore.readA 2 := by
  refine ⟨met, met, ⟨plain_of, met⟩, ?_, met⟩
  intro q h
  refine ⟨plain_of ⟨show boundCore.mayIssue 9 = true by decide +kernel, show boundCore.inGang = false by decide +kernel, rfl, rfl⟩, ?_⟩
  revert q
  decide +kernel

/-- Each event of a cluster's records and of a core's local memory at hand. -/
theorem witness_LocalMemoryEvents :
    (∃ s : State, (0, 7) ∈ (s.cluster 0).fills) ∧
    (∀ r ∈ [Retention.entering 4, .retained, .exiting 4], let c := { ready with retention := r, rehashAt := some 4 }
      (here c).core 0 = c ∧ c.retention = r ∧ c.rehashAt = some 4 ∧ 4 ≤ { here c with now := 9 }.now) ∧
    mayRetain { here { ready with status := .idle, ctx := none } with contexts := [] } 0 = true ∧ mayRetain (here ready) 0 = false := by
  refine ⟨⟨{ State.reset with clusters := [(0, { Cluster.reset with fills := [(0, 7)] })] }, met⟩, met, met, met⟩

/-! ### Copies and gathers -/

/-- The module with tables in place: page 0 of context 0 is the frame, readable and writable; core 3 in cycle 9 and its cluster with
the record of tree 7. -/
def module3 (c : Core) : State :=
  let s1 := (List.range 5).foldl (fun q l => writeEntry q (512 * l) (512 * (l + 1) + 1))
    { here c with now := 9, cur := 3, cores := [(3, c)], clusters := [(0, { Cluster.reset with cached := [(0, 7)] })],
                  contexts := [(0, planted (recordOf 32 32))] }
  writeEntry s1 2560 (leafEntry 0 pageFrame true true false false false false 1 1)

/-- A core whose paths name a block of 16 elements, with a channel in g3 and a place in g4. -/
def copier : Core := { ready with g := (ready.g.set 3 5).set 4 0x400, a := Vector.replicate 8 (mkPath 7 3 16) }

/-- The record of such a copy in a state. -/
def copyIn (st : CopyState) (d : Bool) (wp : Nat) : Channel :=
  { Channel.reset with st := st, dir := d, path := mkPath 7 3 16, laddr := 0x400, len := 64, total := 64, wp := wp, cause := 5, serial := 3 }

/-- The same core with channel 5 in use. -/
def copierWith (x : Channel) : Core := copier.setChannel 5 x

/-- A core whose pattern deals a block of 256 elements to itself. -/
def dealer : Core :=
  { copier with lcore := 3, a := Vector.replicate 8 (mkPath 7 1 256), pattern := BitVec.ofNat 32 (2 ^ 27 + 3 * 65536) }

/-- The module where core 3 is granted to the context. -/
def dealing : State :=
  { module3 dealer with tags := [(3, 1)], contexts := [(0, { planted (recordOf 32 32) with table := some [(3, BitVec.ofNat 32 (2 ^ 31 + 3))] })] }

/-- The bytes that an access has brought. -/
def gotBytes (g : Got) : List Byte :=
  match g with
  | .bytes b _ => b
  | _ => []

/-- The state that an access has left. -/
def gotState (g : Got) : State :=
  match g with
  | .bytes _ q => q
  | .stall q => q
  | .fault _ _ _ q => q

/-- The access of the first beat of a copy in, and of a copy out. -/
def beatIn (s : State) : Got := readGlobal s 0 1 0 ((List.range 32).map ((pathRange tree7 (mkPath 7 3 16) false).1 + ·))

/-- The access of the first beat of a copy out. -/
def beatOut (s : State) : Got :=
  writeGlobal s 0 1 (some 0) ((List.range 32).map fun i => ((pathRange tree7 (mkPath 7 3 16) false).1 + i, readByte copier.mem (0x400 + i)))

/-- A channel free for a copy and for a deal, one to restart; records in each state that CPYR, CPYQ and CPYX meet; beats that move in
each direction, that stall, that fault, and a copy that has waited. -/
theorem witness_CopiesMoveData :
    (IssuesPlain (module3 copier) copier ∧ copier.localDone = true ∧ copier.acquiring = false ∧ (copier.channel 5).active = false ∧
      (0, 7) ∈ ((module3 copier).cluster 0).cached ∧ checkPath (module3 copier) 0 (copier.readA 1) = .ok tree7 ∧
      (copier.readG 4).toNat % 32 = 0 ∧ (pathRange tree7 (copier.readA 1) false).2 = 64 ∧ copier.channels = [] ∧
      ((copierWith (copyIn .faulted true 12)).channel 5).active = false ∧
      ((copierWith (copyIn .faulted true 12)).channel 5).matching false true false (mkPath 7 3 16) 0x400 = true ∧
      (copier.channel 5).matching false true false (mkPath 7 3 16) 0x400 = false) ∧
    (IssuesPlain dealing dealer ∧ patScope dealer.pattern ≤ 1 ∧
      patFirst dealer.pattern + patCount dealer.pattern ≤ (if patScope dealer.pattern = 0 then 8 else 256) ∧
      (∀ k ∈ dealCores dealing 3 dealer.pattern, dealTarget dealing 0 k = true) ∧ checkPath dealing 0 (dealer.readA 1) = .ok tree7 ∧
      pDepth (dealer.readA 1) + patSplit dealer.pattern ≤ tree7.depth ∧
      32 ≤ (pathRange tree7 (dealer.readA 1) false).2 / 4 ^ patSplit dealer.pattern ∧
      (pathRange tree7 (dealer.readA 1) false).2 / 4 ^ patSplit dealer.pattern % 32 = 0 ∧
      0x400 + dealSpan dealer.pattern ((pathRange tree7 (dealer.readA 1) false).2 / 4 ^ patSplit dealer.pattern) ≤ 0x8000) ∧
    (∀ st ∈ [CopyState.idle, .waiting, .moving, .stalled, .done, .faulted, .cancelled], let c := copierWith (copyIn st false 12)
      IssuesPlain (module3 c) c ∧ (c.channel 5).st = st ∧ (c.channel 5).wp = 12 ∧ c.predFault (c.channel 5) = none) ∧
    (∀ ts ∈ [[], [(3, 1)]], ∀ r ∈ [none, some 50],
     let c := { copierWith (copyIn .moving false 0) with rehashAt := r }
     let s := { module3 c with tags := ts }
     s.core 3 = c ∧ c.still = false ∧ (c.channel 5).readyAt ≤ 9 ∧ treeAt s 0 7 = some tree7 ∧ s.marks = [] ∧
       forwardHeld s 0 ((globalSpan s c (c.channel 5)).2.1 + 0) = false ∧
       orderHeld s { c with channels := drop 5 c.channels } (c.channel 5).after (globalSpan s c (c.channel 5)).2.1 32 = false ∧
       (∀ i < 32, byteOutside tree7 false ((pathRange tree7 (mkPath 7 3 16) false).1 + i) = false) ∧
       beatIn s = .bytes (gotBytes (beatIn s)) (gotState (beatIn s)) ∧ (gotBytes (beatIn s)).length = 32 ∧
       (gotState (beatIn s)).cores = s.cores ∧ (s.delivery 3 0x400 32).1 = r.isNone ∧ tagOf s 3 = ts.length ∧ c.tag = 1 ∧
       memWf c.mem = true ∧ beatOut s = .bytes [] (gotState (beatOut s)) ∧ (gotState (beatOut s)).cores = s.cores ∧ c.memBad = []) ∧
    (let s := (module3 copier).editLeaf 0 0 fun e => setBit e 6 1
     beatIn s = .stall (gotState (beatIn s)) ∧ (gotState (beatIn s)).cores = s.cores) ∧
    (let s := (module3 copier).editLeaf 0 0 fun e => setBit e 2 0
     (∃ lo len, beatIn s = .fault 0x06 lo len (gotState (beatIn s))) ∧ (gotState (beatIn s)).cores = s.cores) ∧
    ((copierWith (copyIn .waiting false 0)).channel 5).edges.any (copierWith (copyIn .waiting false 0)).edgeHolds = false := by
  refine ⟨⟨plain_of, met⟩, ⟨plain_of, met⟩, ?_, met,
    met, ⟨⟨0, 131072, met⟩, met⟩, met⟩
  intro st h
  refine ⟨plain_of ?_, ?_⟩ <;> revert st <;> decide +kernel

/-- The module with another record for tree 7. -/
def treed (r : Nat) (c : Core) : State := { module3 c with contexts := [(0, planted (BitVec.ofNat 256 r))] }

/-- The record of a tree of format `f` and depth `d`, with scales where `sc` is 1. -/
def recordFor (f d sc : Nat) : Nat := 2 ^ 192 + sc * 2 ^ 193 + f * 2 ^ 200 + d * 2 ^ 208 + 32 * 2 ^ 128 + 32 * 2 ^ 160

/-- What CPY, DEAL, GATH and SCAT ask before they check their operands. -/
abbrev Unheld (s : State) (c : Core) (p : Path) : Prop :=
  c.localDone = true ∧ c.acquiring = false ∧ (0, pHandle p) ∈ (s.cluster (s.cur / 8)).cached ∧ c.ctx = some 0

/-- Ranges that leave local memory and RES_LOCAL, that are not aligned, and that fit; malformed paths; trees with scales and without; no
record to restart; patterns and targets that are allowed and not, splits beyond the tree, pieces that are too small, and none of these. -/
theorem witness_CopiesMoveData_traps :
    (∀ r ∈ [(0x7FF0, 0x8000), (0x400, 0x410), (0x404, 0x8000), (0x400, 0x8000)], ∀ d ∈ [3, 6],
      let c := { copier with g := copier.g.set 4 (BitVec.ofNat 32 r.1), resLocal := BitVec.ofNat 32 r.2, a := Vector.replicate 8 (mkPath 7 d 16) }
      let s := module3 c
      IssuesPlain s c ∧ Unheld s c (c.readA 1) ∧ (c.channel 5).active = false ∧ (c.readG 4).toNat = r.1 ∧ c.resLocal.toNat = r.2 ∧
        (d = 3 → checkPath s 0 (c.readA 1) = .ok tree7) ∧ (d = 6 → checkPath s 0 (c.readA 1) = .error 3)) ∧
    ((pathRange tree7 (copier.readA 1) false).2 = 64 ∧ 0x8000 < 0x7FF0 + 32 ∧ 0x410 < 0x400 + 32 ∧ 0x404 % 32 ≠ 0 ∧ 0x404 + 64 ≤ 0x8000 ∧
      tree7.scaled = false ∧ (copier.channel 5).matching false true false (copier.readA 1) 0x400 = false) ∧
    (let s := treed (recordFor 0 5 1) copier
     IssuesPlain s copier ∧ Unheld s copier (copier.readA 1) ∧ checkPath s 0 (copier.readA 1) = .ok { tree7 with scaled := true }) ∧
    (∀ w ∈ [2 ^ 31, 5 * 65536, 3 * 65536, 2 ^ 27 + 3 * 65536], ∀ d ∈ [1, 3, 5, 6],
      let c := { dealer with pattern := BitVec.ofNat 32 w, a := Vector.replicate 8 (mkPath 7 d 256) }
      let s := { dealing with cores := [(3, c)] }
      IssuesPlain s c ∧ Unheld s c (c.readA 1) ∧ (c.channel 5).active = false ∧ (c.channel 5).matching true false false (c.readA 1) 0x400 = false ∧
        (checkPath s 0 (c.readA 1) = if d = 6 then .error 3 else .ok tree7) ∧
        ((patScope c.pattern ≤ 1 ∧ ∀ k ∈ dealCores s 3 c.pattern, dealTarget s 0 k = true) ↔ w ≠ 2 ^ 31 ∧ w ≠ 5 * 65536) ∧
        (tree7.depth < d + patSplit c.pattern ↔ d = 6 ∨ d = 5 ∧ w = 2 ^ 27 + 3 * 65536)) ∧
    ((pathRange tree7 (mkPath 7 3 256) false).2 / 4 ^ 1 < 32 ∧ 32 ≤ (pathRange tree7 (mkPath 7 1 256) false).2 / 4 ^ 1) := by
  refine ⟨?_, met, ⟨plain_of, met⟩, ?_, met⟩
  · intro r h d e
    refine ⟨plain_of ?_, ?_⟩ <;> revert r d <;> decide +kernel
  · intro w h d e
    refine ⟨plain_of ?_, ?_⟩ <;> revert w d <;> decide +kernel

/-- A core that gathers and scatters: three list entries at 0x800, data from 0x1000, ticket 3 in g8, blocks of 64 bytes. -/
def gatherer : Core :=
  { ready with g := ((ready.g.set 6 0x10000800).set 8 3).set 9 3, a := Vector.replicate 8 (mkPath 7 3 0),
               mem := [(0x800, 1), (0x804, 3), (0x808, 200)] }

/-- Lists that are too long, lists and data that leave local memory and RES_LOCAL and are not aligned, and that fit; malformed paths, and
granules that are no words. -/
theorem witness_GathersServeLists_traps :
    (∀ r ∈ [(0x10000800, 5000, 0x8000), (0x10007FF8, 3, 0x8000), (0x10000800, 3, 0x804), (0x10000802, 3, 0x8000), (0x7FF80800, 3, 0x8000),
        (0x10000800, 3, 0x1004), (0x10020800, 3, 0x8000), (0x10000800, 3, 0x8000), (0x10000800, 0, 0x8000)], ∀ d ∈ [3, 6],
      let c := { gatherer with g := (gatherer.g.set 6 (BitVec.ofNat 32 r.1)).set 9 (BitVec.ofNat 32 r.2.1), resLocal := BitVec.ofNat 32 r.2.2,
                               a := Vector.replicate 8 (mkPath 7 d 0) }
      let s := module3 c
      IssuesPlain s c ∧ Unheld s c (c.readA 1) ∧ c.freeTicket = some 0 ∧ (c.readG 6).toNat = r.1 ∧ (c.readG 9).toNat = r.2.1 ∧
        c.resLocal.toNat = r.2.2 ∧ (d = 3 → checkPath s 0 (c.readA 1) = .ok tree7) ∧ (d = 6 → checkPath s 0 (c.readA 1) = .error 3)) ∧
    (0x10000800 % 65536 = 0x800 ∧ 0x10000800 / 65536 = 0x1000 ∧ 0x8000 < 0x7FF8 + 4 * 3 ∧ 0x804 < 0x800 + 4 * 3 ∧ 0x802 % 4 ≠ 0 ∧
      (pathRange tree7 (mkPath 7 3 0) false).2 = 64 ∧ 0x1004 < 0x1000 + 3 * 64 ∧ 0x1002 % 4 ≠ 0) ∧
    (let c := { gatherer with a := Vector.replicate 8 (mkPath 7 5 0) }
     let s := treed (recordFor 8 5 0) c
     IssuesPlain s c ∧ Unheld s c (c.readA 1) ∧ checkPath s 0 (c.readA 1) = .ok { tree7 with fmt := 8 } ∧ 4 ^ (5 - pDepth (c.readA 1)) < 32) := by
  refine ⟨?_, met, ⟨plain_of, met⟩⟩
  intro r h d e
  refine ⟨plain_of ?_, ?_⟩ <;> revert r d <;> decide +kernel

/-- A ticket with entries still to serve. -/
def ticketOf (sc : Bool) (todo : List Nat) (fails : List TicketFail) : Ticket :=
  ⟨sc, mkPath 7 3 0, [1, 3, 200], if sc then List.replicate 192 9 else [], 0x1000, 64, todo, fails, 5, 0, 0⟩

/-- The same core with that ticket under number 3. -/
def holdsTicket (k : Ticket) : Core := { gatherer with tickets := [(3, k)] }

/-- The bytes that a granule's read has brought. -/
def servedBytes (g : Served) : List (Nat × Byte) :=
  match g with
  | .bytes b _ => b
  | _ => []

/-- The state that a granule's access has left. -/
def servedState (g : Served) : State :=
  match g with
  | .bytes _ q => q
  | .stall q => q
  | .fault _ _ _ _ q => q

/-- Where entry 1 of the ticket begins in its tree. -/
def granuleAt : Nat := (pathRange tree7 (mkPath 7 3 48) false).1

/-- The read of entry 1, and its write. -/
def readAt1 (s : State) : Served := readGranule 0 1 0 tree7 granuleAt 64 2 0 s

/-- The write of entry 1. -/
def writeAt1 (s : State) : Served := writeGranule 0 1 0 tree7 granuleAt 64 (List.replicate 64 9) 2 0 s

/-- A list to take, tickets that wait, are done and have failed, none at all; entries to read, to write and beyond the tree. -/
theorem witness_GathersServeLists :
    (let s := module3 gatherer
     let c := gatherer
     IssuesPlain s c ∧ c.localDone = true ∧ c.acquiring = false ∧ c.freeTicket = some 0 ∧ (c.readG 9).toNat = 3 ∧
       (0, 7) ∈ (s.cluster (s.cur / 8)).cached ∧ checkPath s 0 (c.readA 1) = .ok tree7 ∧ (pathRange tree7 (c.readA 1) false).2 = 64 ∧
       (c.readG 6).toNat = 0x800 + 0x1000 * 65536 ∧ 0x1000 + 3 * 64 ≤ c.resLocal.toNat ∧ c.memBad = [] ∧ c.tickets = []) ∧
    (∀ k ∈ [ticketOf false [2] [], ticketOf false [] [], ticketOf true [] [⟨2, 0x04, mkPath 7 3 0⟩]], let c := holdsTicket k
      IssuesPlain (module3 c) c ∧ (c.readG 8).toNat = 3 ∧ c.tickets.find? (fun q => q.1 == 3) = some (3, k)) ∧
    (let k := ticketOf false [1, 2] []
     let s := { module3 (holdsTicket k) with tags := [(3, 1)] }
     s.core 3 = holdsTicket k ∧ (holdsTicket k).tickets.find? (fun p => p.1 == 3) = some (3, k) ∧ 1 ∈ k.todo ∧ 2 ∈ k.todo ∧ s.marks = [] ∧
       (∀ j ∈ k.todo, forwardHeld s 0 (granuleSpan s (holdsTicket k) k j).1 = false) ∧
       treeAt s 0 (pHandle k.path) = some tree7 ∧ 4 ^ 5 ≤ 0 + (k.list.getD 2 0).toNat * 16 ∧ 0 + (k.list.getD 1 0).toNat * 16 = 48 ∧
       readAt1 s = .bytes (servedBytes (readAt1 s)) (servedState (readAt1 s)) ∧ (servedState (readAt1 s)).cores = s.cores ∧
       (s.delivery 3 (0x1000 + 64) 64).1 = true ∧ tagOf s 3 = (holdsTicket k).tag ∧
       ∀ j ∈ k.todo, orderHeld s { holdsTicket k with tickets := [] } k.after (granuleSpan s (holdsTicket k) k j).1
         (granuleSpan s (holdsTicket k) k j).2 = false) ∧
    (let k := ticketOf true [1, 2] []
     let s := module3 (holdsTicket k)
     s.core 3 = holdsTicket k ∧ (holdsTicket k).tickets.find? (fun p => p.1 == 3) = some (3, k) ∧
       (∀ i ∈ k.todo, i < 1 → k.list.getD i 0 ≠ k.list.getD 1 0) ∧ s.marks = [] ∧
       forwardHeld s 0 (granuleSpan s (holdsTicket k) k 1).1 = false ∧
       orderHeld s { holdsTicket k with tickets := [] } k.after (granuleSpan s (holdsTicket k) k 1).1
         (granuleSpan s (holdsTicket k) k 1).2 = false ∧ writeHeld s 0 1 0 tree7 granuleAt 64 = none ∧
       writeAt1 s = .bytes [] (servedState (writeAt1 s)) ∧ (servedState (writeAt1 s)).cores = s.cores) := by
  refine ⟨⟨plain_of, met⟩, ?_, met, met⟩
  intro k h
  refine ⟨plain_of ?_, ?_⟩ <;> revert k <;> decide +kernel

/-! ### Pages -/

/-- The module with the entry of page 0 edited. -/
def leafed (f : Nat → Nat) : State := (module3 copier).editLeaf 0 0 f

/-- The entry of page 0 of a state. -/
def leafNow (s : State) : Nat := Sys2Proof.Machine.entryOf s 0 0

/-- Walks that end nowhere and in each kind of leaf; an access that is permitted and one that is not; reads and writes that reach
their frame, with good and bad parcels. -/
theorem witness_TranslationAndAccess :
    walk (leafed id) 0 (5 * 2 ^ 17) = .invalid 5 none ∧
    (∀ s ∈ [leafed id, leafed (fun e => setBit e 6 1), leafed (fun e => setBit (setBit e 6 1) 8 1), leafed (fun e => setBit e 3 0)],
      walk s 0 0 = .leaf (leafNow s) 2560) ∧
    leafState (leafNow (leafed fun e => setBit e 6 1)) = some .demand ∧
    leafState (leafNow (leafed fun e => setBit (setBit e 6 1) 8 1)) = some .requested ∧
    leafState (leafNow (leafed id)) = some .mapped ∧ bitsOf (leafNow (leafed id)) 2 2 = 3 ∧ bitsOf (leafNow (leafed id)) 54 10 = 1 ∧
    bitsOf (leafNow (leafed fun e => setBit e 3 0)) 3 1 = 0 ∧ memWf (leafed id).hbm = true ∧
    (∀ a ∈ [Access.read, .write], reach (leafed id) 0 1 64 a = .here 0 (pageFrame + 64) (leafNow (leafed id))) ∧
    (leafed id).rangeGood (pageFrame + 64) 32 = true ∧ ({ leafed id with hbmBad := [pageFrame / 4 + 16] }).rangeGood (pageFrame + 64) 32 = false ∧
    reach { leafed id with hbmBad := [pageFrame / 4 + 16] } 0 1 64 .read = .here 0 (pageFrame + 64) (leafNow (leafed id)) ∧
    (leafed id).rangeGood (parcels (pageFrame + 64) 32).1 (parcels (pageFrame + 64) 32).2 = true ∧
    reach (leafed fun e => setBit e 3 0) 0 1 64 .write = .denied 0 131072 ∧
    (walkSpoilt (leafed id) 0 64 = none ∧ walkSpoilt { leafed id with hbmBad := [640] } 0 64 = some 2560 ∧
      reach { leafed id with hbmBad := [640] } 0 1 64 .read = .spoilt 2560) ∧
    (∀ i < 32, (windowAt (leafed id) 0 (64 + i)).map Prod.fst = (windowAt (leafed id) 0 64).map Prod.fst) ∧
    (let s := leafed fun e => setBit e 5 1
     reach s 0 1 64 .write = .here 0 (pageFrame + 64) (leafNow s) ∧ leafState (leafNow s) = some .replicated ∧ s.mode = .service ∧
       copiesGood s (pageFrame + 64) (leafNow s) 32 = true ∧ pageFrame % 2 ^ 36 + 64 + 32 ≤ 2 ^ 36) ∧
    (∀ a ∈ [Access.read, .write], reach (leafed id) 0 1 (5 * 2 ^ 17) a = .unmapped (5 * 2 ^ 17) (2 ^ 17) none) ∧
    reach (leafed fun e => setBit e 2 0) 0 1 64 .read = .denied 0 131072 ∧
    reach (leafed fun e => setBit e 6 1) 0 1 64 .read = .stall 0 0 .demand ∧ ((leafed id).ctx 0).tag = 1 := by
  refine ⟨met, met, met, met, met, met, met, met, met, met, met, met, met, met, met, met, met, met, met, met, met, met⟩

/-- The page as it waits for its first touch, with its backing in host memory, port 2 up. -/
def waitingPage : State :=
  let s := leafed fun e => setBit e 6 1
  { s.setCtx 0 { s.ctx 0 with func := 2, backings := [(0, ⟨0x700, true⟩)] } with
    ports := [(portOf 2, { Port.reset with st := .up })], hostMem := [(0x703, 5)] }

/-- The page once its request is posted. -/
def requestedPage : State := { waitingPage.editLeaf 0 0 fun e => setBit e 8 1 with requests := [⟨0, 0, 2, true, 0⟩] }

/-- The state in which the page is resident on a frame. -/
def residentAt (frame : Nat) : Option State :=
  ((requestedPage.dropRequests 0 0).pastePhys frame (pageSize 0) [(3, 5)]).mapResident 0 0 0 frame true true false false

/-- A full part of a function: four reserved entries and 256 shared ones. -/
def fullRequests : List PageReq := List.replicate 4 ⟨0, 2 ^ 20, 2, true, 0⟩ ++ List.replicate 256 ⟨0, 2 ^ 21, 2, false, 0⟩

/-- Requests with and without a free entry, one to admit, one to serve and one to refuse. -/
theorem witness_PagesComeAndGo_requests :
    (waitingPage.waiting.any (fun r => r.ctx == 0 && r.va == 0) = false ∧ freeEntry waitingPage (waitingPage.ctx 0).func = some true) ∧
    (({ waitingPage with requests := fullRequests }).waiting = [] ∧
      freeEntry { waitingPage with requests := fullRequests } (waitingPage.ctx 0).func = none) ∧
    (let s := { waitingPage with waiting := [⟨0, 0, 2, false, 0⟩] }
     s.waiting.find? (fun r => reqDie r.func == 16 && admissible s r) = some ⟨0, 0, 2, false, 0⟩ ∧ pageState s 0 0 = some .demand ∧
       freeEntry s 2 = some true) ∧
    (let s := requestedPage
     (s.ctx 0).mapped.find? (fun m => m.1 == 0) = some (0, 0) ∧ leafState (entryOf s 0 0) = some .requested ∧
       servedNext s 0 0 = true ∧ withinQuota s 0 (4 ^ 0) = true ∧ frameFree s (2 ^ 31) 0 = true ∧
       s.shoot.any (fun d => d.ctx == 0 && d.va == 0) = false ∧ codePage s 0 0 = none ∧ requestData s 0 0 0 = .cells [(3, 5)] ∧
       (residentAt (2 ^ 31)).isSome = true) ∧
    (let s := requestedPage.setCtx 0 { requestedPage.ctx 0 with backings := [] }
     (s.ctx 0).mapped.find? (fun m => m.1 == 0) = some (0, 0) ∧ leafState (entryOf s 0 0) = some .requested ∧
       servedNext s 0 0 = true ∧ refusable s 0 0 0 = true) ∧
    (let s := { waitingPage with waiting := [⟨0, 0, 2, false, 100⟩] }
     s.waiting.find? (fun r => reqDie r.func == reqDie (s.ctx 0).func && admissible s r) = none ∧ onDemand s 0 0 = true ∧
       s.waiting.any (fun r => r.ctx == 0 && r.va == 0) = true ∧ waitingPage.waiting = [] ∧ onDemand waitingPage 0 0 = true ∧
       onDemand (leafed id) 0 0 = false) := by
  decide +kernel

/-- An atomic that the core of `module3` still has on the way to byte 20 of the frame. -/
def onItsWay (op : BitVec 4) (posted : Bool) : Atom :=
  ⟨9, op, 20, .home (pageFrame + 20) false, 0x41200000, 0x5B36120F, none, posted, 0, false, false, 0, 0, false, false, 0, 0, 0, 0⟩

/-- Shootdowns that are clear and that an atomic holds, a page to replicate, one whose replication ends, one to narrow. -/
theorem witness_PagesComeAndGo_changes :
    (let d : Shootdown := ⟨0, 0, 131072, pageFrame, true, false, none⟩
     let s := { module3 copier with shoot := [d] }
     let c : Core := { copier with atoms := [onItsWay 0 true] }
     s.shoot.find? (fun d => d.ctx == 0 && d.va == 0) = some d ∧ shootClear s d = true ∧ d.free = true ∧ d.copies = false ∧
       shootClear { module3 c with shoot := [d] } d = false) ∧
    (module3 copier |>.ctx 0).mapped.find? (fun m => m.1 == 0) = some (0, 0) ∧ leafState (entryOf (module3 copier) 0 0) = some .mapped ∧
    withinQuota (module3 copier) 0 15 = true ∧
    (((framesOf pageFrame true).filter (· != pageFrame)).all fun a => rangeFree (module3 copier) a (pageSize 0)) = true ∧
    leafFrame (entryOf (module3 copier) 0 0) = pageFrame ∧
    leafState (entryOf (leafed fun e => setBit e 5 1) 0 0) = some .replicated := by
  decide +kernel

/-- That module where context 0 is of function 2, whose mailbox is idle, with host memory in reach. -/
def mailing (f : Context → Context) : State :=
  let s := module3 copier
  { s.setCtx 0 (f { s.ctx 0 with func := 2 }) with
    ports := [(portOf 2, { Port.reset with st := .up })], hostMem := [(99, 1)], dirty := [pageFrame / 2 ^ 17] }

theorem mailing_owns {f : Context → Context}
    (h : ((mailing f).ctx 0).st ≠ .free ∧ ((mailing f).ctx 0).func = 2 ∧ ((mailing f).func 2).busy = false ∧
      ((mailing f).func 2).resetting = false) : Owns (mailing f) 2 0 :=
  { named := by decide, number := by decide, made := h.1, mine := h.2.1, idle := h.2.2.1, steady := h.2.2.2,
    portOpen := rfl }

/-- The state in which the counter at address 16 of context 0 has risen by 3. -/
def raised16 (s : State) : State :=
  match countUp s 0 (s.ctx 0).tag 16 3 with
  | .added q => q
  | _ => s

/-- Pages to map now and on demand, ranges that meet a page, pages to unmap and to evict, tracking, units to harvest; package copies
that move, that stall and whose ends are refused. -/
theorem witness_MappingCommands :
    (let s := mailing fun c => { c with backings := [(0, ⟨0x700, true⟩)] }
     Owns s 2 0 ∧ mappingStates (s.ctx 0).st = true ∧ meetsPage s 0 (2 ^ 17) (pageSize 0) = false ∧ withinQuota s 0 1 = true ∧
       frameFree s (2 ^ 31) 0 = true ∧
       ((s.pastePhys (2 ^ 31) (pageSize 0) []).mapResident 0 (2 ^ 17) 0 (2 ^ 31) true true false false).isSome = true ∧
       (s.writeLeaf 0 (2 ^ 17) 0 (leafEntry 0 0 true true false true false false 1 (s.ctx 0).tag)).isSome = true ∧
       meetsPage s 0 0 (pageSize 0) = true ∧ pageAt s 0 7 = some (0, 0) ∧ pageAt s 0 (2 ^ 18) = none ∧
       (s.ctx 0).backings.find? (fun b => b.1 == 0) = some (0, ⟨0x700, true⟩) ∧ leafState (entryOf s 0 0) = some .mapped ∧
       backingWritable s 2 0 ⟨0x700, true⟩ (pageSize 0) = true ∧
       (s.writeLeaf 0 0 0 (setBit (setBit (entryOf s 0 0) 6 1) 7 0 - leafFrame (entryOf s 0 0))).isSome = true ∧
       trackStates (s.ctx 0).st = true ∧ (s.ctx 0).mapped = [(0, 0)] ∧
       pageState (s.setCtx 0 { s.ctx 0 with tracking := true }) 0 0 = some .mapped ∧ hostReach s 2 = true) ∧
    (let s := mailing id
     let d := mailing id |>.editLeaf 0 0 fun e => setBit e 6 1
     Accepts s 2 ∧ readPlace s 2 0 (.host 99) 1 = .cells [(0, 1)] ∧
       writePlace s 2 0 (.host 40) 1 [(0, 1)] = .done { s with hostMem := [(40, 1), (99, 1)] } ∧
       readPlace d 2 0 (.virt 0) 4 = .stall 0 .demand ∧ readPlace s 2 0 (.hdm 4096) 4 = .bad ∧
       writePlace s 2 0 (.phys 0) 1 [(0, 1)] = .bad ∧ reservedPlace s (.hdm 0) 4 = true ∧ contextPlace s (.virt 0) 4 = true ∧
       contextPlace s (.phys pageFrame) 4 = true ∧ reservedPlace s (.host 99) 1 = false ∧
       readPlace { s with ports := [(portOf 2, { Port.reset with st := .retraining })] } 2 0 (.host 99) 1 = .held ∧
       signalStalls s 0 16 3 = false ∧ signalStalls d 0 16 3 = true ∧ countUp s 0 (s.ctx 0).tag 16 3 = .added (raised16 s)) := by
  refine ⟨⟨mailing_owns met, met⟩, (mailing_owns met).toAccepts, met⟩

/-! ### Atomics -/

/-- The tree of 30 rows. -/
def tree30 : Tree := ⟨0, 5, 30, 32, 0, 0, false, 0⟩

/-- Core 3 with that tree. -/
def summing (c : Core) : State :=
  let s := module3 c
  s.setCtx 0 { s.ctx 0 with trees := [(7, recordOf 30 32)] }

/-- A core whose paths name one element, with an operand in g5 and lane indices in its vector registers. -/
def adder (p : Path) : Core :=
  { ready with lcore := 3, g := ready.g.set 5 8, a := Vector.replicate 8 p, v := Vector.replicate 32 (1023 * 2 ^ 224 + 7 * 2 ^ 64 + 3) }

/-- The lanes of a vector atomic of `adder p` that its translation lets pass: how many, and what became of the rest, 0 for none, 1 for a
stall, and 256 and the cause for a trap. -/
def lanesOf (s : State) (p : Path) : Nat × Nat :=
  match translateLanes 3 tree30 p 0 false ((adder p).readV 3) (List.range 8) s with
  | .ok ps _ => (ps.length, 0)
  | .stall _ => (0, 1)
  | .fault n ps t _ => (if n < ps.length then 99 else ps.length, 256 + t.cause.toNat)

/-- An atomic that has come back with its old value. -/
def back : Atom := { onItsWay 0 false with seq := 9, applied := true, returned := true, old := 77 }

/-- An element to reach at home, one inside and one outside, a bad path, a wait for order, and a returned value. -/
theorem witness_AtomicsIssueAndReturn :
    (∀ c ∈ [adder (mkPath 7 0 0), adder (mkPath 7 5 1023), adder (mkPath 7 9 1023), { adder (mkPath 7 0 0) with wait := .atomic 9, atoms := [back] },
        { adder (mkPath 7 0 0) with atoms := [onItsWay 0 true] }], IssuesPlain (summing c) c ∧ (0, 7) ∈ ((summing c).cluster 0).cached) ∧
    (let s := summing (adder (mkPath 7 0 0))
     windowAt s 0 20 = none ∧ reach s 0 1 20 .atomic = .here 0 (pageFrame + 20) (Sys2Proof.Machine.entryOf s 0 0) ∧
       atomTree s 0 (mkPath 7 0 0) = .ok tree30 ∧ atomTree s 0 (mkPath 7 5 1023) = .ok tree30 ∧ inside tree30 0 = true ∧ inside tree30 1023 = false ∧
       (∃ r, atomTree s 0 (mkPath 7 9 1023) = .error r) ∧ sendTo s 0 1 0 0 0 false = .to (.home pageFrame false) s ∧ s.late = [] ∧
       (adder (mkPath 7 0 0)).acquiring = false ∧ (adder (mkPath 7 0 0)).released = true ∧
       ({ adder (mkPath 7 0 0) with atoms := [onItsWay 0 true] }).released = false ∧ back.returned = true ∧ back.bad = false) ∧
    (let c := adder (mkPath 7 0 0)
     c.vectorStall = false ∧ c.pendingV 3 = false ∧ c.resVregs = 32 ∧
       ∃ ps, translateLanes 3 tree30 (mkPath 7 0 0) 0 false (c.readV 3) ((List.range 8).filter fun l => decide (0 ≤ l)) (summing c) = .ok ps (summing c)) ∧
    (let c := { adder 0 with atoms := [back] }
     let e := { queued (.vaadd 3 5 1 0 0) with seqs := [(2, 9)] }
     e.seqs.find? (fun q => q.1 == 2) = some (2, 9) ∧ c.atoms.find? (fun a => a.seq == 9) = some back ∧
       e.seqs.find? (fun q => q.1 == 5) = none) := by
  refine ⟨?_, ?_, ?_, met⟩
  · intro c h
    refine ⟨plain_of ?_, ?_⟩ <;> revert c <;> decide +kernel
  · refine ⟨met, met, met, met, met, met, ⟨3, met⟩,
      met⟩
  · refine ⟨met, met, met, ?_⟩
    exact ⟨(List.range 7).map fun l => (l, [3, 0, 7].getD l 0, .home (pageFrame + 4 * [3, 0, 7].getD l 0) false), met⟩

/-- Pages that deny, that are on demand and unmapped, for an element and for the first lane; an index past its block in the first lane
and in a later one. -/
theorem witness_AtomicsIssueAndReturn_outcomes :
    (let p := mkPath 7 0 0
     let s := summing (adder p)
     reach (s.editLeaf 0 0 fun e => setBit e 3 0) 0 1 12 .atomic = .denied 0 131072 ∧
       reach (s.editLeaf 0 0 fun e => setBit e 6 1) 0 1 12 .atomic = .stall 0 0 .demand ∧
       reach (s.editLeaf 0 0 fun _ => 0) 0 1 12 .atomic = .unmapped 0 131072 none ∧
       lanesOf (s.editLeaf 0 0 fun e => setBit e 3 0) p = (0, 256 + 6) ∧ lanesOf (s.editLeaf 0 0 fun e => setBit e 6 1) p = (0, 1) ∧
       lanesOf (s.editLeaf 0 0 fun _ => 0) p = (0, 256 + 5) ∧ (elem 32 ((adder p).readV 3) 0).toNat = 3 ∧
       blockCount tree30 (pDepth p) = 1024 ∧ inside tree30 3 = true) ∧
    (let p := mkPath 7 5 0
     lanesOf (summing (adder p)) p = (0, 256 + 4) ∧ blockCount tree30 (pDepth p) = 1) ∧
    (let p := mkPath 7 4 0
     lanesOf (summing (adder p)) p = (2, 256 + 4)) := by
  refine ⟨met, met, met⟩

/-- Atomics at home of each operation, in good and in bad parcels, and one that has been applied. -/
theorem witness_AtomicsApply :
    (∀ op : BitVec 4, ∀ p : Bool, let a := onItsWay op p
      let c := { copier with atoms := [a] }
      let s := module3 c
      s.core 3 = c ∧ c.atoms.find? (fun b => b.seq == 9) = some a ∧ a.applied = false ∧ c.firstAt a = true ∧
        orderHeld s { c with atoms := c.atoms.filter fun b => b.seq != 9 } a.after a.va 4 = false ∧ s.marks = [] ∧
        a.place = .home (pageFrame + 20) false ∧ memWf s.hbm = true ∧ a.op = op ∧ a.posted = p ∧
        s.rangeGood ((pageFrame + 20) - (pageFrame + 20) % 256) (((pageFrame + 20) % 256 + 4 + 255) / 256 * 256) = true ∧
        ({ s with hbmBad := [pageFrame / 4 + 5] }).rangeGood ((pageFrame + 20) - (pageFrame + 20) % 256)
          (((pageFrame + 20) % 256 + 4 + 255) / 256 * 256) = false) ∧
    (let c := { copier with atoms := [back] }
     (module3 c).core 3 = c ∧ c.atoms.find? (fun b => b.seq == 9) = some back ∧ back.applied = true) ∧
    (let s := module3 copier
     walk s (homeCtx s 0 20) 20 = .leaf (leafNow s) 2560 ∧ leafState (leafNow s) = some .mapped ∧
       translate s 0 (s.ctx 0).tag (20 - 20 % 4) .atomic = .ok (pageFrame + 20) (leafNow s)) := by
  refine ⟨?_, met, met⟩
  intro op p
  refine ⟨rfl, rfl, rfl, ?_, ?_, rfl, rfl, ?_, rfl, rfl, ?_, ?_⟩
  · revert op p; decide +kernel
  · revert op p; decide +kernel
  · exact (by decide +kernel : memWf (module3 copier).hbm = true)
  · exact (by decide +kernel : (module3 copier).rangeGood ((pageFrame + 20) - (pageFrame + 20) % 256) (((pageFrame + 20) % 256 + 4 + 255) / 256 * 256) = true)
  · exact (by decide +kernel : ({ module3 copier with hbmBad := [pageFrame / 4 + 5] }).rangeGood ((pageFrame + 20) - (pageFrame + 20) % 256)
          (((pageFrame + 20) % 256 + 4 + 255) / 256 * 256) = false)

/-! ### Barriers, exchanges, messages -/

/-- A group of two members, in its compute phase, whose slots 1 and 3 hold an entry. -/
def pair : Group :=
  { channel := 2, root := (1, 5), members := [3, 4], entries := [⟨1, 0, 1, 0x100, 0x200, 40⟩, ⟨3, 1, 0, 0x140, 0x240, 8⟩], phase := 7,
    st := .compute, arrived := [], nextArr := [], releaseAt := 0, orVote := true, andVote := false, clock := none, closedAt := none,
    inX := [], frozen := false }

/-- Core 3, its first member: channel values 7, 8 and 6 in g4, g5 and g6. -/
def first : Core :=
  { ready with lcore := 3, group := some 0, barmember := 0x7, chan := 2, target := Vector.replicate 16 7,
               g := (((((((ready.g.set 4 7).set 5 8).set 6 6).set 8 1).set 9 3).set 10 16).set 11 44).set 12 2 }

/-- Core 4, its second. -/
def second : Core := { ready with lcore := 4, group := some 0 }

/-- The two cores in cycle 9. -/
def meetingOf (c d : Core) (g : Group) : State :=
  let s := module3 c
  { s.setCtx 0 { s.ctx 0 with launches := [(0, { pageLaunch with groups := [g] })] } with cores := [(3, c), (4, d)], tags := [(3, 1), (4, 1)] }

/-- The first member with an arrival on the way. -/
def arriving : Core := { first with arrivals := [⟨2, some true, true, 1, 1⟩] }

/-- The pair as it releases. -/
def releasing (x : Bool) (t : Nat) : Group := { pair with st := .releasing, releaseAt := t, arrived := [(4, some true, x), (3, none, x)] }

/-- Members of a channel and none, phases that have come and have not, votes to send and to collect; arrivals that wait, that wait for
others, that complete the group or come in a release; releases before and at their time. -/
theorem witness_BarriersSynchronise :
    (∀ c ∈ [first, { first with resBars := 2 }, { first with barmember := 0 }, { first with target := Vector.replicate 16 8 },
        { first with wait := .arrived }], IssuesPlain (meetingOf c second pair) c ∧ (meetingOf c second pair).groupOf c = some pair) ∧
    (first.wait ≠ .arrived ∧ (2 : Nat) < first.resBars.toNat ∧ first.barmember.getLsbD 2 = true ∧
      0 ≤ (pair.phase - first.targetOf 2).toInt ∧ ¬0 ≤ (pair.phase - 8).toInt ∧ 0 ≤ (pair.phase - (first.readG 4).setWidth 16).toInt ∧
      ¬0 ≤ (pair.phase - (first.readG 5).setWidth 16).toInt ∧
      ∀ k < 16, (first.readG 4).getLsbD k = true → k < first.resBars.toNat ∧ first.barmember.getLsbD k = true ∧
        0 ≤ (pair.phase - first.targetOf k).toInt) ∧
    (∀ d ∈ [second, { second with ctx := none }], ∀ g ∈ [pair, releasing true 5], let s := meetingOf arriving d g
      s.core 3 = arriving ∧ s.group 0 0 0 = some g ∧ arriving.mayEnter ⟨2, some true, true, 1, 1⟩ = true) ∧
    ({ arriving with atoms := [{ onItsWay 0 true with seq := 1 }] }).mayEnter ⟨2, some true, true, 1, 1⟩ = false ∧
    (let s1 := (meetingOf arriving second pair).setCore 3 { arriving with arrivals := [] }
     (∃ n ∈ pair.members, ¬(n = 3 ∨ hasArrived s1 0 pair n = true))) ∧
    (let g := { pair with arrived := [(4, none, false)] }
     let s := meetingOf arriving second g
     (∀ n ∈ g.members, n = 3 ∨ hasArrived (s.setCore 3 { arriving with arrivals := [] }) 0 g n = true) ∧ (s.ctx 0).pending = false) ∧
    (∀ x : Bool, let s := meetingOf first second (releasing x 5)
      s.group 0 0 0 = some (releasing x 5) ∧ 5 ≤ s.now ∧ s.cores.Pairwise (fun p q => p.1 < q.1)) ∧
    (let s := meetingOf first second (releasing true 50)
     s.group 0 0 0 = some (releasing true 50) ∧ s.now < 50) := by
  refine ⟨?_, met, met, met, ⟨4, met⟩, met, met,
    met⟩
  intro c h
  refine ⟨plain_of ?_, ?_⟩ <;> revert c <;> decide +kernel

/-- The pair in its exchange, slot 1 open. -/
def trading : Group := { pair with st := .exchange, clock := some 1 }

/-- The first member in that exchange. -/
def trader : Core := { first with xphase := true, nextSlot := 0 }

/-- The first member with a transfer under way. -/
def sender : Core := { trader with transfers := [⟨1, 4, 0x104, 0x200, 40, 32, [], 1, 0, some 5⟩] }

/-- Cores in and out of a phase and of a group, slots to send in their turn, too early, too late and too long; a clock that waits,
moves and ends; transfers that move, that are held and that are foreign. -/
theorem witness_ExchangesMoveSlots :
    (∀ c ∈ [first, trader, { first with wait := .arrived }, { trader with nextSlot := 2 }], ∀ g ∈ [pair, trading, { trading with clock := some 3 }],
      IssuesPlain (meetingOf c second g) c ∧ (meetingOf c second g).groupOf c = some g ∧ c.localDone = true) ∧
    (∃ c : Core, IssuesPlain (meetingOf c second pair) c ∧ (meetingOf c second pair).groupOf c = none) ∧
    (first.wait = .none ∧ first.xphase = false ∧ trader.xphase = true ∧ 0 ≤ (pair.phase - first.targetOf pair.channel).toInt ∧
      pair.members.findIdx (fun m => m == 3) = 0 ∧ trading.sends 1 0 = some ⟨1, 0, 1, 0x100, 0x200, 40⟩ ∧ trading.sends 3 0 = none ∧
      (first.readG 8).toNat = 1 ∧ (first.readG 10).toNat = 16 ∧ (first.readG 11).toNat = 44 ∧ (first.readG 12).toNat % 4 ≠ 0 ∧
      trading.isOpen 1 = true ∧ { trading with clock := some 3 }.isOpen 1 = false ∧
      pair.st ≠ .exchange ∧ trading.st = .exchange) ∧
    (let s := meetingOf sender second trading
     s.group 0 0 0 = some trading ∧ trading.closedAt = none ∧ mayClose s 0 trading 1 = false) ∧
    (let c := { trader with nextSlot := 512 }
     let d := { second with nextSlot := 512 }
     (meetingOf c d trading).group 0 0 0 = some trading ∧ mayClose (meetingOf c d trading) 0 trading 1 = true ∧
       nextSlotFrom trading.entries 2 = some 3 ∧ mayClose (meetingOf c d { trading with clock := some 3 }) 0 { trading with clock := some 3 } 3 = true ∧
       nextSlotFrom trading.entries 4 = none ∧ trading.arrived = []) ∧
    (let g := { trading with closedAt := some 8 }
     (meetingOf trader second g).group 0 0 0 = some g ∧ 8 < (meetingOf trader second g).now ∧ clockStands ((meetingOf trader second g).ctx 0) g = false ∧
       clockStands ((meetingOf trader second g).ctx 0) { g with frozen := true } = true) ∧
    (∀ z ∈ [0, 100], ∀ ts ∈ [[(3, 1), (4, 1)], [(3, 1)]],
     let d := { second with zeroUntil := z }
     let s := { meetingOf sender d trading with tags := ts }
     let t : Transfer := ⟨1, 4, 0x104, 0x200, 40, 32, [], 1, 0, some 5⟩
     s.core 3 = sender ∧ s.core 4 = d ∧ dueTransfer sender s.now = some t ∧ memberCore s 0 4 = some 4 ∧ (t.fetch sender).buf.length = 8 ∧
       tagOf s 4 = ts.length - 1 ∧ (s.delivery 4 (0x200 + 32) 8).1 = decide (z = 0) ∧ memWf d.mem = true) := by
  refine ⟨?_, ⟨{ first with group := none }, plain_of, met⟩, met, met,
    met, met, met⟩
  intro c h g e
  refine ⟨plain_of ?_, ?_, ?_⟩ <;> revert c g <;> decide +kernel

/-- A ring of four entries, two of them landed. -/
def someRing : Ring := ⟨true, 0x1000, 4, 6, 9, 2, []⟩

/-- A core with that ring: core 4 in g5, a base of 0x1000 in g6, a size of 64 in g7. -/
def mailer (r : Ring) : Core := { first with g := (((ready.g.set 5 12).set 6 0x1000).set 7 64).set 8 3, ring := r }

/-- Rings that take an entry, that are full, closed or another tag's; an entry to take, none to take; rings to set up and to close;
messages that land, that wait and that are discarded. -/
theorem witness_MessageRings :
    (∀ r ∈ [someRing, { someRing with isOpen := false }, { someRing with landed := 0 }],
      ∀ d ∈ [{ second with ring := someRing }, { second with ring := { someRing with tail := 10 } }],
      let c := mailer r
      let s := meetingOf c d pair
      IssuesPlain s c ∧ s.core (8 * (s.cur / 8) + (c.readG 5).toNat % 8) = d ∧ tagOf s 4 = tagOf s s.cur ∧ c.pendingV 4 = false ∧
        c.resVregs = 32 ∧ c.vectorStall = false ∧ c.takesPending = 0 ∧ r.inflight = []) ∧
    (someRing.size - (someRing.tail - someRing.head) = 1 ∧ someRing.size - (10 - someRing.head) = 0 ∧ (64 : Nat) ≤ 256 ∧ 2 ^ (64 : Nat).log2 = 64 ∧
      ((mailer someRing).readG 7).toNat = 64 ∧ ((mailer someRing).readG 6).toNat = 0x1000) ∧
    tagOf { meetingOf (mailer someRing) second pair with tags := [(3, 1)] } 4 ≠ tagOf { meetingOf (mailer someRing) second pair with tags := [(3, 1)] } 3 ∧
    (∀ z ∈ [0, 100], ∀ ts ∈ [[(3, 1)], []],
     let c := { first with zeroUntil := z, ring := { someRing with inflight := [⟨8, 5, 3, 1, 0⟩] } }
     let s := { meetingOf c second pair with tags := ts }
     s.core 3 = c ∧ tagOf s 3 = ts.length ∧ (s.delivery 3 (0x1000 + 32 * (8 % 4)) 32).1 = decide (z = 0) ∧ memWf c.mem = true ∧
       8 = c.ring.head + c.ring.landed) := by
  refine ⟨?_, met, met, met⟩
  intro r h d e
  refine ⟨plain_of ?_, ?_⟩ <;> revert r d <;> decide +kernel

/-- Rings to set up with nothing and with something in flight; sizes that are none, ranges that leave local memory and RES_LOCAL, and
a base that is not aligned. -/
theorem witness_MessageRings_setup :
    (∀ r ∈ [(0x1000, 64, 0x8000), (0x1000, 0, 0x8000), (0x1000, 3, 0x8000), (0x1000, 512, 0x8000), (0x7FE0, 2, 0x8000), (0x1000, 64, 0x1100),
        (0x1004, 64, 0x8000)], ∀ fl ∈ [[], [(⟨8, 5, 3, 1, 0⟩ : Append)]],
      let c := { first with g := (first.g.set 6 (BitVec.ofNat 32 r.1)).set 7 (BitVec.ofNat 32 r.2.1), resLocal := BitVec.ofNat 32 r.2.2,
                            ring := { someRing with inflight := fl } }
      IssuesPlain (meetingOf c second pair) c ∧ (c.readG 6).toNat = r.1 ∧ (c.readG 7).toNat = r.2.1 ∧ c.resLocal.toNat = r.2.2 ∧
        c.ring.inflight = fl) ∧
    (2 ^ (64 : Nat).log2 = 64 ∧ 2 ^ (3 : Nat).log2 ≠ 3 ∧ 256 < 512 ∧ 0x8000 < 0x7FE0 + 32 * 2 ∧ 0x1100 < 0x1000 + 32 * 64 ∧ 0x1004 % 32 ≠ 0) := by
  refine ⟨?_, met⟩
  intro r h fl e
  refine ⟨plain_of ?_, ?_⟩ <;> revert r fl <;> decide +kernel

/-! ### The waggle plane and continuations -/

/-- Core 3 in cycle `n`, in a context that owns lane 5, with this lane. -/
def waggling (c : Core) (l : Lane) (n : Nat) : State :=
  { here c with now := n, cur := 3, cores := [(3, c)], contexts := [(0, { pageContext with laneMask := 0x20 })], lanes := [(5, l)] }

/-- A lane the context owns. -/
def owned : Lane := { Lane.reset with owner := some 0 }

/-- A core that holds an entry in this state on lane 5. -/
def holder (st : HolderState) : Core := { ready with holders := [(5, ⟨st, false, true, false, false, false, 5, 6, 7, 8, 9⟩)] }

/-- An entrant of core `c`. -/
def entrant (c : Nat) (w : BitVec 53) (leading : Bool) : Entrant := ⟨c, some w, leading, false, false, .no⟩

/-- A frame in slot `k` with these entrants. -/
def frameOf (k : Nat) (es : List Entrant) : Lane := { owned with st := .running, start := 1, slot := k, entrants := es, frame := 7 }

/-- Lanes owned and not, holders in each state; entries before and at their boundary in each state of a lane; frames that start, run,
and end with a winner, with a loser, and withdrawn. -/
theorem witness_WagglesDecide :
    (∀ c ∈ [ready, holder .resolved, holder .pending], IssuesPlain (waggling c owned 9) c ∧ c.ctx = some 0 ∧
      (((waggling c owned 9).ctx 0).laneMask).getLsbD 5 = true ∧ (((waggling c owned 9).ctx 0).laneMask).getLsbD 6 = false ∧
      inSettle (waggling c owned 9) owned 3 = false) ∧
    (look Holder.reset 5 (holder .pending).holders).st = .pending ∧ (look Holder.reset 5 (holder .resolved).holders).st ≠ .pending ∧
    (∀ b ∈ [9, 19], ∀ l ∈ [owned, { owned with st := .gathering, start := 100 }, frameOf 2 []],
      let s := waggling (holder .pending) { l with sent := [(entrant 3 5 true, b)] } 9
      (s.lane 5).sent = [(entrant 3 5 true, b)] ∧ (entrant 3 5 true).core = 3 ∧ (s.lane 5).st = l.st ∧ (frameOf 2 []).start < s.now) ∧
    (let s := waggling ready { owned with st := .gathering, start := 4, entrants := [entrant 3 5 false] } 9
     (s.lane 5).st = .gathering ∧ (s.lane 5).start ≤ s.now ∧ ¬(s.lane 5).start ≤ 3) ∧
    (let s := waggling ready (frameOf 1 [entrant 3 5 true]) 9
     (s.lane 5).st = .running ∧ (s.lane 5).slot < 53 ∧ (s.lane 5).start + 4 * ((s.lane 5).slot + 1) ≤ s.now) ∧
    (let s := waggling (holder .pending) (frameOf 53 [entrant 3 5 true]) 300
     (s.lane 5).st = .running ∧ (s.lane 5).start + 224 ≤ s.now ∧ (s.lane 5).void = false ∧ (s.lane 5).queue = [] ∧
       (s.lane 5).entrants = [entrant 3 5 true] ∧ (entrant 3 5 true).gone = false ∧ (entrant 3 5 true).mute = false ∧
       (entrant 3 5 true).leading = true ∧ ((s.core 3).holder 5).st = .pending) ∧
    (let s := waggling (holder .pending) (frameOf 53 [entrant 3 5 false, entrant 6 9 true]) 300
     (s.lane 5).entrants = [entrant 3 5 false, entrant 6 9 true] ∧ (entrant 6 9 true).core ≠ 3 ∧ ((s.core 3).holder 5).st = .pending) ∧
    (∀ w ∈ [Settled.no, .cancelled], let e := { entrant 3 5 false with settled := w }
     let s := waggling (holder .pending) { frameOf 53 [e] with void := true } 300
     (s.lane 5).st = .running ∧ (s.lane 5).start + 224 ≤ s.now ∧ (s.lane 5).void = true ∧ (s.lane 5).queue = [] ∧
       (s.lane 5).entrants = [e] ∧ e.gone = false ∧ e.mute = false ∧ ((s.core 3).holder 5).st = .pending ∧ e.settled ≠ .halted) ∧
    (∀ l ∈ [frameOf 5 [entrant 3 5 true], { frameOf 5 [entrant 3 5 true] with st := .gathering }],
      let s := waggling (holder .pending) { l with withdraw := [(3, 9)] } 9
      (s.lane 5).withdraw = [(3, 9)] ∧ 9 ≤ s.now ∧ (s.lane 5).queue = [] ∧ (s.lane 5).entrants = [entrant 3 5 true]) := by
  refine ⟨?_, met, met, met, met, met, met,
    met, met, met⟩
  intro c h
  refine ⟨plain_of ?_, ?_⟩ <;> revert c <;> decide +kernel

/-- A record for the group, and one that fails its check. -/
def goodRecord : PoolRec := ⟨2, contBytes 0x40 (contFlags 0 0 (some 0) false) (List.replicate 12 9) 0x99, false, 0, 0⟩

/-- The record with a byte changed. -/
def badRecord : PoolRec := { goodRecord with bytes := goodRecord.bytes.set 9 0x33 }

/-- A member of a group of one, with a continuation image at 0x400. -/
def forager : Core :=
  { ready with lcore := 3, group := some 0, g := (ready.g.set 4 0x400).set 5 0x9000,
               mem := (goodRecord.bytes.zipIdx.filterMap fun p => if p.1 = 0 then none else some (0x400 + p.2, p.1)) }

/-- The group. -/
def lone : Group := { pair with members := [3], entries := [] }

/-- Its module, with a pool of two records at most. -/
def foraging (c : Core) (pool : List PoolRec) : State :=
  { here c with now := 9, cur := 3, cores := [(3, c)], contexts := [(0, { pageContext with
      pool := pool, poolCap := 2, poolSeq := 8, launches := [(0, { pageLaunch with groups := [lone] })] })] }

/-- The state in which the core has retired its continuation. -/
def retired (s : State) : State :=
  match retire s 3 with
  | .done q => q
  | .wait q => q
  | .trap q _ => q

/-- Images to post, pools with room and full, records to take that pass and fail their check, cores that retire, wait quiet and are
in no group; idle cores awake and retained; groups quiet and not. -/
theorem witness_ForagePools :
    (∀ c ∈ [forager, { forager with wait := .quiet }, { forager with group := none }, { forager with wait := .yielding [9] }], ∀ p ∈ [[], [goodRecord], [badRecord], [goodRecord, badRecord]],
      IssuesPlain (foraging c p) c ∧ c.ctx = some 0) ∧
    (forager.localDone = true ∧ contTrap forager 0x400 = none ∧ 0x8000 ≤ (forager.readG 5).toNat ∧ (forager.readG 4).toNat = 0x400 ∧
      poolFull (foraging forager []) 0 = false ∧ poolFull (foraging forager [goodRecord, badRecord]) 0 = true ∧ forager.wait = .none) ∧
    (∀ p ∈ [[], [goodRecord, badRecord]], let s := (foraging forager p).leaveRendezvous 3
      retire s 3 = .done (retired s) ∧ poolFull (retired s) 0 = (p != [])) ∧
    (let c := { forager with vq := [queued (.vmov 1 2 0)] }
     let s := (foraging c []).leaveRendezvous 3
     IssuesPlain (foraging c []) c ∧ c.localDone = true ∧ contTrap c 0x400 = none ∧ retire s 3 = .wait (retired s)) ∧
    (eligibleRec (foraging forager []) forager = none ∧ eligibleRec (foraging forager [goodRecord]) forager = some goodRecord ∧
      contOk goodRecord.bytes = true ∧ eligibleRec (foraging forager [badRecord]) forager = some badRecord ∧ contOk badRecord.bytes = false) ∧
    (let s := (foraging forager [goodRecord]).markRec forager 2 true
     (((foraging forager [goodRecord]).ctx 0).pool.map PoolRec.id).Nodup ∧ retire s 3 = .done (retired s)) ∧
    (∀ c ∈ [{ forager with status := .idle }, { forager with status := .idle, retention := .retained }], ∀ r ∈ [goodRecord, badRecord],
      let s := foraging c [r]
      s.core 3 = c ∧ (s.ctx 0).pool.find? (fun r => r.id == 2 && eligible' c r) = some r ∧
        s.launchOf c = some { pageLaunch with groups := [lone] } ∧ (s.ctx 0).st = .running ∧ c.haltReq = .none ∧ pickUpOpen s c = true ∧
        c.zeroUntil ≤ s.now) ∧
    (let c := { forager with quiet := true }
     (foraging c []).group 0 0 0 = some lone ∧ quiescent (foraging c []) 0 0 0 lone = true ∧ memberCore (foraging c []) 0 3 = some 3 ∧
       quiescent (foraging c [goodRecord]) 0 0 0 lone = false) ∧
    (foraging forager []).groupOf ((foraging forager []).core 3) = some lone ∧
    (foraging { forager with group := none } []).groupOf ((foraging { forager with group := none } []).core 3) = none := by
  refine ⟨?_, met, met, ⟨plain_of, met⟩, met, met, met, met, met⟩
  intro c h p e
  refine ⟨plain_of ?_, ?_⟩ <;> revert c p <;> decide +kernel

/-! ### Launches, queues, contexts -/

/-- The bytes of a launch record with these words, and where they stand in a memory. -/
def recordBytes (f : Nat → Nat) : List Byte := (List.range 64).flatMap fun i => leBytes (f i) 4

/-- Bytes in place from an address on. -/
def placedAt (a : Nat) (bs : List Byte) : List Host.Cell := bs.zipIdx.filterMap fun p => if p.1 = 0 then none else some (a + p.2, p.1)

/-- The record of a launch of one core in column `col` at entry `entry`, which waits for counter `ctr` to reach 5. -/
def launchBytes (col entry ctr : Nat) : List Byte :=
  recordBytes fun i => if i = 0 then 1 else if i = 4 then entry else if i = 5 then col * 512 else if i = 6 then 1025
    else if i = 8 then 0x80 else if i = 30 then ctr else if i = 32 then 5 else 0

/-- A core with such a record at 0x400. -/
def launcher (bs : List Byte) : Core := { ready with lcore := 3, g := (ready.g.set 4 0x400).set 5 0x9000, mem := placedAt 0x400 bs }

/-- Its module, cores 1 and 3 granted to the context. -/
def launching (c : Core) (ls : Table Launch) : State :=
  { here c with now := 9, cur := 3, cores := [(1, Core.reset), (3, c)], tags := [(1, 1), (3, 1)],
                contexts := [(0, { pageContext with launches := ls })] }

/-- All sixteen slots taken. -/
def allSlots : Table Launch := (List.range 16).map fun l => (l, pageLaunch)

/-- A record that admission checks, of core 0. -/
def plainRecord : LaunchRec := { pageLaunch.record with levels := [0x80] }

/-- A launch in slot 2 on core 3, in a state. -/
def onCore3 (st : LaunchState) : Launch := { pageLaunch with st := st, record := { pageLaunch.record with col0 := 3 } }

/-- Its module. -/
def launchAt (c : Core) (st : LaunchState) : State := launching c [(2, onCore3 st)]

/-- A core that is free, and one that a launch has. -/
def freeCore : Core := { ready with status := .idle, ctx := none, lslot := 16, group := none, lcore := 3, mem := [(0x30, 9)] }

/-- The core of slot 2. -/
def loadedCore : Core := { freeCore with ctx := some 0, lslot := 2 }

/-- A queue in host memory with its head in entry 3. -/
def headQueue : HQueue :=
  { HQueue.reset with
    ringBase := 0x1000, repBase := 0x8000, hostMem := true, prio := 3, log2n := 4, st := .empty, head := 3, tail := 3 }

/-- A record whose patch table stands at address 64 of the context. -/
def patchedBytes : List Byte :=
  recordBytes fun i => if i = 0 then 1 else if i = 4 then 0x40 else if i = 5 then 3 * 512 else if i = 6 then 1025
    else if i = 7 then 1 else if i = 8 then 0x80 else if i = 28 then 64 else 0

/-- The module whose page with that table is on demand. -/
def patching : State :=
  let s := (module3 (launcher patchedBytes)).editLeaf 0 0 fun e => setBit e 6 1
  { s with tags := [(3, 1)], contexts := [(0, { s.ctx 0 with launches := [(3, pageLaunch), (0, pageLaunch)], image := { Image.reset with
      kernels := [(0, { pageKernel with header := { pageKernel.header with patchLen := 1 } })] } })] }

/-- The state that admission leaves where it has to wait. -/
def admitted (a : Admission) : State :=
  match a with
  | .stall q => q
  | _ => State.reset

/-- A late copy on its way: a launch that waits for it, at its LAUNCH and at its end; a patch table in a page on demand. -/
theorem witness_LaunchesRun_waits :
    (let c := launcher (launchBytes 3 0x40 0)
     let s := { launching c [(0, pageLaunch)] with late := [⟨1, [(64, 9)]⟩] }
     IssuesPlain s c ∧ c.ctx = some 0 ∧ s.launchOf c = some pageLaunch ∧ s.late ≠ []) ∧
    (let s := { launchAt loadedCore .running with late := [⟨1, [(64, 9)]⟩] }
     s.launch 0 2 = some (onCore3 .running) ∧ s.late ≠ []) ∧
    (let c := launcher patchedBytes
     let s := patching
     let a := admission s 0 { decodeRecord patchedBytes with image := 0 }
     IssuesPlain s c ∧ c.ctx = some 0 ∧ s.launchOf c = some pageLaunch ∧ s.late = [] ∧ c.released = true ∧ c.localDone = true ∧
       c.acquiring = false ∧ imageTrap c 0x400 256 = none ∧ c.badWord 0x400 256 = none ∧ freeSlot s 0 = some 1 ∧ a = .stall (admitted a)) :=
  ⟨⟨plain_of, met⟩, met, plain_of, met⟩

/-- LAUNCH with a free slot, with none, of a record admission rejects, and before its time; records that fail and pass each check;
launches to load, that wait, to start, to end and that go on. -/
theorem witness_LaunchesRun :
    (∀ bs ∈ [launchBytes 3 0x40 0, launchBytes 3 0x41 0], ∀ ls ∈ [[(3, pageLaunch), (0, pageLaunch)], allSlots],
      let c := launcher bs
      let s := launching c ls
      IssuesPlain s c ∧ c.ctx = some 0 ∧ s.launchOf c = some pageLaunch ∧ s.late = [] ∧ c.released = true ∧ c.localDone = true ∧ c.acquiring = false ∧
        imageTrap c 0x400 256 = none ∧ c.badWord 0x400 256 = none ∧ (c.readG 4).toNat = 0x400 ∧ 0x8000 ≤ (c.readG 5).toNat ∧
        ({ c with atoms := [onItsWay 0 true] }).released = false) ∧
    (let s := launching (launcher []) [(3, pageLaunch), (0, pageLaunch)]
     freeSlot s 0 = some 1 ∧ admission s 0 { decodeRecord (launchBytes 3 0x40 0) with image := 0 } = .ok [] [] ∧
       admission s 0 { decodeRecord (launchBytes 3 0x41 0) with image := 0 } = .reject 2 ∧ freeSlot (launching (launcher []) allSlots) 0 = none) ∧
    (let s := launching (launcher []) []
     let r := { plainRecord with col0 := 3 }
     (s.ctx 0).image.kernels.find? (fun p => p.1 == r.kernel) = some (r.kernel, pageKernel) ∧ r.ok = true ∧ r.image = 0 ∧
       pageKernel.header.ok = true ∧ r.lindex < pageKernel.nLaunch ∧ ¬({ r with entry := 2 }).entry % 4 = 0 ∧ ¬1 ≤ ({ r with rows := 0 }).rows ∧
       r.cols = 1 ∧ r.rows = 1 ∧ pageKernel.groups = [] ∧ levelsOk s 0 r.levels = true ∧ unitsKept s 0 r = true ∧ levelsOk s 0 [] = false ∧
       (∀ n ∈ areaOf r, grantedCore s 0 n ≠ none) ∧ ¬(∀ n ∈ areaOf plainRecord, grantedCore s 0 n ≠ none) ∧
       rootsOk s 0 (formGroups s 0 pageKernel r) = true ∧ (∀ g ∈ formGroups s 0 pageKernel r, tableOk g pageKernel.header.localLen = true) ∧
       r.povr = false ∧ freeSlot s 0 ≠ none ∧ r.waitAddr = 0 ∧ r.sigAddr = 0 ∧ pageKernel.macros = []) ∧
    (∀ r ∈ [Retention.awake, .retained], let c := { freeCore with retention := r }
     let s := launchAt c .placing
     s.launch 0 2 = some (onCore3 .placing) ∧ (s.ctx 0).st = .running ∧ areaOf (onCore3 .placing).record = [3] ∧
       grantedCore s 0 3 = some 3 ∧ earlierWaits s 0 (onCore3 .placing) = false ∧ coreFree s 0 3 = true ∧ (s.core 3).retention = r ∧
       (onCore3 .placing).groups = [] ∧ pageKernel.runs = [] ∧ c.memBad = [] ∧
       (s.ctx 0).image.kernels.find? (fun p => p.1 == (onCore3 .placing).record.kernel) = some ((onCore3 .placing).record.kernel, pageKernel) ∧
       (installAll 0 0 (s.ctx 0).tag pageKernel.macros [0] s).isSome = true) ∧
    coreFree (launchAt ready .placing) 0 3 = false ∧
    (let q := { onCore3 .placing with order := 5 }
     let s := launching freeCore [(2, q), (3, { q with order := 4 })]
     s.launch 0 2 = some q ∧ (s.ctx 0).st = .running ∧ earlierWaits s 0 q = true) ∧
    (∀ z ∈ [0, 50], ∀ r ∈ [Retention.awake, .retained], let c := { loadedCore with zeroUntil := z, retention := r }
      let s := launchAt c .loading
      s.launch 0 2 = some (onCore3 .loading) ∧ (s.ctx 0).pending = false ∧ (s.ctx 0).haltKind = .none ∧ coresIn s 0 2 = [3] ∧
        (s.core 3).zeroUntil = z ∧ (s.core 3).retention = r) ∧
    (∀ rs ∈ [[], [(7, [(1 : Byte)])]], let q := { onCore3 .running with origin := some (2, 5, 3) }
     let s := { launching loadedCore [(2, q)] with
       queues := [(queueKey 2 5, { headQueue with reports := rs })], hostMem := [(99, 1)], ports := [(portOf 2, { Port.reset with st := .up })] }
     s.launch 0 2 = some q ∧ launchDone s 0 2 = true ∧ s.late = [] ∧ (reportWaits s q.origin).isSome = !rs.isEmpty ∧ q.record.sigAddr = 0 ∧
       (s.ctx 0).launches = [(2, q)] ∧ (s.queue 2 5).hostMem = true ∧ hostReach s 2 = true ∧ memWf s.hostMem = true) ∧
    launchDone (launchAt { loadedCore with status := .running } .running) 0 2 = false := by
  refine ⟨?_, met, met, met, met, met, met, met, met⟩
  intro bs h ls e
  refine ⟨plain_of ?_, ?_⟩ <;> revert bs ls <;> decide +kernel

/-- Queue 5 of function 2 in host memory, its head record in entry 3, in reach, the function the active one of tag 1. -/
def queueState (f : HQueue → HQueue) (bs : List Byte) (counter : Byte) : State :=
  { mailing (fun c => { c with st := .ready, launches := [] }) with
    cores := [], now := 9, hostMem := placedAt 0x1300 bs, tags := [(1, 1), (3, 1)], hbm := put (pageFrame + 16) counter (mailing id).hbm,
    queues := [(queueKey 2 5, f headQueue)], funcs := [(2, { Func.reset with tag := 1 })], rotations := [(1, [2])], mode := .service }

/-- That queue with a record to take. -/
def takeable : State := queueState (fun q => { q with st := .ready, tail := 5 }) (launchBytes 3 0x40 0) 0

/-- That queue waiting on its counter. -/
def polling (counter : Byte) : State := queueState (fun q => { q with st := .waiting, tail := 4 }) (launchBytes 3 0x40 0x10) counter

/-- Doorbells of too many records, of none and of some; queues disabled, waiting with their counter reached and not; a record to take;
a choice among contexts and queues. -/
theorem witness_QueuesChoose :
    (let s := queueState id (launchBytes 3 0x40 0) 0
     let q := s.queue 2 5
     (s.func 2).resetting = false ∧ q.enabled = true ∧ 2 ^ q.log2n < ((100 : Word) - q.head).toNat ∧ ((5 : Word) - q.head).toNat ≤ 2 ^ q.log2n ∧
       q.head = 3 ∧ q.st = .empty ∧ q.hostMem = true ∧ hostReach s 2 = true ∧ hostHeld s 2 = false ∧ closedTo s 2 = false ∧
       closedTo { s with refused := true } 2 = true ∧ hostHeld { s with ports := [(portOf 2, { Port.reset with st := .retraining })] } 2 = true ∧
       ringHeld { s with ports := [] } 2 q = false ∧ headBytes { s with ports := [] } 2 q = .none ∧
       (decodeRecord (readBytes s.hostMem (q.ringBase + 256 * (q.head.toNat % 2 ^ q.log2n)) 256)).waitAddr = 0) ∧
    ((queueState (fun q => { q with st := .disabled }) [] 0).queue 2 5).enabled = false ∧
    (∀ b ∈ [(5 : Byte), 4], let s := polling b
      let q := s.queue 2 5
      let bs := readBytes s.hostMem (q.ringBase + 256 * (q.head.toNat % 2 ^ q.log2n)) 256
      q.st = .waiting ∧ q.pollAt ≤ s.time ∧ q.tail ≠ q.head ∧ q.hostMem = true ∧ hostReach s 2 = true ∧ hostHeld s 2 = false ∧
        (decodeRecord bs).waitAddr ≠ 0 ∧
        (decodeRecord bs).waitVal = 5 ∧ counterOk s q.ctx (decodeRecord bs).waitAddr = true ∧
        readWhole s q.ctx (decodeRecord bs).waitAddr 8 = .bytes [b, 0, 0, 0, 0, 0, 0, 0]) ∧
    (let s := queueState (fun q => { q with st := .waiting, pollAt := 99 }) [] 0
     s.time < (s.queue 2 5).pollAt) ∧
    (let s := takeable
     let r := decodeRecord (launchBytes 3 0x40 0)
     (look [] 1 s.rotations).head? = some 2 ∧ s.mode = .service ∧ s.overTemp = false ∧ sliceOver s 1 = false ∧ (s.func 2).resetting = false ∧
       leastCtx s ((ctxsOf s 2).filter (mayTake s)) = some 0 ∧ chosenQueue s 0 = some (5, s.queue 2 5) ∧
       ringHeld s 2 (s.queue 2 5) = false ∧ headBytes s 2 (s.queue 2 5) = .bytes (launchBytes 3 0x40 0) ∧ admission s 0 r = .ok [] [] ∧
       admission (s.takeHead 2 0 5) 0 r = .ok [] [] ∧ freeSlot (s.takeHead 2 0 5) 0 = some 0) ∧
    ({ takeable with mode := .maintenance }).mode = .maintenance ∧ leastCtx takeable [0, 4] = some 0 ∧ [0, 4].Pairwise (· < ·) := by
  refine ⟨met, met, met, met, met, met⟩

/-- Context 1 of function 2 with two cores, context 2 of function 3, the two in the rotation of tag 7, in cycle 500,000,000. -/
def rotating (f : Context → Context) (a b : CoreStatus) : State :=
  let on (st : CoreStatus) (x : Nat) : Core := { ready with status := st, ctx := some x }
  { here ready with
    now := 500000000, time := 10 ^ 12, cores := [(3, on a 1), (4, on b 1), (6, on .running 2)], rotations := [(7, [2, 3])], sliceEnd := [(7, 500)],
    contexts := [(1, f { pageContext with func := 2 }), (2, { pageContext with func := 3, st := .quiesced })],
    funcs := [(2, { Func.reset with tag := 7 }), (3, { Func.reset with tag := 7 })] }

/-! ### Commands, host writes, collectives, ports -/

/-- An Aruth image of one empty tree section, at 0x3000, with its manifest's signature and a key that it
verifies under, both made outside the model, at 0x4000. -/
def hostImage : List Host.Cell :=
  placedAt 0x3000 (leBytes 0xe69734775bcbe56b83542beece8ebbf9960bd8b3ba417f51e43d3a7423737bc2e69734775bcbe56b83542beece8ebbf9960bd8b3ba417f51e43d3a7423737bc255b852781b9995a44c939b64e441ae2724b96f99c8f4fb9a141cfc9842c4b0e300000000000000000000000700000000ea6677cfabfc1e157e35c8964514f752c37725f0a8af0aaf5263ee6d4957fe15000000000000000100000000464e414d0000000000000000000000000000000700000020000000010001000148545241 192) ++
  placedAt 0x4000 (leBytes 0x8392a87b36625576022c3e810ec25ff780b2bad269d1ef5192f0a5ba49232c2e3f89623513295921bcea3ec55bfa04374963cc8b6d66ec56e71f944478324ba4 64)

/-- What the loader makes of it: no kernel and no tree; the SHA-256 of the manifest was computed outside the model. -/
def hostImageLoaded : Image × List (Nat × Nat × BitVec 256) :=
  ({ Image.reset with manifest := 0xcf5edf2e7944b249fc243719c34a372cfc03331277ed6eccc878b1a2b1b141b5 }, [])

/-- The module with context 0 of function 2 in a state, core 3 in a status for it, the function's tag 1 at the front of its rotation;
queue 0 is disabled, queue 1 in error, lane 3 another context's. -/
def steering (f : Context → Context) (st : CoreStatus) : State :=
  let on : Core := { ready with lcore := 3, status := st, ctx := if st = .idle then none else some 0 }
  { mailing f with
    cores := [(3, on), (6, { ready with ctx := some 2 })], tags := [(3, 1), (6, 1)], rotations := [(1, [2])], mode := .service,
    funcs := [(2, { Func.reset with tag := 1 }), (3, { Func.reset with busy := true })], lanes := [(3, { Lane.reset with owner := some 5 })],
    queues := [(queueKey 2 0, { HQueue.reset with st := .disabled }), (queueKey 2 1, { HQueue.reset with st := .error, tail := 11 })] }

theorem steering_owns {f : Context → Context} {st : CoreStatus}
    (h : ((steering f st).ctx 0).st ≠ .free ∧ ((steering f st).ctx 0).func = 2 ∧ ((steering f st).func 2).busy = false ∧
      ((steering f st).func 2).resetting = false) : Owns (steering f st) 2 0 :=
  { named := by decide, number := by decide, made := h.1, mine := h.2.1, idle := h.2.2.1, steady := h.2.2.2,
    portOpen := rfl }

/-- A saved context whose one launch ran on core 3. -/
def savedContext (c : Context) : Context :=
  { c with st := .saved, launches := [(0, { pageLaunch with record := { pageLaunch.record with col0 := 3 } })],
           saveArea := [(3, { ready with lcore := 3, ctx := none })] }

/-- Slices that end with no running context and with one, boundary waits before and at their end, pre-emptions and halts with every
core at rest and not, in retention and awake. -/
theorem witness_ContextsStopAndSave :
    (let s := rotating (fun c => { c with st := .quiesced }) .idle .idle
     look [] 7 s.rotations = [2, 3] ∧ look 0 7 s.sliceEnd ≤ s.time ∧ ∀ y ∈ ctxsOf s 2, (s.ctx y).st ≠ .running) ∧
    (∀ st ∈ [CtxState.running, .quiesced], let s := { rotating (fun c => { c with st := st, launches := [] }) .idle .idle with sliceEnd := [(7, 10 ^ 13)] }
     look [] 7 s.rotations = [2, 3] ∧ s.time < look 0 7 s.sliceEnd ∧ idleFunc s 2 = true ∧ (s.ctx 1).st = st) ∧
    (let s := rotating id .running .idle
     (ctxsOf s 2).filter (fun y => (s.ctx y).st == .running) = [1] ∧ (s.ctx 1).haltKind = .none ∧ (s.ctx 1).pending = false ∧
       collectiveOpen s 1 = false ∧ look [] 7 { s with rotations := [(7, [2])] }.rotations = [2]) ∧
    (let s := rotating (fun c => { c with pending := true }) .running .idle
     (s.ctx 1).st = .running ∧ (s.ctx 1).pending = true ∧ (s.ctx 1).deferred = false ∧ (s.ctx 1).forced = false ∧ allRest s 1 = false ∧
       (s.ctx 1).pendingAt + timeOf (1000 * (s.func (s.ctx 1).func).waitMs) ≤ s.time) ∧
    (let s := rotating (fun c => { c with pending := true, pendingAt := 10 ^ 12 }) .running .idle
     s.time < (s.ctx 1).pendingAt + timeOf (1000 * (s.func (s.ctx 1).func).waitMs)) ∧
    (∀ k ∈ [HaltKind.none, .halt], ∀ r ∈ [Retention.awake, .retained],
      let s := (rotating (fun c => { c with pending := true, haltKind := k }) .halted .halted).modCore 4 fun c => { c with retention := r }
      (s.ctx 1).haltKind = k ∧ allRest s 1 = true ∧ memoriesAwake s 1 = decide (r = .awake)) ∧
    allRest (rotating (fun c => { c with haltKind := .halt }) .running .halted) 1 = false := by
  refine ⟨met, met, met, met, met, met, met⟩

/-- Context 0 as a command of SAVE or DUMP with this limit finds it: stopped, or with its core halted in place. -/
def saving (st : CtxState) (limit : Nat) : State :=
  let there := st = .running ∨ st = .faulted
  steering (fun c => { savedContext c with
    st := st, haltKind := .save, saveArgs := (0x2000, limit), saveArea := if there then [] else [(3, { ready with lcore := 3, ctx := none })] })
    (if there then .halted else .idle)

/-- An image at 0x2000 with a context section and `n` cores. -/
def imageCells (n : Nat) : List Host.Cell :=
  placedAt 0x2000 ([0x43, 0x4E, 0x54, 0x58, 1, 0, 1, 0] ++ leBytes 0 4 ++ leBytes 2 4 ++ leBytes 0x10000 8 ++ leBytes 0 40 ++
    leBytes 1 4 ++ leBytes 1 4 ++ leBytes 8256 8 ++ leBytes 0x200 16 ++ leBytes 2 4 ++ leBytes n 4 ++ leBytes (49152 * n) 8 ++ leBytes 0x4000 16)

/-- Context 0 READY, with that image in host memory; its core table is empty where the image has a core. -/
def restorable (n : Nat) : State :=
  { steering (fun c => { c with st := .ready, launches := [], saveArea := [], table := if n = 0 then none else some [] }) .idle with
    hostMem := imageCells n }

/-- Contexts to save and to dump in each state, whose images wait, and are within and beyond the limit. -/
theorem witness_ContextsStopAndSave_images :
    (∀ st ∈ [CtxState.preempted, .quiesced, .running, .faulted, .ready], ∀ k ∈ [HaltKind.none, .halt],
      let s := mailing fun c => { c with st := st, haltKind := k }
      Owns s 2 0 ∧ hostReach s 2 = true ∧ (s.ctx 0).st = st ∧ (s.ctx 0).haltKind = k ∧ collectiveOpen s 0 = false ∧
        headerError s 0 0x2000 = some 6) ∧
    (let s := rotating (fun c => { c with haltKind := .save }) .running .halted
     (s.ctx 1).haltKind = .save ∧ (s.ctx 1).st = .running ∧ allRest s 1 = false) ∧
    (∀ st ∈ [CtxState.preempted, .quiesced, .running, .faulted], ∀ l ∈ [0, 200000], let s := saving st l
      (s.ctx 0).st = st ∧ (s.ctx 0).func = 2 ∧ hostReach s 2 = true ∧ imageReady s 0 = true ∧ memoriesAwake s 0 = true ∧
        (s.ctx 0).saveArgs = (0x2000, l) ∧ (s.ctx 0).halted = false ∧
        hostHeld s 2 = false ∧ memWf s.hostMem = true ∧
        hostHeld { s with ports := [(portOf 2, { Port.reset with st := .retraining })] } (s.ctx 0).func = true ∧
        (l = 0 ∨ (imageOf (s.setCtx 0 { s.ctx 0 with haltKind := .none, halted := st == .running }) 0 (st == .faulted)).1 + 8 ≤ l) ∧
        (l = 0 ↔ l < (imageOf (s.setCtx 0 { s.ctx 0 with haltKind := .none, halted := st == .running }) 0 (st == .faulted)).1)) ∧
    (let s := (saving .running 0).modCore 3 fun c => { c with retention := .retained }
     imageReady s 0 = true ∧ memoriesAwake s 0 = false) := by
  refine ⟨?_, met, ?_, met⟩
  · intro st h k e
    refine ⟨mailing_owns ?_, ?_⟩ <;> revert st k <;> decide +kernel
  · decide +kernel

/-- No core is granted to a context with an empty core table. -/
theorem none_granted (n : Nat) : grantedCore (restorable 1) 0 n = none := by
  have h : ((restorable 1).ctx 0).table = some [] := rfl
  simp [grantedCore, h, look]

/-- So no list with a core has all of its cores granted. -/
theorem core_refused {l : List CoreRec} (h : l.length = 1) : ¬∀ r ∈ l, grantedCore (restorable 1) 0 r.core.lcore ≠ none := by
  intro all
  obtain ⟨r, rfl⟩ := List.length_eq_one_iff.1 h
  exact all r (.head _) (none_granted _)

/-- An image to restore. -/
theorem witness_ContextsStopAndSave_restore :
    (∀ n ∈ [0, 1], let s := restorable n
      Owns s 2 0 ∧ hostReach s 2 = true ∧ (s.ctx 0).func = 2 ∧ (s.ctx 0).st = .ready ∧ (s.ctx 0).launches = [] ∧
        headerError s 0 0x2000 = none ∧ queueNumbers s 2 (sectionAt s.hostMem 0x2000 8).1 = some []) ∧
    (let s := restorable 0
     let got := readImageAt s 2 0 0x2000 []
     (∀ r ∈ got.cores, grantedCore s 0 r.core.lcore ≠ none) ∧ (∀ n < 32, laneBusy s 0 n = false) ∧
       (∃ n < 32, laneBusy { s with lanes := [(4, { Lane.reset with owner := some 0, st := .running })] } 0 n = true) ∧ (∀ p ∈ got.lanes, (s.lane p.1).owner = none ∨ (s.lane p.1).owner = some 0) ∧
       rootsApart s (got.launches.flatMap fun p => p.2.groups.map (resumedGroup s 0)) = true ∧ (s.installImage 2 0 got []).isSome = true) := by
  refine ⟨?_, met⟩
  intro n h
  refine ⟨⟨⟨met, ?_, ?_, ?_⟩, met, ?_, ?_⟩, ?_⟩ <;> revert n <;> decide +kernel

/-- An image to restore whose core is not granted. -/
theorem witness_ContextsStopAndSave_refuse :
    ¬∀ r ∈ (readImageAt (restorable 1) 2 0 0x2000 []).cores, grantedCore (restorable 1) 0 r.core.lcore ≠ none :=
  core_refused met

/-- The module as it resumes that context. -/
def resumingState : State :=
  let s := steering savedContext .idle
  s.setCtx 0 { s.ctx 0 with resuming := true, paused := .host }

/-- The cores of that context. -/
def resumedCores : List (Nat × Core) := (placesOf resumingState 0 ((steering savedContext .idle).ctx 0).saveArea).getD []

/-- The module where that core has passed to the context. -/
def cleanState : State := { resumingState with cores := [(3, { freeCore with ctx := some 0 })] }

/-- A mailbox that is busy, a number out of range, a context that is free, another function's or LOADING, and a code of no command;
contexts in each state that a command meets, one that can be resumed, a core stopped for the debugger. -/
theorem witness_ContextCommands :
    ((steering id .running).func 3).busy = true ∧ closedTo { steering id .running with refused := true } 2 = true ∧ Accepts (steering id .running) 2 ∧ ((steering id .running).ctx 5).st = .free ∧
    (((steering id .running).setCtx 7 { pageContext with func := 3 }).ctx 7).func ≠ 2 ∧
    (((steering id .running).setCtx 7 { pageContext with func := 3 }).ctx 7).st ≠ .free ∧ commandCode 0x30 = false ∧
    (∀ st ∈ [CtxState.loading, .running, .preempted, .quiesced, .saved, .terminated], ∀ g ∈ [CoreStatus.running, .debugStopped, .debugHalted],
      let s := steering (fun c => { c with st := st }) g
      Owns s 2 0 ∧ (s.ctx 0).st = st ∧ (s.ctx 0).haltKind = .none ∧ (s.ctx 0).pending = false ∧ collectiveOpen s 0 = false ∧
        (s.ctx 0).suspended = false ∧ memberCore s 0 3 = some 3 ∧ (s.core 3).status = g ∧ memberCore s 0 99 = none) ∧
    Owns (steering (fun c => { c with st := .preempted, suspended := true }) .idle) 2 0 ∧
    (let s := steering savedContext .idle
     Owns s 2 0 ∧ (s.ctx 0).st = .saved ∧ (s.ctx 0).suspended = false ∧ (s.ctx 0).haltKind = .none ∧ s.mode = .service ∧ s.overTemp = false ∧
       activeFunc s 2 = true ∧ placesOf resumingState 0 (s.ctx 0).saveArea = some resumedCores ∧ placesFree resumingState 0 resumedCores = true ∧
       placesClean resumingState 0 resumedCores = false ∧ placesFree cleanState 0 resumedCores = true ∧
       placesClean cleanState 0 resumedCores = true ∧ rootsApart cleanState ((s.ctx 0).launches.flatMap fun p => p.2.groups.map (resumedGroup cleanState 0)) = true ∧
       (installLaunches 0 (s.ctx 0).tag resumedCores (s.ctx 0).launches cleanState).isSome = true ∧
       rootsApart resumingState ((s.ctx 0).launches.flatMap fun p => p.2.groups.map (resumedGroup resumingState 0)) = true ∧
       (installLaunches 0 (s.ctx 0).tag resumedCores (s.ctx 0).launches resumingState).isSome = true) := by
  refine ⟨met, met, (steering_owns met).toAccepts, met, met, met, met, ?_,
    steering_owns met, steering_owns met, met⟩
  intro st h g e
  refine ⟨steering_owns ?_, ?_⟩ <;> revert st g <;> decide +kernel

/-- A function whose context may take queues and parameters, with queues absent, disabled and in error, lanes free and taken. -/
theorem witness_QueueAndParameterCommands :
    let s := steering id .running
    Owns s 2 0 ∧ mappingStates (s.ctx 0).st = true ∧ (s.queue 2 2).st = .absent ∧ (∀ k < 2, (s.queue 2 k).st ≠ .absent) ∧
      (s.ctx 0).st ≠ .terminated ∧ (s.ctx 0).st ≠ .faulted ∧ (s.queue 2 0).st = .disabled ∧ (s.queue 2 0).ctx = 0 ∧ (s.queue 2 1).st = .error ∧
      (s.queue 2 1).ctx = 0 ∧ (s.lane 3).owner ≠ none ∧ (s.lane 4).owner = none :=
  ⟨steering_owns met, met⟩

/-- The module with the host image in host memory. -/
def creating : State := { steering id .running with hostMem := hostImage }

/-- That module with context 0 in a state. -/
def living (st : CtxState) : State := steering (fun c => { c with st := st, mapped := [] }) .running

/-- Images that load and do not, loading contexts with and without tables, a terminated context; cores of no context to take into a
partition and out of it, a function of no context to bind. -/
theorem witness_ContextAndPartitionLife :
    (let s := creating
     Accepts s 2 ∧ Accepts s 512 ∧ (s.func 2).tag ≠ 0 ∧ hostReach s 2 = true ∧ s.overTemp = false ∧ (s.ctx 1).st = .free ∧
       (∀ y < 1, (s.ctx y).st ≠ .free) ∧ loadImage s.hostMem 0x3000 0x4000 = some hostImageLoaded ∧
       (layoutFor hostImageLoaded.1 hostImageLoaded.2).isSome = true ∧ loadImage s.hostMem 0x2000 0x4000 = none) ∧
    (Accepts { creating with funcs := [] } 2 ∧ (({ creating with funcs := [] }).func 2).tag = 0) ∧
    (((living .loading).ctx 0).st = .loading ∧ ((living .loading).ctx 0).func = 2 ∧ ((living .loading).loadContext 0).isSome = true ∧
      ({ living .loading with freeTable := 2 ^ 30 }).loadContext 0 = none) ∧
    (((living .terminated).ctx 0).st = .terminated ∧ (∀ d ∈ (living .terminated).shoot, d.ctx ≠ 0) ∧ owesReports (living .terminated) 0 = false) ∧
    (let s := { steering id .running with hostMem := [(0x9001, 0x30)], ports := [(portOf 512, { Port.reset with st := .up })] }
     Accepts s 512 ∧ hostReach s 512 = true ∧ bitmapCores s.hostMem 0x9000 = [12, 13] ∧
       (∀ c ∈ [12, 13], namesCore c = true ∧ rowEnabled s (dieOf c) (rowOf c) = true) ∧ s.pendTags = [] ∧ losers s [12, 13] 9 = [] ∧
       ∀ c ∈ [12, 13], (s.core c).retention = .awake) ∧
    (let s := { steering id .running with tags := [(12, 9), (3, 1)] }
     (∀ c ∈ coresOfTag s 9, (s.core c).retention = .awake) ∧ Accepts s 512 ∧ coresOfTag s 9 ≠ [] ∧ s.pendTags = [] ∧ losers s (coresOfTag s 9) 0 = [] ∧ ctxsOf s 4 = []) := by
  refine ⟨⟨⟨met, met, met, met⟩, ⟨met, met, met, met⟩, met⟩,
    ⟨⟨met, met, met, met⟩, met⟩, met, met, ⟨⟨met, met, met, met⟩, met⟩, met, ⟨met, met, met, met⟩, met⟩

/-- A reduction window of context 0. -/
def window (f : Window → Window) : Window :=
  f { Window.reset with kind := true, len := 1, ctr := 0x40000, members := 1, epoch := 5 }

/-- An atomic that the switch of window 4 has to accept. -/
def toSwitch (posted : Bool) : Atom := { onItsWay 0 posted with va := 20, place := .switch 4, compare := 0 }

/-- The module with that window in place, its epoch, and such an atomic of core 3, in cycle 90,000,000. -/
def collecting (f : Window → Window) (e : Epoch → Epoch) (posted : Bool) : State :=
  { steering id .running with
    now := 90000000, time := 10 ^ 12, cores := [(3, { ready with lcore := 3, atoms := [toSwitch posted] })],
    funcs := [(2, { Func.reset with tag := 1, windows := [(4, window f)] })], epochs := [(2 * 64 + 4, e Epoch.reset)] }

/-- Windows in force and not, that pass and fail each check, idle and in an open epoch; epochs with parts and closes to come, that all
members have closed, of a home here and elsewhere, and whose watchdog runs and has run out. -/
theorem witness_HostAndCollectives :
    (∀ f ∈ [id, fun d => { d with en := true }, fun d => { d with base := 5 }, fun d => { d with lctx := 77 }, fun d => { d with home := 3 },
        fun d => { d with en := true, isOpen := true }], let s := collecting f id false
      (s.func 2).resetting = false ∧ closedTo s 2 = false ∧ closedTo { s with refused := true } 2 = true ∧
        look Window.reset 4 (s.func 2).windows = window f) ∧
    (∀ m ∈ [[], [1]], ∀ w ∈ [none, some 5],
     let s := collecting (fun d => { d with en := true, isOpen := true, members := 3 }) (fun e => { e with stopped := m, watchAt := w }) false
     let d := look Window.reset 4 (s.func (s.ctx 0).func).windows
     let ep := look Epoch.reset (2 * 64 + 4) s.epochs
     d.en = true ∧ d.kind = true ∧ d.lctx = 0 ∧ 1 < 64 ∧ 1 ≠ s.modNum ∧ d.members.getLsbD 1 = true ∧ d.isOpen = true ∧ ep.watchAt = w ∧
       ep.stopped = m ∧ (s.ctx 0).st = .running ∧ (s.ctx 0).deferred = false ∧ (s.core 3).status ≠ .idle ∧
       (s.func 2).windows.find? (fun p => p.1 == 4) = some (4, d)) ∧
    (let s := collecting (fun d => { d with en := true, ctr := 64 }) id false
     let win := window fun d => { d with en := true, ctr := 64 }
     reach s 0 1 20 .atomic = .here 0 (pageFrame + 20) (leafNow s) ∧ windowAt s 0 20 = some (4, win) ∧ win.kind = true ∧ merges 0 = true ∧
       20 < win.ctr ∧ reach s 0 1 64 .atomic = .here 0 (pageFrame + 64) (leafNow s) ∧ windowAt s 0 64 = some (4, win) ∧
       win.ctr ≤ 64 ∧ 64 < win.ctr + 4) ∧
    (window id).en = false ∧ (window id).fieldsOk = true ∧ (window fun d => { d with base := 5 }).fieldsOk = false ∧
    (let s := collecting id id false
     let r := { s.func 2 with windows := [(3, window fun d => { d with en := true }), (4, window id)] }
     windowMeets (s.func 2) 4 (window id) = false ∧ windowMeets r 4 (window id) = true ∧ (s.ctx 0).st ≠ .free ∧ (s.ctx 0).func = 2 ∧
       (s.ctx 77).st = .free ∧ (window id).home = s.modNum ∧ (window id).kind = true ∧ reaches s 3 = false) ∧
    (∀ p : Bool, ∀ ks ∈ [[], [(0, (0 : BitVec 4), (3 : Word), (0 : Word))]],
     let s := collecting (fun d => { d with en := true }) (fun e => { e with closes := ks }) p
     let d := look Window.reset 4 (s.func (s.ctx 0).func).windows
     let ep := look Epoch.reset (2 * 64 + 4) s.epochs
     d.en = true ∧ d.kind = true ∧ d.lctx = 0 ∧ s.core 3 = { ready with lcore := 3, atoms := [toSwitch p] } ∧ (s.core 3).ctx = some 0 ∧
       (toSwitch p).seq = 9 ∧ (toSwitch p).place = .switch 4 ∧ (toSwitch p).applied = false ∧ s.modNum = 0 ∧ ep.closes = ks ∧
       ep.nextClos = []) ∧
    (∀ p : Bool, let a := { toSwitch p with va := 0x40000, sysRel := true }
     let c : Core := { ready with lcore := 3, atoms := [a] }
     let s := { collecting (fun d => { d with en := true }) id p with cores := [(3, c)] }
     let d := look Window.reset 4 (s.func (s.ctx 0).func).windows
     d.en = true ∧ d.kind = true ∧ d.lctx = 0 ∧ c.ctx = some 0 ∧ a.sysRel = true ∧ a.compare = 0 ∧ d.ctr ≤ a.va ∧ a.va < d.ctr + 4 ∧
       (look Epoch.reset (2 * 64 + 4) s.epochs).closes = []) ∧
    (let d := window fun d => { d with en := true, isOpen := true, members := 3 }
     (1 : Nat) ≠ (collecting id id false).modNum ∧ d.members.getLsbD 1 = true ∧ (look Epoch.reset 4 []).closes = []) ∧
    (let s := collecting (fun d => { d with en := true, isOpen := true, home := 5 }) (fun e => { e with closes := [(0, 0, 3, 0)] }) false
     let d := look Window.reset 4 (s.func 2).windows
     let ep := look Epoch.reset (2 * 64 + 4) s.epochs
     d.isOpen = true ∧ (∀ m < 64, d.members.getLsbD m = true → ∃ k ∈ ep.closes, k.1 = m) ∧ ep.nextPart = [] ∧ ep.nextClos = [] ∧
       d.home ≠ s.modNum) ∧
    (let parts := [(⟨0, 3, 9, 0, 20, 7, 0⟩ : Contrib), ⟨1, 3, 9, 0, 20, 8, 1⟩]
     let s := collecting (fun d => { d with en := true, isOpen := true, members := 0 }) (fun e => { e with parts := parts }) false
     let d := look Window.reset 4 (s.func 2).windows
     let ep := look Epoch.reset (2 * 64 + 4) s.epochs
     d.home = s.modNum ∧ ep.parts = parts ∧ ep.closes = [] ∧
       translate s d.rctx (s.ctx d.rctx).tag 20 .atomic = .ok (pageFrame + 20) (leafNow s) ∧ leafState (leafNow s) ≠ some .replicated ∧
       s.rangeGood ((pageFrame + 20) - (pageFrame + 20) % 256) (((pageFrame + 20) % 256 + 4 + 255) / 256 * 256) = true ∧ memWf s.hbm = true ∧
       epochStall s d.rctx (epochAtomics d ep) = none ∧
       epochStall (s.editLeaf 0 0 fun e => setBit e 6 1) d.rctx (epochAtomics d ep) = some (0, .demand)) ∧
    (∀ t ∈ [5, 10 ^ 12], let s := collecting (fun d => { d with en := true, isOpen := true }) (fun e => { e with watchAt := some t }) false
     let d := look Window.reset 4 (s.func 2).windows
     (look Epoch.reset (2 * 64 + 4) s.epochs).watchAt = some t ∧ d.isOpen = true ∧ (s.func 2).windows.find? (fun p => p.1 == 4) = some (4, d) ∧
       (t = 5 → t + timeOf (1000 * 50) ≤ s.time) ∧ (t ≠ 5 → s.time < t + timeOf (1000 * 50))) := by
  refine ⟨?_, met, met, met, met, met, met, met, met, met,
    met, met, met⟩
  intro f h
  exact ⟨rfl, rfl, rfl, rfl⟩

/-- A port in a state, in cycle 90,000,000. -/
def porting (p : Nat) (f : Port → Port) : State := { steering id .running with time := 10 ^ 12, ports := [(p, f Port.reset)] }

/-- Ports in each state, functions that reset with and without contexts, units to declare and to retire, a module in each mode. -/
theorem witness_PortsErrorsAndModule :
    (∀ st ∈ [LinkState.down, .failed, .training, .up, .degraded, .retraining], ∀ n ∈ [0, 7], ∀ t ∈ [10 ^ 12, 5], ∀ p ∈ [2, 40],
      let r := look Port.reset p (porting p fun r => { r with st := st, replays := n, since := t }).ports
      p < 68 ∧ r.st = st ∧ r.replays = n ∧ r.since = t ∧ (n = 0 → r.replays < 7) ∧ (n ≠ 0 → 7 ≤ r.replays) ∧
        (t = 5 → r.since + timeOf 10000 ≤ (porting p id).time) ∧ (t ≠ 5 → (porting p id).time < r.since + timeOf 10000)) ∧
    (((steering id .running).ctx 0).func = 2 ∧ ((steering id .running).ctx 0).st ≠ .free ∧ ctxsOf (steering id .running) 2 ≠ [] ∧
      (let s := { steering id .running with contexts := [], funcs := [(2, { Func.reset with resetting := true })] }
       (s.func 2).resetting = true ∧ ctxsOf s 2 = [])) ∧
    (let s := { steering id .idle with lasting := [.macRow 700, .row 2 7], tags := [] }
     (steering id .running).errors = [] ∧ (steering id .running).lasting = [] ∧ HwUnit.macRow 700 ∈ s.lasting ∧ HwUnit.macRow 701 ∉ s.lasting ∧
       (s.core 700).slice.st = .unbound ∧ (s.core 700).sparse = none ∧ usersOf s (.macRow 700) = [] ∧ HwUnit.row 2 7 ∈ s.lasting ∧
       rowEnabled s 2 7 = true ∧ usersOf s (.row 2 7) = [] ∧ s.tags = [] ∧ spareFor s 2 256 = some 256) ∧
    (let s := { steering id .running with lasting := [.macRow 3] }
     (s.ctx 0).st = .running ∧ usersOf s (.macRow 3) = [0] ∧ HwUnit.macRow 3 ∈ s.lasting ∧ sliceAtWork s (.macRow 3) = false) ∧
    (let s := { steering id .idle with lasting := [.copyUnit 700], errors := List.replicate 256 (.hbmWord 512, 0) }
     s.errors = List.replicate 256 (.hbmWord 512, s.time) ∧ ({ s with lasting := [] }).lasting = [] ∧ s.logged = [] ∧
       ({ s with errors := List.replicate 16 (.copyUnit 7, s.time) }).errors = List.replicate 16 (.copyUnit 7, s.time) ∧
       HwUnit.copyUnit 700 ∈ s.lasting ∧ sliceAtWork s (.copyUnit 700) = false ∧ usersOf s (.copyUnit 700) = [] ∧
       (s.core 3).slice.lock = none) ∧
    (let s := { steering id .idle with minVer := 4, logged := [.macRow 9], refused := true, contexts := [] }
     s.minVer ≤ 4 ∧ 3 < s.minVer ∧ s.logged = [.macRow 9] ∧ HwUnit.macRow 9 ∈ s.logged ∧ s.refused = true ∧
       (steering id .idle).refused = false ∧ (steering id .idle).logged = [] ∧ retiredRow (.row 2 7) = some (2, 7)) ∧
    (let s := { steering (fun c => { c with st := .ready }) .idle with ports := [(0, { Port.reset with st := .up })], hdm := 2 ^ 22 }
     (∀ p ∈ s.contexts, p.2.st ≠ .running) ∧ hostReach s 512 = true ∧
       ((cutsOf 0x1000 3).any fun c => !edgesGood s (hdmAddr s c.2.1) c.2.2) = false ∧ writePlace s 512 0 (.hdm 0x1000) 3 (pieceOf [1, 2, 3]) ≠ .bad ∧
       s.overTemp = false ∧ activeTags (steering id .running) = [1] ∧
       s.mode = .service ∧ ({ s with mode := .maintenance }).mode ≠ .service ∧
       2 ≤ (activeTags ((steering id .running).setCtx 7 { pageContext with tag := 4 })).length) := by
  refine ⟨met, met, met, met, met, met, met⟩

/-- A core that fetches, and its module with the entry of page 0 edited. -/
def fetcher : Core := { ready with lcore := 3, pc := 0x10 }

/-- Its module. -/
def fetching (c : Core) (f : Nat → Nat) : State :=
  let s := module3 c
  (s.setCtx 0 { s.ctx 0 with launches := [(0, pageLaunch)] }).editLeaf 0 0 f

/-- Fetches beyond the code, from a page on demand, without permission, checked and not; cores with a SIGNAL and an abort at their
boundary, in a wait and in a handler. -/
theorem witness_FetchesAndBoundaryTraps :
    (∀ c ∈ [fetcher, { fetcher with pc := 0x20000 }, { fetcher with signal := some 0x77 }, { fetcher with abort := some (4, 5, 6) },
        { fetcher with wait := .stall }, { fetcher with handler := true }], let s := fetching c id
      s.core 3 = c ∧ c.ctx = some 0 ∧ c.inGang = false ∧ c.held = none ∧ c.ops = [] ∧ c.frame = none ∧ c.md = none ∧
        s.kernelOf c = some pageKernel ∧ c.status = .running ∧ c.dataErr = none ∧ c.feeds = false ∧ (s.ctx 0).faultRec = none ∧
         s.marks = [] ∧ s.cores = [(3, c)] ∧ c.fatal = none ∧ (∀ m < 9, (s.core m).fatal = none)) ∧
    (∀ h : Bool, let c := { fetcher with dataErr := some (64, 0xC), handler := h }
     (fetching c id).core 3 = c ∧ c.status = .running ∧ c.fatal = none ∧ c.wait = .none ∧ c.dataErr = some (64, 0xC) ∧ c.handler = h) ∧
    (let c := { fetcher with pend := [⟨9, 4, 12, none⟩] }
     (fetching c id).core 3 = c ∧ c.pend ≠ [] ∧ c.issuable 9 = true) ∧
    (∀ m ∈ [[], [(pageFrame + 16) / 4]], let s := { fetching fetcher id with hbmBad := m }
     s.rangeGood (readAt (pageFrame + 16) (leafNow s) (dieOf 3)) 4 = (m == [])) ∧
    (match translate (fetching fetcher fun _ => 0) 0 1 0x10 .fetch with
      | .unmapped _ _ _ => true
      | _ => false) = true ∧
    (fetcher.issuable 9 = true ∧ ({ fetcher with pc := 0x20000 }).issuable 9 = true ∧ fetcher.pc.toNat < paddedLen pageKernel ∧
      paddedLen pageKernel ≤ ({ fetcher with pc := 0x20000 }).pc.toNat) ∧
    translate (fetching fetcher fun e => setBit (setBit e 4 1) 6 1) 0 1 0x10 .fetch = .stall 0 .demand ∧
    translate (fetching fetcher fun e => setBit e 4 0) 0 1 0x10 .fetch = .denied 0 131072 ∧
    (let c := { fetcher with fatal := some (⟨0x06, 1, 2, 3, 4⟩, 0x10) }
     (fetching c id).core 3 = c ∧ c.status = .running ∧ c.mayEnd = true) ∧ fetcher.fatal = none ∧
    (∀ b ∈ [0, 1], let s := fetching fetcher fun e => setBit (setBit e 4 1) 7 b
      translate s 0 1 0x10 .fetch = .ok (pageFrame + 16) (leafNow s) ∧ bitsOf (leafNow s) 7 1 = b) := by
  refine ⟨met, met, met, met, met, met, met, met, met, met, met⟩

/-! ### The whole machine, and single rules -/

/-- A word in place at the program counter of a core that runs. -/
def placed (w : Word) : State := State.reset.withFetchWord 32 w.toNat

/-- A word in place that decodes, and one that does not. -/
theorem witness_StepRunsDecoded :
    (let s := placed 0x08611005
     let c := s.core 0
     s.clockOff = false ∧ s.agenda = [] ∧ nextCore s = some 0 ∧ trapDue s 0 = none ∧ c.held = none ∧ c.ops = [] ∧ c.replaying = false ∧
       c.ctx = some 0 ∧ s.kernelOf c = some pageKernel ∧ c.pc.toNat < paddedLen pageKernel ∧
       translate s 0 c.tag (pageKernel.codeVa + c.pc.toNat) .fetch = .ok pageFrame (leafNow s) ∧ bitsOf (leafNow s) 7 1 = 1 ∧
       s.marks = [] ∧ s.rangeGood (readAt pageFrame (leafNow s) (dieOf 0)) 4 = true ∧ readAt pageFrame (leafNow s) (dieOf 0) = pageFrame ∧
       readByte s.hbm (pageFrame + 3) ++ readByte s.hbm (pageFrame + 2) ++ readByte s.hbm (pageFrame + 1) ++ readByte s.hbm pageFrame =
         (0x08611005 : Word)) ∧
    decodeWord 0x08611005 = .ok (.addi 3 1 0x1005) ∧
    (let s := placed 0
     readByte s.hbm (pageFrame + 3) ++ readByte s.hbm (pageFrame + 2) ++ readByte s.hbm (pageFrame + 1) ++ readByte s.hbm pageFrame = (0 : Word) ∧
       nextCore s = some 0 ∧ trapDue s 0 = none) ∧
    decodeWord 0 = .error .reservedMajor ∧ (0 : Word).toNat / 2 ^ 26 ≠ 0x3E := by
  refine ⟨met, met, met, met, met⟩

/-- Clocks stopped and running; an encoded instruction and a core that may not issue. -/
theorem witness_StepAlwaysAnswers :
    ({ State.reset with clockOff := true }).clockOff = true ∧ State.reset.clockOff = false ∧ encode (.add 3 1 2) ≠ none ∧
    (State.reset.core State.reset.cur).mayIssue State.reset.now = false := by decide

/-- A well-formed instruction and its word, in both directions. -/
theorem witness_EncodingsRoundTrip :
    wellFormed (.add 3 1 2) = true ∧ encode (.add 3 1 2) = some (0x01#6 ++ 3#5 ++ 1#5 ++ 2#5 ++ 0#11) ∧
    decodeWord (0x01#6 ++ 3#5 ++ 1#5 ++ 2#5 ++ 0#11) = .ok (.add 3 1 2) := by decide

/-- Whether an outcome goes on. -/
def goesOn (o : Host.Outcome State Fault Refusal) : Bool :=
  match o with
  | .next _ => true
  | .fault _ => false
  | .refused _ => false

theorem goes_on {o : Host.Outcome State Fault Refusal} (h : goesOn o = true) : o = .next (after o) := by
  cases o
  · rfl
  · cases h
  · cases h

/-- A canonical memory from which a step goes on. -/
theorem witness_MemoryStaysCanonical : memoryWf (placed 0x08611005) = true ∧ (∃ t, step (placed 0x08611005) = .next t) :=
  ⟨met, _, goes_on met⟩

/-- Atomics that are not applied, none left, and an error record. -/
theorem witness_VawaitRaisesOrPasses :
    (∀ c ∈ [{ ready with atoms := [onItsWay 0 true] }, ready, { ready with aerr := some ⟨1, 2, 3, 4⟩ }], IssuesPlain (here c) c) ∧
    (∃ a ∈ ({ ready with atoms := [onItsWay 0 true] }).atoms, a.applied = false) ∧ ready.atoms = [] ∧ ready.vq = [] ∧ ready.vfly = [] ∧
    ready.aerr = none := by
  refine ⟨?_, ⟨_, .head _, rfl⟩, rfl, rfl, rfl, rfl⟩
  intro c h
  refine plain_of ?_
  revert c
  decide +kernel

/-- A channel the kernel declares, of the core's group. -/
theorem witness_BphReadsChannel :
    IssuesPlain (meetingOf first second pair) first ∧ (2 : BitVec 4).toNat < first.resBars.toNat ∧
    first.barmember.getLsbD (2 : BitVec 4).toNat = true ∧ (meetingOf first second pair).groupOf first = some pair :=
  ⟨plain_of, met⟩

/-- A ring that is closed, and one that is open. -/
theorem witness_QcntReadsRing :
    (∀ r ∈ [Ring.reset, someRing], IssuesPlain (here { ready with ring := r }) { ready with ring := r }) ∧ Ring.reset.isOpen = false ∧
    someRing.isOpen = true ∧ 0 < someRing.size ∧ someRing.base + 32 * someRing.size ≤ 0x8000 ∧ someRing.landed ≤ 256 := by
  refine ⟨?_, met⟩
  intro c h
  refine plain_of ?_
  revert c
  decide +kernel

/-- A launch with a patch table of one word: index 0 is inside it and index 1 is not. -/
theorem witness_PatchiReadsTable :
    let l := { pageLaunch with patch := [0x1234] }
    let s := { here ready with contexts := [(0, { pageContext with launches := [(0, l)] })] }
    IssuesPlain s ready ∧ s.launchOf ready = some l ∧ (0 : BitVec 8).toNat < l.patch.length ∧ l.patch.length ≤ (1 : BitVec 8).toNat :=
  ⟨plain_of, met⟩

end Sys2Proof.Tests
end

/-! ### What a step answers (00 R1)

Every engine, the executive and the host's side end each of their cases in a next state, and issuing an instruction does so by
definition. What is left is to see that each meaning is one of these. -/

namespace Sys2Proof.Machine

/-! #### Words the host writes (00 R8; 19 R410) -/

/-- A command that the mailbox starts answers, whatever its code. -/
theorem startCommand_answers (f code : Nat) (s : State) : ∃ t, startCommand f code s = .next t := by
  unfold startCommand mapCommand qctlCommand setparmCommand
  dsimp only
  repeat' split
  all_goals exact ⟨_, rfl⟩

theorem execDoorbell_answers (f q : Nat) (tail : Word) (s : State) : ∃ t, execDoorbell f q tail s = .next t := by
  unfold execDoorbell
  dsimp only
  repeat' split
  all_goals exact ⟨_, rfl⟩

theorem execWindowEnable_answers (f w : Nat) (s : State) : ∃ t, execWindowEnable f w s = .next t := by
  unfold execWindowEnable
  dsimp only
  split <;> exact ⟨_, rfl⟩

theorem execWindowDisable_answers (f w : Nat) (s : State) : ∃ t, execWindowDisable f w s = .next t := by
  unfold execWindowDisable
  split <;> exact ⟨_, rfl⟩

theorem writeWindow_answers (f w i : Nat) (v : Word) (s : State) : ∃ t, writeWindow f w i v s = .next t := by
  unfold writeWindow
  dsimp only
  split
  · exact ⟨_, rfl⟩
  · split
    · split
      · exact ⟨_, rfl⟩
      · exact execWindowDisable_answers f w s
    · split
      · exact execWindowEnable_answers f w _
      · exact ⟨_, rfl⟩

/-- A write to a register answers: by its command, its doorbell, its window, or at once. -/
theorem execRegisterWrite_answers (f off : Nat) (v : Word) (s : State) : ∃ t, execRegisterWrite f off v s = .next t := by
  unfold execRegisterWrite
  dsimp only
  split
  · exact ⟨_, rfl⟩
  split
  · exact startCommand_answers f _ s
  split
  · exact ⟨_, rfl⟩
  split
  · exact ⟨_, rfl⟩
  split
  · exact execDoorbell_answers f _ v s
  split
  · exact ⟨_, rfl⟩
  split
  · exact writeWindow_answers f _ _ v s
  · exact ⟨_, rfl⟩

/-! #### Events -/

/-- An event answers: where its meaning has cases, each of them ends in a next state. -/
theorem runEvent_answers (e : Event) (s : State) : ∃ t, runEvent e s = .next t := by
  cases e
  case registerWrite f off v => exact execRegisterWrite_answers f off v s
  case doorbell f q tail => exact execDoorbell_answers f q tail s
  case windowEnable f w => exact execWindowEnable_answers f w s
  case windowDisable f w => exact execWindowDisable_answers f w s
  all_goals dsimp only [runEvent, execRepfVectorFeed, execGangRendezvousComplete, execJointRendezvousComplete, execRingStepBegin,
    execRowPairComplete, execBankReplayRetry, execCopyBeat, execGatherEntry, execPackageCopyMove,
    execPageRequestComplete, execPageRequestRefuse, execShootdownComplete, execPageReplicate, execPageEndReplication,
    execPagePermissionChange, execInstructionFetch, execAtomicApply, execArrivalEntersTree, execBarrierRelease,
    execExchangeSlotClose, execExchangeBeatLands, execQueueEntryLands, execWaggleEntryRegister, execResolutionSlot,
    execWaggleWithdrawal, execFrameEnd, execBuildStart, execSparseOpEnd, execTrapEntry, execPoolTakeIdle,
    execGroupQuiescent, execLaunchLoad, execLaunchStart, execLaunchEnd, execQueueTake, execSliceExpiry,
    execPreemptionComplete, execBoundaryWaitExpiry, execHaltComplete, execSaveComplete, execContextLoadComplete,
    execContributionAccept, execEpochDeliver, execCollectiveWatchdogExpiry, execUnitRetire, execZeroingComplete,
    execModeChange, execBoot, execOverTemperature, execMemberStop, execMemberAbort]
  all_goals repeat' split
  all_goals exact ⟨_, rfl⟩

/-! #### Instructions -/

/-- The event that a constructor of Instr without a word stands for; none where it has a word. -/
def eventOf : Instr → Option Event
  | .repfVectorFeed c => some (.repfVectorFeed c)
  | .vectorDispatch k => some (.vectorDispatch k)
  | .vectorComplete c => some (.vectorComplete c)
  | .gangRendezvousComplete k j => some (.gangRendezvousComplete k j)
  | .mldbStagingComplete c => some (.mldbStagingComplete c)
  | .jointRendezvousComplete k => some (.jointRendezvousComplete k)
  | .ringStepBegin k => some (.ringStepBegin k)
  | .rowPairComplete c => some (.rowPairComplete c)
  | .treeRecordFill k x h => some (.treeRecordFill k x h)
  | .bankhashRehashComplete c => some (.bankhashRehashComplete c)
  | .bankReplayRetry c => some (.bankReplayRetry c)
  | .retentionEntry c => some (.retentionEntry c)
  | .retentionEntryComplete c => some (.retentionEntryComplete c)
  | .retentionExit c => some (.retentionExit c)
  | .retentionExitComplete c => some (.retentionExitComplete c)
  | .copyBeat c ch => some (.copyBeat c ch)
  | .gatherEntry c t j => some (.gatherEntry c t j)
  | .packageCopyMove f x src dst len sig amt => some (.packageCopyMove f x src dst len sig amt)
  | .pageRequestAdmit die => some (.pageRequestAdmit die)
  | .pageRequestComplete x va frame => some (.pageRequestComplete x va frame)
  | .pageRequestRefuse x va => some (.pageRequestRefuse x va)
  | .shootdownComplete x va => some (.shootdownComplete x va)
  | .pageReplicate x va => some (.pageReplicate x va)
  | .pageEndReplication x va => some (.pageEndReplication x va)
  | .pagePermissionChange x va r w e part tag => some (.pagePermissionChange x va r w e part tag)
  | .instructionFetch c => some (.instructionFetch c)
  | .atomicApply a => some (.atomicApply a)
  | .atomicResultReturn c n => some (.atomicResultReturn c n)
  | .arrivalEntersTree c ch => some (.arrivalEntersTree c ch)
  | .barrierRelease x l g => some (.barrierRelease x l g)
  | .exchangeSlotClose x l g => some (.exchangeSlotClose x l g)
  | .exchangeBeatLands c => some (.exchangeBeatLands c)
  | .queueEntryLands c => some (.queueEntryLands c)
  | .waggleEntryRegister c n => some (.waggleEntryRegister c n)
  | .frameStart n => some (.frameStart n)
  | .resolutionSlot n => some (.resolutionSlot n)
  | .waggleWithdrawal c n => some (.waggleWithdrawal c n)
  | .frameEnd n => some (.frameEnd n)
  | .buildStart k => some (.buildStart k)
  | .buildEnd k => some (.buildEnd k)
  | .sparseOpEnd c => some (.sparseOpEnd c)
  | .resultLands c => some (.resultLands c)
  | .trapEntry c cause tpc t0 t1 t2 t3 => some (.trapEntry c cause tpc t0 t1 t2 t3)
  | .poolTakeIdle c n => some (.poolTakeIdle c n)
  | .groupQuiescent x l g => some (.groupQuiescent x l g)
  | .launchLoad x l => some (.launchLoad x l)
  | .launchStart x l => some (.launchStart x l)
  | .launchEnd x l => some (.launchEnd x l)
  | .doorbell f q tail => some (.doorbell f q tail)
  | .eventCounterPoll f q => some (.eventCounterPoll f q)
  | .queueTake tag => some (.queueTake tag)
  | .sliceExpiry tag => some (.sliceExpiry tag)
  | .preemptionComplete x => some (.preemptionComplete x)
  | .boundaryWaitExpiry x => some (.boundaryWaitExpiry x)
  | .haltComplete x => some (.haltComplete x)
  | .saveComplete x => some (.saveComplete x)
  | .contextLoadComplete x => some (.contextLoadComplete x)
  | .create f image key table => some (.create f image key table)
  | .terminate f x => some (.terminate f x)
  | .map f x va k r w e demand source frame => some (.map f x va k r w e demand source frame)
  | .unmap f x va => some (.unmap f x va)
  | .queue f x ringBase repBase hostMem prio log2n => some (.queue f x ringBase repBase hostMem prio log2n)
  | .qctlDisable f x q => some (.qctlDisable f x q)
  | .qctlEnable f x q => some (.qctlEnable f x q)
  | .qctlReset f x q => some (.qctlReset f x q)
  | .preempt f x => some (.preempt f x)
  | .resume f x => some (.resume f x)
  | .signal f x code => some (.signal f x code)
  | .halt f x => some (.halt f x)
  | .trackStart f x => some (.trackStart f x)
  | .trackStop f x => some (.trackStop f x)
  | .harvest f x out limit => some (.harvest f x out limit)
  | .save f x out limit => some (.save f x out limit)
  | .restore f x image => some (.restore f x image)
  | .dump f x out limit => some (.dump f x out limit)
  | .setparmWeight f x value => some (.setparmWeight f x value)
  | .setparmSlice f x value => some (.setparmSlice f x value)
  | .setparmBoundaryWait f x value => some (.setparmBoundaryWait f x value)
  | .setparmLaneRequest f x mask => some (.setparmLaneRequest f x mask)
  | .setparmPageQuota f x value => some (.setparmPageQuota f x value)
  | .dbggo f x lcore => some (.dbggo f x lcore)
  | .evict f x va => some (.evict f x va)
  | .partset f tag bitmap => some (.partset f tag bitmap)
  | .partdrop f tag => some (.partdrop f tag)
  | .partfunc f g tag => some (.partfunc f g tag)
  | .registerWrite f off value => some (.registerWrite f off value)
  | .windowEnable f w => some (.windowEnable f w)
  | .windowDisable f w => some (.windowDisable f w)
  | .contributionAccept x w part => some (.contributionAccept x w part)
  | .epochDeliver x w => some (.epochDeliver x w)
  | .collectiveWatchdogExpiry x w => some (.collectiveWatchdogExpiry x w)
  | .portEnable p => some (.portEnable p)
  | .trainingComplete p full number peers => some (.trainingComplete p full number peers)
  | .trainingFailure p => some (.trainingFailure p)
  | .flitCrcFail p replay => some (.flitCrcFail p replay)
  | .retrainingComplete p full => some (.retrainingComplete p full)
  | .retrainingTimeout p => some (.retrainingTimeout p)
  | .portDisable p => some (.portDisable p)
  | .functionLevelReset f => some (.functionLevelReset f)
  | .flrComplete f => some (.flrComplete f)
  | .correctedError u => some (.correctedError u)
  | .uncorrectableError u place => some (.uncorrectableError u place)
  | .unitRetire u repair => some (.unitRetire u repair)
  | .zeroingComplete x => some (.zeroingComplete x)
  | .modeChange service => some (.modeChange service)
  | .cxlMemAccess write addr data => some (.cxlMemAccess write addr data)
  | .boot image version hdm harvested macRows => some (.boot image version hdm harvested macRows)
  | .attestationRequest nonce => some (.attestationRequest nonce)
  | .powerSample milliwatts => some (.powerSample milliwatts)
  | .overTemperature die => some (.overTemperature die)
  | .thermalTrip die => some (.thermalTrip die)
  | .mbcmdUnknownCode f code => some (.mbcmdUnknownCode f code)
  | _ => none

/-- An instruction without a word is the event of the same name. -/
theorem exec_of_eventOf {i : Instr} {e : Event} (h : eventOf i = some e) (s : State) : exec i s = runEvent e s := by
  cases i <;> cases h <;> rfl

/-- The instructions that are no events are those that have a word (04 R86 to R94). -/
theorem eventOf_eq_none_iff (i : Instr) : eventOf i = none ↔ encode i ≠ none := by
  cases i <;> simp only [eventOf, encode, ne_eq, not_true_eq_false, reduceCtorEq, not_false_eq_true]

/-- An instruction with a word issues on the core that has the turn, or is a modifier word. -/
theorem exec_of_word {i : Instr} (h : encode i ≠ none) :
    (∃ f, ∀ s, exec i s = issue i f s) ∨ ∃ m, ∀ s, exec i s = .next (modifierState m s) := by
  cases i
  case modifierWord => exact .inr ⟨_, fun _ => rfl⟩
  all_goals simp only [encode, ne_eq, not_true_eq_false, reduceCtorEq, not_false_eq_true] at h
  all_goals exact .inl ⟨_, fun _ => rfl⟩

theorem modifierState_not (m : Modifier) {s : State} (h : (s.core s.cur).mayIssue s.now = false) : modifierState m s = s := by
  simp [modifierState, h]

/-- An instruction of a core that may not issue now changes nothing (00 R1; log 1). -/
theorem exec_not {i : Instr} {s : State} (word : encode i ≠ none) (h : (s.core s.cur).mayIssue s.now = false) :
    exec i s = .next s := by
  obtain ⟨f, hf⟩ | ⟨m, hm⟩ := exec_of_word word
  · rw [hf, issue_not i f h]
  · rw [hm, modifierState_not m h]

theorem exec_answers (i : Instr) (s : State) : ∃ t, exec i s = .next t := by
  cases he : eventOf i with
  | some e => exact exec_of_eventOf he s ▸ runEvent_answers e s
  | none =>
    obtain ⟨f, hf⟩ | ⟨m, hm⟩ := exec_of_word ((eventOf_eq_none_iff i).1 he)
    · exact ⟨_, hf s⟩
    · exact ⟨_, hm s⟩

/-- A step answers unless the clocks stand: whatever the work at hand is. -/
theorem step_answers {s : State} (h : s.clockOff = false) : ∃ t, step s = .next t := by
  unfold step
  rw [h]
  cases workOf s with
  | event e q => exact runEvent_answers e q
  | trap c t pc => exact runEvent_answers (.trapEntry c t.cause pc t.t0 t.t1 t.t2 t.t3) s
  | cycle => exact ⟨_, rfl⟩
  | turn id u =>
    cases u with
    | run i q => exact exec_answers i q
    | settled q => exact ⟨_, rfl⟩
    | fetch k q => exact runEvent_answers (.instructionFetch id) s

theorem step_stopped {s : State} (h : s.clockOff = true) : step s = .fault .clocksStopped := by simp [step, h]

/-- Settles O53: each kind of work ends in a next state, an instruction of a core that may not issue in the same one (log 1). -/
theorem stepAlwaysAnswers : Obligations.StepAlwaysAnswers :=
  fun _ i => ⟨step_stopped, step_answers, exec_answers i _, exec_not⟩

end Sys2Proof.Machine

/-! ### Tables, memory and the state's objects: what the collectives need -/

namespace Sys2Proof.Machine

/-- A record dropped reads as the reset record. -/
@[simp] theorem look_drop_same {α : Type} (d : α) (k : Nat) (t : Table α) : look d k (drop k t) = d := by
  induction t with
  | nil => rfl
  | cons p t ih =>
    by_cases h : p.1 = k
    · simpa [drop, h] using ih
    · simpa [drop, look, h] using ih

/-- A record of a table whose records all change, where the reset record stays as it is. -/
theorem look_map {α : Type} (d : α) (k : Nat) (g : α → α) (hd : g d = d) (t : Table α) :
    look d k (t.map fun p => (p.1, g p.2)) = g (look d k t) := by
  induction t with
  | nil => exact hd.symm
  | cons p t ih =>
    by_cases h : p.1 = k
    · simp [look, h]
    · simpa [look, h] using ih

/-- A record that differs from the reset record is listed, and found where a search by its number finds it. -/
theorem find?_of_look {α : Type} {d : α} {k : Nat} {t : Table α} (h : look d k t ≠ d) :
    t.find? (fun p => p.1 == k) = some (k, look d k t) := by
  induction t with
  | nil => exact absurd rfl h
  | cons p t ih =>
    obtain ⟨i, y⟩ := p
    by_cases e : i = k
    · subst e
      simp [look]
    · simp only [look, if_neg e] at h ⊢
      simpa [e] using ih h

/-- The number of a string of `n` little-endian bytes of `x` (00 R6). -/
theorem leNat_leBytes (x n : Nat) : leNat (leBytes x n) = x % 256 ^ n := by
  induction n generalizing x with
  | zero => simp [leBytes, leNat, Nat.mod_one]
  | succ n ih => rw [leBytes, leNat, ih, BitVec.toNat_ofNat, show 2 ^ 8 = 256 from rfl, Nat.pow_succ', Nat.mod_mul]

@[simp] theorem leBytes_length (x n : Nat) : (leBytes x n).length = n := by
  induction n generalizing x with
  | zero => rfl
  | succ n ih => simp [leBytes, ih]

/-- A word read back where it was written. -/
theorem readWord_writeWord (m : List Host.Cell) (a : Nat) (v : Word) : readWord (writeWord m a v) a = v := by
  have bytes := readBytes_writeBytes m a (leBytes v.toNat 4)
  rw [leBytes_length] at bytes
  rw [readWord, writeWord, bytes, leNat_leBytes, Nat.mod_eq_of_lt (show v.toNat < 256 ^ 4 from v.isLt)]
  exact BitVec.eq_of_toNat_eq (by simp)

/-- A function's window just set. -/
@[simp] theorem State.window_setWindow_same (s : State) (f w : Nat) (d : Window) :
    ((s.setWindow f w d).func f).window w = d := by
  simp [State.setWindow, Func.window]

@[simp] theorem State.setWindow_core (s : State) (f w : Nat) (d : Window) (id : Nat) :
    (s.setWindow f w d).core id = s.core id := rfl

/-- Sets the switch's record of window `w` of a function. -/
def State.setEpoch (s : State) (f w : Nat) (e : Epoch) : State := { s with epochs := put (windowKey f w) e s.epochs }

@[simp] theorem State.epochOf_setEpoch_same (s : State) (f w : Nat) (e : Epoch) : (s.setEpoch f w e).epochOf f w = e := by
  simp [State.setEpoch, State.epochOf]

@[simp] theorem State.setEpoch_cores (s : State) (f w : Nat) (e : Epoch) : (s.setEpoch f w e).cores = s.cores := rfl

@[simp] theorem State.setEpoch_hbm (s : State) (f w : Nat) (e : Epoch) : (s.setEpoch f w e).hbm = s.hbm := rfl

@[simp] theorem State.setEpoch_time (s : State) (f w : Nat) (e : Epoch) : (s.setEpoch f w e).time = s.time := rfl

@[simp] theorem State.setEpoch_ctx (s : State) (f w : Nat) (e : Epoch) (x : Nat) : (s.setEpoch f w e).ctx x = s.ctx x := rfl

end Sys2Proof.Machine

/-! ### Register writes (00 R8; 18 R400; 19 R410; 20 R436) -/

namespace Sys2Proof.Machine

/-- The registers of function `f` take what the host writes (20 R442; 21 R450). -/
structure TakesWrites (s : State) (f : Nat) : Prop where
  named    : f ≤ 512
  steady   : (s.func f).resetting = false
  portOpen : closedTo s f = false

/-- A write through a closed port does nothing (21 R450). -/
theorem registerWrite_closed {s : State} {f : Nat} (h : closedTo s f = true) (off : Nat) (v : Word) :
    exec (.registerWrite f off v) s = .next s := by
  show execRegisterWrite f off v s = _
  simp [execRegisterWrite, h]

section
variable {s : State} {f : Nat} (h : TakesWrites s f)
include h

/-- A write at a word's offset goes by its offset alone. -/
theorem registerWrite_open {off : Nat} (aligned : off % 4 = 0) (v : Word) :
    exec (.registerWrite f off v) s =
      if off = 0 then startCommand f (v.toNat % 256) s
      else if off = 4 then .next (s.setFunc f { s.func f with done := (s.func f).done && !v.getLsbD 30 })
      else if 0x40 ≤ off ∧ off < 0xC0 then
        .next (s.setFunc f { s.func f with args := setArg (s.func f).args ((off - 0x40) / 4) v })
      else if (0x100000 ≤ off ∧ off < 0x104000) ∧ off % 16 = 0 then execDoorbell f ((off - 0x100000) / 16) v s
      else if (0x100000 ≤ off ∧ off < 0x104000) ∧ off % 16 = 4 then
        .next (s.setQueue f ((off - 0x100000) / 16) ((s.queue f ((off - 0x100000) / 16)).writeStat v))
      else if 0x200000 ≤ off ∧ off < 0x201000 then writeWindow f ((off - 0x200000) / 64) (off % 64 / 4) v s
      else .next s := by
  have named : ¬ adminFunc < f := Nat.not_lt.2 h.named
  show execRegisterWrite f off v s = _
  simp [execRegisterWrite, named, aligned, h.steady, h.portOpen]

theorem registerWrite_command (v : Word) : exec (.registerWrite f 0 v) s = startCommand f (v.toNat % 256) s :=
  registerWrite_open h rfl v

theorem registerWrite_status (v : Word) :
    exec (.registerWrite f 4 v) s = .next (s.setFunc f { s.func f with done := (s.func f).done && !v.getLsbD 30 }) :=
  registerWrite_open h rfl v

theorem registerWrite_arg {i : Nat} (hi : i < 32) (v : Word) :
    exec (.registerWrite f (0x40 + 4 * i) v) s = .next (s.setFunc f { s.func f with args := (s.func f).args.set i v }) := by
  rw [registerWrite_open h (by omega), if_neg (by omega), if_neg (by omega), if_pos (by omega),
    show (0x40 + 4 * i - 0x40) / 4 = i by omega, setArg, dif_pos hi]

theorem registerWrite_doorbell {j : Nat} (hj : j < 1024) (v : Word) :
    exec (.registerWrite f (0x100000 + 16 * j) v) s = exec (.doorbell f j v) s := by
  rw [registerWrite_open h (by omega), if_neg (by omega), if_neg (by omega), if_neg (by omega), if_pos (by omega),
    show (0x100000 + 16 * j - 0x100000) / 16 = j by omega]
  rfl

theorem registerWrite_qstat {j : Nat} (hj : j < 1024) (v : Word) :
    exec (.registerWrite f (0x100004 + 16 * j) v) s = .next (s.setQueue f j ((s.queue f j).writeStat v)) := by
  rw [registerWrite_open h (by omega), if_neg (by omega), if_neg (by omega), if_neg (by omega), if_neg (by omega),
    if_pos (by omega), show (0x100004 + 16 * j - 0x100000) / 16 = j by omega]

theorem registerWrite_window {w k : Nat} (hw : w < 64) (hk : k < 16) (v : Word) :
    exec (.registerWrite f (0x200000 + 64 * w + 4 * k) v) s = writeWindow f w k v s := by
  rw [registerWrite_open h (by omega), if_neg (by omega), if_neg (by omega), if_neg (by omega), if_neg (by omega),
    if_neg (by omega), if_pos (by omega), show (0x200000 + 64 * w + 4 * k - 0x200000) / 64 = w by omega,
    show (0x200000 + 64 * w + 4 * k) % 64 / 4 = k by omega]

end

/-! #### Words of a window (20 R436) -/

section
variable {s : State} {f w : Nat}

/-- A field of a window in force stays as it is. -/
theorem writeWindow_inForce (en : ((s.func f).window w).en = true) {k : Nat} (hk : k ≠ 0) (v : Word) :
    writeWindow f w k v s = .next s := by
  simp [writeWindow, hk, en]

/-- EN written over EN = 1: 1 changes nothing, 0 puts the window out of force. -/
theorem writeWindow_en (en : ((s.func f).window w).en = true) (v : Word) :
    writeWindow f w 0 v s = if v.getLsbD 0 = true then .next s else execWindowDisable f w s := by
  simp [writeWindow, en]

/-- A field of a window that is not in force takes what is written. -/
theorem writeWindow_field (en : ((s.func f).window w).en = false) {k : Nat} (hk : k ≠ 0) (v : Word) :
    writeWindow f w k v s = .next (s.setWindow f w (((s.func f).window w).write k v.toNat)) := by
  simp [writeWindow, hk, en]

/-- Bit 2 of a word as a number. -/
theorem bitsOf_bit (v : Word) (i : Nat) : (bitsOf v.toNat i 1 == 1) = v.getLsbD i := by
  rw [bitsOf, BitVec.getLsbD, Nat.testBit_eq_decide_div_mod_eq, Nat.pow_one]
  rfl

/-- Word 0 written while EN is 0: KIND takes its bit, and a window with EN = 1 is then checked. -/
theorem writeWindow_kind (en : ((s.func f).window w).en = false) (v : Word) :
    writeWindow f w 0 v s =
      let s1 := s.setWindow f w { (s.func f).window w with kind := v.getLsbD 2 }
      if v.getLsbD 0 = true then execWindowEnable f w s1 else .next s1 := by
  simp [writeWindow, en, Window.write, bitsOf_bit]

/-- What enabling a window does, by the error of its check. -/
theorem windowEnable_checks (h : TakesWrites s f) (hw : w < 64) (en : ((s.func f).window w).en = false) :
    exec (.windowEnable f w) s = .next (s.setWindow f w { (s.func f).window w with
      en := windowError s f w ((s.func f).window w) == 0, errc := windowError s f w ((s.func f).window w) }) := by
  have named : ¬ adminFunc < f := Nat.not_lt.2 h.named
  have number : ¬ 64 ≤ w := Nat.not_le.2 hw
  show execWindowEnable f w s = _
  simp [execWindowEnable, named, number, en, h.steady, h.portOpen]

theorem windowEnable_inForce (en : ((s.func f).window w).en = true) : exec (.windowEnable f w) s = .next s := by
  show execWindowEnable f w s = _
  simp [execWindowEnable, en]

theorem windowDisable_idle (en : ((s.func f).window w).en = false) : exec (.windowDisable f w) s = .next s := by
  show execWindowDisable f w s = _
  simp [execWindowDisable, en]

/-- Disabling a window aborts its open epoch and clears EN. -/
theorem windowDisable_inForce (hf : f ≤ 512) (hw : w < 64) (en : ((s.func f).window w).en = true) :
    exec (.windowDisable f w) s = .next ((s.abortEpoch f w 4).setWindow f w
      { ((s.abortEpoch f w 4).func f).window w with en := false }) := by
  have named : ¬ adminFunc < f := Nat.not_lt.2 hf
  have number : ¬ 64 ≤ w := Nat.not_le.2 hw
  show execWindowDisable f w s = _
  simp [execWindowDisable, named, number, en]

end

end Sys2Proof.Machine

/-! ### Epochs (20 R438 to R441) -/

namespace Sys2Proof.Machine

/-! #### The end of an epoch -/

/-- The open epoch of window `w` of function `f` has ended between two states: its number rises, and what was accepted for the next
epoch opens it (20 R438, R441). -/
structure EpochEnds (s t : State) (f w : Nat) : Prop where
  window : (t.func f).window w = { (s.func f).window w with
    epoch := ((s.func f).window w).epoch + 1
    isOpen := !(s.epochOf f w).nextPart.isEmpty || !(s.epochOf f w).nextClos.isEmpty }
  record : t.epochOf f w = { Epoch.reset with
    parts := (s.epochOf f w).nextPart, closes := (s.epochOf f w).nextClos, stopped := (s.epochOf f w).stopped }

theorem nextEpoch_ends (s : State) (f w : Nat) : EpochEnds s (s.nextEpoch f w ((s.func f).window w)) f w where
  window := by
    show ((s.setFunc f _).func f).window w = _
    simp [Func.window, State.epochOf]
  record := by
    show look Epoch.reset (windowKey f w) (if _ then drop _ _ else put _ _ _) = _
    split
    · rename_i blank
      rw [look_drop_same]
      exact blank.symm
    · rw [look_put_same]
      rfl

@[simp] theorem State.nextEpoch_core (s : State) (f w : Nat) (d : Window) (id : Nat) :
    (s.nextEpoch f w d).core id = s.core id := rfl

@[simp] theorem State.nextEpoch_hbm (s : State) (f w : Nat) (d : Window) : (s.nextEpoch f w d).hbm = s.hbm := rfl

/-- What an abort leaves a core with: one that holds a continuation of the context records it (20 R441). -/
def Core.aborted (k : Core) (x w epoch reason : Nat) : Core :=
  if k.ctx = some x ∧ k.status ≠ .idle then { k with abort := some (w, epoch, reason), latch := true } else k

@[simp] theorem State.abortCores_core (s : State) (x w epoch reason id : Nat) :
    (s.abortCores x w epoch reason).core id = (s.core id).aborted x w epoch reason := by
  rw [State.core, State.core, ← look_map Core.reset id (·.aborted x w epoch reason) rfl]
  show look Core.reset id (s.cores.map _) = _
  congr 2
  funext p
  by_cases hx : p.2.ctx = some x
  · by_cases hs : p.2.status = .idle <;> simp [Core.aborted, hx, hs]
  · simp [Core.aborted, hx]

@[simp] theorem State.abortCores_func (s : State) (x w epoch reason f : Nat) :
    (s.abortCores x w epoch reason).func f = s.func f := rfl

@[simp] theorem State.abortCores_epochOf (s : State) (x w epoch reason f n : Nat) :
    (s.abortCores x w epoch reason).epochOf f n = s.epochOf f n := rfl

@[simp] theorem State.abortCores_hbm (s : State) (x w epoch reason : Nat) : (s.abortCores x w epoch reason).hbm = s.hbm := rfl

section
variable {s : State} {f w : Nat}

/-- A window with a field set differs from the reset record, so it is listed. -/
theorem find?_window (en : ((s.func f).window w).en = true) :
    (s.func f).windows.find? (fun p => p.1 == w) = some (w, (s.func f).window w) :=
  find?_of_look fun blank => by
    have : (false : Bool) = true := (congrArg Window.en blank).symm.trans en
    cases this

theorem abortEpoch_closed (en : ((s.func f).window w).en = true) (closed : ((s.func f).window w).isOpen = false) (reason : Nat) :
    s.abortEpoch f w reason = s := by
  simp [State.abortEpoch, find?_window en, closed]

theorem abortEpoch_open (en : ((s.func f).window w).en = true) (opened : ((s.func f).window w).isOpen = true) (reason : Nat) :
    s.abortEpoch f w reason = (s.nextEpoch f w ((s.func f).window w)).abortCores ((s.func f).window w).lctx w
      ((s.func f).window w).epoch.toNat reason := by
  simp [State.abortEpoch, find?_window en, opened]

theorem abortEpoch_ends (en : ((s.func f).window w).en = true) (opened : ((s.func f).window w).isOpen = true) (reason : Nat) :
    EpochEnds s (s.abortEpoch f w reason) f w := by
  rw [abortEpoch_open en opened]
  exact ⟨(nextEpoch_ends s f w).window, (nextEpoch_ends s f w).record⟩

theorem abortEpoch_core (en : ((s.func f).window w).en = true) (opened : ((s.func f).window w).isOpen = true) (reason id : Nat) :
    (s.abortEpoch f w reason).core id =
      (s.core id).aborted ((s.func f).window w).lctx w ((s.func f).window w).epoch.toNat reason := by
  rw [abortEpoch_open en opened, State.abortCores_core, State.nextEpoch_core]

theorem abortEpoch_hbm (en : ((s.func f).window w).en = true) (opened : ((s.func f).window w).isOpen = true) (reason : Nat) :
    (s.abortEpoch f w reason).hbm = s.hbm := by
  rw [abortEpoch_open en opened, State.abortCores_hbm, State.nextEpoch_hbm]

end

/-! #### Contributions and closes (20 R438) -/

/-- Window `w` of context `x` is a reduction window in force (20 R436). -/
structure Collects (s : State) (x w : Nat) : Prop where
  inForce   : ((s.func (s.ctx x).func).window w).en = true
  reduction : ((s.func (s.ctx x).func).window w).kind = true
  mine      : ((s.func (s.ctx x).func).window w).lctx = x

/-- Module `m` is another member of window `w` of context `x` (20 R436). -/
structure OtherMember (s : State) (x w m : Nat) : Prop where
  number  : m < 64
  foreign : m ≠ s.modNum
  member  : ((s.func (s.ctx x).func).window w).members.getLsbD m = true

/-- An atomic of core `core` of context `x` that the switch of window `w` has to accept: the core's only one (20 R438). -/
structure ToSwitch (s : State) (x w core : Nat) (a : Atom) : Prop where
  holder  : (s.core core).ctx = some x
  only    : (s.core core).atoms = [a]
  place   : a.place = .switch w
  waiting : a.applied = false

@[simp] theorem State.keepEpoch_epochOf (s : State) (f w : Nat) (e : Epoch) : (s.keepEpoch f w e).epochOf f w = e :=
  s.epochOf_setEpoch_same f w e

@[simp] theorem State.keepEpoch_window (s : State) (f w : Nat) (e : Epoch) :
    ((s.keepEpoch f w e).func f).window w = { (s.func f).window w with isOpen := true } :=
  State.window_setWindow_same _ f w _

@[simp] theorem State.keepEpoch_core (s : State) (f w : Nat) (e : Epoch) (id : Nat) : (s.keepEpoch f w e).core id = s.core id := rfl

/-- A core whose only atomic is done with, posted. -/
theorem Core.atomDone_posted {k : Core} {a : Atom} (only : k.atoms = [a]) (posted : a.posted = true) (v : Word) (fl : Flags)
    (bad : Bool) : (k.atomDone a v fl bad).atoms = [] := by
  by_cases lane : a.lane.isNone = true <;> simp [Core.atomDone, Core.orFlags, posted, lane, only]

/-- A core whose only atomic has its answer. -/
theorem Core.atomDone_answered {k : Core} {a : Atom} (only : k.atoms = [a]) (held : a.posted = false) (v : Word) (fl : Flags)
    (bad : Bool) : (k.atomDone a v fl bad).atoms = [{ a with applied := true, old := v, flags := fl, bad := bad }] := by
  by_cases lane : a.lane.isNone = true <;> simp [Core.atomDone, Core.modAtom, Core.orFlags, held, lane, only]

/-- What the core finds once the switch has accepted its only atomic: an answer of 0, or, for a posted one, nothing (11 R265). -/
theorem State.accepted_answers {s : State} {core : Nat} {a : Atom} (only : (s.core core).atoms = [a]) :
    (a.posted = true → ((s.accepted core a).core core).atoms = []) ∧
    (a.posted = false → ((s.accepted core a).core core).atoms = [{ a with applied := true, old := 0, flags := 0, bad := false }]) ∧
    (s.accepted core a).hbm = s.hbm := by
  have next : (s.accepted core a).core core = (s.core core).atomDone a 0 0 false := s.core_setCore_same core _
  rw [next]
  exact ⟨fun p => Core.atomDone_posted only p _ _ _, fun p => Core.atomDone_answered only p _ _ _, rfl⟩

/-- An atomic alone in its core is the first at its element. -/
theorem Core.firstAt_only {k : Core} {a : Atom} (only : k.atoms = [a]) : k.firstAt a = true := by
  simp [Core.firstAt, only]

section
variable {s : State} {x w core : Nat} {a : Atom}

theorem ownAtom_only (h : ToSwitch s x w core a) : ownAtom s x w core a.seq a.op a.va a.operand = some a := by
  simp [ownAtom, h.holder, h.only, h.place, h.waiting, Core.firstAt_only h.only]

theorem ownClose_only (h : ToSwitch s x w core a) {c : Core} (alone : s.cores = [(core, c)]) (release : a.sysRel = true)
    {ctr : Nat} (low : ctr ≤ a.va) (high : a.va < ctr + 4) : ownClose s x w ctr a.op a.operand a.compare = some (core, a) := by
  have hc : s.core core = c := by simp [State.core, alone, look]
  have holder := hc ▸ h.holder
  have only := hc ▸ h.only
  simp [ownClose, alone, holder, only, release, low, high, h.place, h.waiting, Core.firstAt_only only]

theorem exec_contributionAccept (p : Contribution) :
    exec (.contributionAccept x w p) s = execContributionAccept x w p s := rfl

/-- The switch takes a contribution of this module: the atomic it stands for is answered. -/
theorem contributionAccept_own (c : Collects s x w) (h : ToSwitch s x w core a) {e : Epoch}
    (taken : (s.epochOf (s.ctx x).func w).take ⟨s.modNum, core, a.seq, a.op, a.va, a.operand, 0⟩ = some e) :
    exec (.contributionAccept x w (.value s.modNum core a.seq a.op a.va a.operand)) s =
      .next ((s.keepEpoch (s.ctx x).func w e).accepted core a) := by
  simp [exec_contributionAccept, execContributionAccept, c.inForce, c.reduction, c.mine, taken, ownAtom_only h]

/-- The switch takes a close of this module: the atomic it stands for is answered. -/
theorem contributionAccept_ownClose (c : Collects s x w) (h : ToSwitch s x w core a) {k : Core} (alone : s.cores = [(core, k)])
    (release : a.sysRel = true) (low : ((s.func (s.ctx x).func).window w).ctr ≤ a.va)
    (high : a.va < ((s.func (s.ctx x).func).window w).ctr + 4) {e : Epoch}
    (taken : (s.epochOf (s.ctx x).func w).close s.modNum a.op a.operand a.compare = some e) :
    exec (.contributionAccept x w (.close s.modNum a.op a.operand a.compare)) s =
      .next ((s.keepEpoch (s.ctx x).func w e).accepted core a) := by
  simp [exec_contributionAccept, execContributionAccept, c.inForce, c.reduction, c.mine, taken, ownClose_only h alone release low high]

/-- The switch takes a close of another member. -/
theorem contributionAccept_otherClose (c : Collects s x w) {m : Nat} (o : OtherMember s x w m) {op : BitVec 4} (kind : op.toNat ≤ 10)
    {v u : Word} {e : Epoch} (taken : (s.epochOf (s.ctx x).func w).close m op v u = some e) :
    exec (.contributionAccept x w (.close m op v u)) s = .next (s.keepEpoch (s.ctx x).func w e) := by
  have number : ¬ 64 ≤ m := Nat.not_le.2 o.number
  have small : ¬ 10 < op.toNat := Nat.not_lt.2 kind
  simp [exec_contributionAccept, execContributionAccept, c.inForce, c.reduction, c.mine, taken, o.foreign, o.member, number, small]

end

/-! #### The parts of an epoch -/

section
variable {e : Epoch}

/-- A contribution of a module that has not closed the open epoch joins it. -/
theorem Epoch.take_open {c : Contrib} (h : ∀ k ∈ e.closes, k.1 ≠ c.module) :
    e.take c = some { e with parts := e.parts ++ [{ c with order := e.parts.length }] } := by
  have fresh : (e.closes.any fun k => k.1 == c.module) = false := by simpa using h
  simp [Epoch.take, fresh]

/-- A contribution of a module that has closed the open epoch stands for the next. -/
theorem Epoch.take_next {c : Contrib} (closed : ∃ k ∈ e.closes, k.1 = c.module) (h : ∀ k ∈ e.nextClos, k.1 ≠ c.module) :
    e.take c = some { e with nextPart := e.nextPart ++ [{ c with order := e.nextPart.length }] } := by
  have spent : (e.closes.any fun k => k.1 == c.module) = true := by simpa using closed
  have fresh : (e.nextClos.any fun k => k.1 == c.module) = false := by simpa using h
  simp [Epoch.take, spent, fresh]

/-- A close of a module that has not closed the open epoch joins it. -/
theorem Epoch.close_open {m : Nat} (h : ∀ k ∈ e.closes, k.1 ≠ m) (op : BitVec 4) (v u : Word) :
    e.close m op v u = some { e with closes := e.closes ++ [(m, op, v, u)] } := by
  have fresh : (e.closes.any fun k => k.1 == m) = false := by simpa using h
  simp [Epoch.close, fresh]

theorem epochClosed_iff (d : Window) (e : Epoch) :
    epochClosed d e = true ↔ ∀ m < 64, d.members.getLsbD m = true → ∃ k ∈ e.closes, k.1 = m := by
  simp only [epochClosed, List.all_eq_true, List.mem_range, Bool.or_eq_true, Bool.not_eq_true', List.any_eq_true, beq_iff_eq,
    or_iff_not_imp_left, Bool.not_eq_false]

end

/-! #### Merging (20 R439) -/

theorem mergedValue_integer {op : BitVec 4} (float : op ≠ 10) (a b : Contrib) :
    mergedValue op [a, b] = (atomicValue op a.operand b.operand).1 := if_neg float

theorem mergedValue_single {op : BitVec 4} (float : op ≠ 10) (k : Contrib) : mergedValue op [k] = k.operand := if_neg float

theorem elementAtomics_single {k : Contrib} (float : k.op ≠ 10) : elementAtomics [k] = [(k.op, k.operand)] := by
  simp [elementAtomics, mergedValue_single float]

theorem elementAtomics_sameOp {a b : Contrib} (same : a.op = b.op) (float : a.op ≠ 10) :
    elementAtomics [a, b] = [(a.op, (atomicValue a.op a.operand b.operand).1)] := by
  have filtered : [a, b].filter (fun k => k.op == a.op) = [a, b] := by simp [same]
  simp only [elementAtomics, filtered, mergedValue_integer float]
  simp [same]

theorem elementAtomics_otherOp {a b : Contrib} (other : a.op ≠ b.op) :
    elementAtomics [a, b] = [(a.op, mergedValue a.op [a]), (b.op, b.operand)] := by
  simp [elementAtomics, other.symm]

/-- What an epoch of two sums to one element applies: their sum. -/
theorem epochAtomics_twoSums {e : Epoch} {a b : Contrib} (parts : e.parts = [a, b]) (closes : e.closes = []) (sum : a.op = 0)
    (sum' : b.op = 0) (element : b.va = a.va) (d : Window) : epochAtomics d e = [(a.va, 0, a.operand + b.operand, 0)] := by
  have merged : elementAtomics [a, b] = [(0, a.operand + b.operand)] := by
    rw [elementAtomics_sameOp (sum.trans sum'.symm) (by rw [sum]; decide), sum]
    rfl
  have elements : elementsOf [a, b] = [a.va] := by simp [elementsOf, insertNat, element]
  have filtered : [a, b].filter (fun c => c.va == a.va) = [a, b] := by simp [element]
  rw [epochAtomics, parts, closes, elements, List.flatMap_singleton, filtered, merged]
  rfl

/-- A close of a kind that merges, alone, is applied with no compare value. -/
theorem closeAtomics_merged {op : BitVec 4} (kind : merges op = true) (float : op ≠ 10) (m : Nat) (v u : Word) :
    closeAtomics [(m, op, v, u)] = [(op, v, 0)] := by
  simp [closeAtomics, kind, elementAtomics_single (k := ⟨m, 0, 0, op, 0, v, 0⟩) float]

/-- A close by AXCHG or ACAS is applied as it is (log 43). -/
theorem closeAtomics_single {op : BitVec 4} (kind : merges op = false) (m : Nat) (v u : Word) :
    closeAtomics [(m, op, v, u)] = [(op, v, u)] := by
  simp [closeAtomics, elementAtomics, kind]

/-! #### Delivery (20 R438, R439) -/

section
variable {s : State} {x w : Nat}

theorem exec_epochDeliver : exec (.epochDeliver x w) s = execEpochDeliver x w s := rfl

/-- An epoch that some member has not closed is not delivered. -/
theorem epochDeliver_waits (h : epochClosed ((s.func (s.ctx x).func).window w) (s.epochOf (s.ctx x).func w) = false) :
    exec (.epochDeliver x w) s = .next s := by
  simp [exec_epochDeliver, execEpochDeliver, h]

variable (c : Collects s x w) (opened : ((s.func (s.ctx x).func).window w).isOpen = true)
  (closed : epochClosed ((s.func (s.ctx x).func).window w) (s.epochOf (s.ctx x).func w) = true)
include c opened closed

/-- A closed epoch of a home elsewhere ends here. -/
theorem epochDeliver_away (away : ((s.func (s.ctx x).func).window w).home ≠ s.modNum) :
    exec (.epochDeliver x w) s = .next (s.nextEpoch (s.ctx x).func w ((s.func (s.ctx x).func).window w)) := by
  simp [exec_epochDeliver, execEpochDeliver, c.inForce, c.reduction, c.mine, opened, closed, away]

/-- A closed epoch of this home asks for the first page on demand among its elements. -/
theorem epochDeliver_stalls (home : ((s.func (s.ctx x).func).window w).home = s.modNum) {page : Nat} {st : PageState}
    (stall : epochStall s ((s.func (s.ctx x).func).window w).rctx
      (epochAtomics ((s.func (s.ctx x).func).window w) (s.epochOf (s.ctx x).func w)) = some (page, st)) :
    exec (.epochDeliver x w) s = .next (s.requestPage ((s.func (s.ctx x).func).window w).rctx page st) := by
  simp [exec_epochDeliver, execEpochDeliver, c.inForce, c.reduction, c.mine, opened, closed, home, stall]

/-- A closed epoch of this home is applied, then ends. -/
theorem epochDeliver_applies (home : ((s.func (s.ctx x).func).window w).home = s.modNum)
    (ready : epochStall s ((s.func (s.ctx x).func).window w).rctx
      (epochAtomics ((s.func (s.ctx x).func).window w) (s.epochOf (s.ctx x).func w)) = none) :
    exec (.epochDeliver x w) s =
      .next (((epochAtomics ((s.func (s.ctx x).func).window w) (s.epochOf (s.ctx x).func w)).foldl
        (applyMerged ((s.func (s.ctx x).func).window w).rctx) s).nextEpoch (s.ctx x).func w ((s.func (s.ctx x).func).window w)) := by
  simp [exec_epochDeliver, execEpochDeliver, c.inForce, c.reduction, c.mine, opened, closed, home, ready]

end

/-- A merged sum applied at home, on a page of one copy whose parcel is good: the element's word changes, and nothing else (11 R270,
R271). -/
theorem applyMerged_sum {s : State} {y va pa e : Nat} (v : Word) (reach : translate s y (s.ctx y).tag va .atomic = .ok pa e)
    (single : leafState e ≠ some .replicated)
    (good : s.rangeGood (pa - pa % 256) ((pa % 256 + 4 + 255) / 256 * 256) = true) :
    applyMerged y s (va, 0, v, 0) = s.writePhys pa (leBytes (readWord s.hbm pa + v).toNat 4) := by
  have single' : (leafState e == some .replicated) = false := beq_eq_false_iff_ne.2 single
  have writes (o : Word) : atomicWrites 0 o 0 = true := rfl
  have sum (o : Word) : (atomicValue 0 o v).1 = o + v := rfl
  simp only [applyMerged, reach, single', State.applyAt, parcels, writes, sum]
  simp [good]

/-- Two sums to one element, delivered at home: the element takes their sum, and no other byte changes (20 R438, R439). -/
theorem epochDeliver_twoSums {s : State} {x w pa e : Nat} {a b : Contrib} (c : Collects s x w)
    (opened : ((s.func (s.ctx x).func).window w).isOpen = true)
    (closed : epochClosed ((s.func (s.ctx x).func).window w) (s.epochOf (s.ctx x).func w) = true)
    (home : ((s.func (s.ctx x).func).window w).home = s.modNum)
    (parts : (s.epochOf (s.ctx x).func w).parts = [a, b]) (closes : (s.epochOf (s.ctx x).func w).closes = [])
    (sum : a.op = 0) (sum' : b.op = 0) (element : b.va = a.va)
    (reach : translate s ((s.func (s.ctx x).func).window w).rctx
      (s.ctx ((s.func (s.ctx x).func).window w).rctx).tag a.va .atomic = .ok pa e)
    (single : leafState e ≠ some .replicated)
    (good : s.rangeGood (pa - pa % 256) ((pa % 256 + 4 + 255) / 256 * 256) = true) :
    ∃ t, exec (.epochDeliver x w) s = .next t ∧ EpochEnds s t (s.ctx x).func w ∧
      readWord t.hbm pa = readWord s.hbm pa + (a.operand + b.operand) ∧
      ∀ y, y < pa ∨ pa + 4 ≤ y → readByte t.hbm y = readByte s.hbm y := by
  have atomics := epochAtomics_twoSums parts closes sum sum' element ((s.func (s.ctx x).func).window w)
  have ready : epochStall s ((s.func (s.ctx x).func).window w).rctx
      (epochAtomics ((s.func (s.ctx x).func).window w) (s.epochOf (s.ctx x).func w)) = none := by
    simp [atomics, epochStall, reach]
  refine ⟨_, epochDeliver_applies c opened closed home ready, ?_⟩
  rw [atomics, List.foldl_cons, List.foldl_nil, applyMerged_sum _ reach single good]
  refine ⟨?_, readWord_writeWord _ _ _, fun y far => readByte_writeBytes_other _ _ _ _ ?_⟩
  · exact ⟨(nextEpoch_ends s _ w).window, (nextEpoch_ends s _ w).record⟩
  · rwa [leBytes_length]

/-! #### Members and the watchdog (20 R440, R441) -/

section
variable {s : State} {x w : Nat}

theorem otherMember_of {m : Nat} (o : OtherMember s x w m) : otherMember s ((s.func (s.ctx x).func).window w) m = true := by
  simp [otherMember, o.number, o.foreign, o.member]

/-- The switch's record once member `m` tells that it has stopped, or that it runs again. -/
def Epoch.told (e : Epoch) (m : Nat) (stopped : Bool) : Epoch :=
  { e with stopped := if stopped then insertNat m e.stopped else e.stopped.filter (· != m) }

/-- What another member tells goes into the record of the switch, whose watchdog is then settled. -/
theorem memberStop_records (c : Collects s x w) {m : Nat} (o : OtherMember s x w m) (stopped : Bool) :
    execMemberStop x w m stopped s = .next ((s.setEpoch (s.ctx x).func w ((s.epochOf (s.ctx x).func w).told m stopped)).settleWindow x
      (s.ctx x).func w ((s.func (s.ctx x).func).window w)) := by
  simp [execMemberStop, c.inForce, c.reduction, c.mine, otherMember_of o, State.setEpoch, Epoch.told]

theorem memberAbort_aborts (c : Collects s x w) {m reason : Nat} (o : OtherMember s x w m) (low : 1 ≤ reason) (high : reason ≤ 4) :
    execMemberAbort x w m reason s = .next (s.abortEpoch (s.ctx x).func w reason) := by
  have named : reason ≠ 0 := Nat.ne_of_gt low
  have known : ¬ 4 < reason := Nat.not_lt.2 high
  simp [execMemberAbort, c.inForce, c.reduction, c.mine, otherMember_of o, named, known]

theorem exec_watchdogExpiry : exec (.collectiveWatchdogExpiry x w) s = execCollectiveWatchdogExpiry x w s := rfl

theorem watchdogExpiry_idle (h : (s.epochOf (s.ctx x).func w).watchAt = none) :
    exec (.collectiveWatchdogExpiry x w) s = .next s := by
  simp [exec_watchdogExpiry, execCollectiveWatchdogExpiry, h]

/-- A watchdog that runs aborts the open epoch once its time is over. -/
theorem watchdogExpiry_runs (c : Collects s x w) (opened : ((s.func (s.ctx x).func).window w).isOpen = true) {start : Nat}
    (h : (s.epochOf (s.ctx x).func w).watchAt = some start) :
    exec (.collectiveWatchdogExpiry x w) s =
      .next (if start + watchTime ((s.func (s.ctx x).func).window w) ≤ s.time then s.abortEpoch (s.ctx x).func w 1 else s) := by
  simp [exec_watchdogExpiry, execCollectiveWatchdogExpiry, h, c.inForce, c.mine, opened]

end

/-- Settling a watchdog leaves the state, or sets the time it started: to now where a member has stopped, else to none. -/
theorem settleWindow_cases (s : State) (x f w : Nat) (d : Window) :
    s.settleWindow x f w d = s ∨ ∃ start, s.settleWindow x f w d = s.setEpoch f w { s.epochOf f w with watchAt := start } := by
  unfold State.settleWindow State.watch
  dsimp only
  split
  · split
    · exact .inr ⟨_, rfl⟩
    · exact .inl rfl
  · split
    · exact .inr ⟨_, rfl⟩
    · exact .inl rfl

/-- Settling a watchdog changes the time it started, and nothing else of its record, of the cores or of HBM. -/
theorem settleWindow_frame (s : State) (x f w : Nat) (d : Window) :
    ((s.settleWindow x f w d).epochOf f w).stopped = (s.epochOf f w).stopped ∧ (s.settleWindow x f w d).cores = s.cores ∧
      (s.settleWindow x f w d).hbm = s.hbm := by
  obtain h | ⟨start, h⟩ := settleWindow_cases s x f w d <;> rw [h] <;> simp

/-- The watchdog of an open collective starts once a member stops. -/
theorem settleWindow_starts {s : State} {f w : Nat} {d : Window} (x : Nat) (inForce : d.en = true) (reduction : d.kind = true)
    (opened : d.isOpen = true) (stopped : (s.epochOf f w).stopped ≠ []) (still : (s.epochOf f w).watchAt = none) :
    ((s.settleWindow x f w d).epochOf f w).watchAt = some s.time := by
  have started : s.settleWindow x f w d = s.setEpoch f w { s.epochOf f w with watchAt := some s.time } := by
    rw [State.epochOf] at stopped still
    simp [State.settleWindow, State.watch, inForce, reduction, opened, stopped, still, State.setEpoch, State.epochOf]
  rw [started, State.epochOf_setEpoch_same]

/-- The watchdog ends once every member runs again with nothing deferred. -/
theorem settleWindow_ends {s : State} {x f w : Nat} (d : Window) (running : (s.ctx x).st = .running)
    (steady : (s.ctx x).deferred = false) (allRun : (s.epochOf f w).stopped = []) :
    ((s.settleWindow x f w d).epochOf f w).watchAt = none := by
  rw [State.epochOf] at allRun
  unfold State.settleWindow
  by_cases runs : (look Epoch.reset (windowKey f w) s.epochs).watchAt = none
  · simp [running, steady, allRun, runs, State.epochOf]
  · simp [running, steady, allRun, runs, State.epochOf, Option.isSome_iff_ne_none]

theorem mem_insertNat (n : Nat) (l : List Nat) : n ∈ insertNat n l := by simp [insertNat]

end Sys2Proof.Machine

/-! ### What the host's writes and the collectives do (O48) -/

namespace Sys2Proof.Machine

/-- The command that each code starts, on the arguments in MBARG (19 R411; log 88). -/
theorem startCommand_starts (s : State) (f : Nat) :
    let x := argOf s f 0
    let a := argOf s f 1
    let wide := argPair s f 1
    let wide3 := argPair s f 3
    ∀ p ∈ [(0x01, Instr.create f wide wide3 (argPair s f 5)), (0x02, .terminate f x), (0x04, .unmap f x wide), (0x07, .preempt f x),
      (0x08, .resume f x), (0x0A, .halt f x), (0x0C, .harvest f x wide (argOf s f 3)), (0x0D, .save f x wide wide3),
      (0x0E, .restore f x wide), (0x0F, .dump f x wide wide3), (0x11, .dbggo f x a), (0x12, .evict f x wide),
      (0x20, .partset f a (argPair s f 2)), (0x21, .partdrop f a), (0x22, .partfunc f a (argOf s f 2))],
      startCommand f p.1 s = exec p.2 s := by
  simp only [List.forall_mem_cons]
  exact ⟨rfl, rfl, rfl, rfl, rfl, rfl, rfl, rfl, rfl, rfl, rfl, rfl, rfl, rfl, rfl, nofun⟩

/-- Word 8 of a window: its contexts, its home and the low bits of its watchdog. -/
theorem Window.write_contexts (d : Window) (n : Nat) :
    d.write 8 n = { d with lctx := n % 2 ^ 12, rctx := n / 2 ^ 12 % 2 ^ 12, home := n / 2 ^ 24 % 2 ^ 6,
                           wdog := d.wdog / 4 * 4 + n / 2 ^ 30 % 2 ^ 2 } := by
  simp [Window.write, bitsOf]

/-- Word 9 of a window: the high bits of its watchdog and its length. -/
theorem Window.write_length (d : Window) (n : Nat) :
    d.write 9 n = { d with wdog := d.wdog % 4 + n % 2 ^ 8 * 4, len := n / 2 ^ 8 % 2 ^ 24 } := by
  simp [Window.write, bitsOf]

section
variable {s : State} {f w : Nat} (h : TakesWrites s f) (hw : w < 64)
include h hw

/-- A field written while the window is not in force. -/
theorem registerWrite_field (en : ((s.func f).window w).en = false) {k : Nat} (hk : k < 16) (hk0 : k ≠ 0) {v : Word} {d : Window}
    (written : ((s.func f).window w).write k v.toNat = d) :
    exec (.registerWrite f (0x200000 + 64 * w + 4 * k) v) s = .next (s.setWindow f w d) := by
  rw [registerWrite_window h hw hk, writeWindow_field en hk0, written]

/-- Enabling a window whose check gives an error leaves it out of force with that error; 0 puts it in force. -/
theorem windowEnable_error (en : ((s.func f).window w).en = false) {e : Nat}
    (check : windowError s f w ((s.func f).window w) = e) :
    exec (.windowEnable f w) s = .next (s.setWindow f w { (s.func f).window w with en := e == 0, errc := e }) := by
  rw [windowEnable_checks h hw en, check]

end

section
variable {s : State} {f w : Nat} {d : Window}

theorem windowError_fields (bad : d.fieldsOk = false) : windowError s f w d = 1 := by simp [windowError, bad]

variable (good : d.fieldsOk = true)
include good

theorem windowError_meets (meets : windowMeets (s.func f) w d = true) : windowError s f w d = 2 := by
  simp [windowError, good, meets]

variable (apart : windowMeets (s.func f) w d = false)
include apart

theorem windowError_context (wrong : (s.ctx d.lctx).st = .free ∨ (s.ctx d.lctx).func ≠ f) : windowError s f w d = 3 := by
  simp [windowError, good, apart, wrong]

variable (made : (s.ctx d.lctx).st ≠ .free) (mine : (s.ctx d.lctx).func = f)
include made mine

theorem windowError_none (home : d.home = s.modNum ∧ d.kind = true ∨ d.home ≠ s.modNum ∧ reaches s d.home = true) :
    windowError s f w d = 0 := by
  obtain ⟨here, kind⟩ | ⟨away, reached⟩ := home
  · simp [windowError, good, apart, made, mine, here, kind]
  · simp [windowError, good, apart, made, mine, away, reached]

theorem windowError_home (home : d.home = s.modNum ∧ d.kind = false ∨ d.home ≠ s.modNum ∧ reaches s d.home = false) :
    windowError s f w d = 4 := by
  obtain ⟨here, kind⟩ | ⟨away, lost⟩ := home
  · simp [windowError, good, apart, made, mine, here, kind]
  · simp [windowError, good, apart, made, mine, away, lost]

end

section
variable {s : State} {x w m : Nat} (c : Collects s x w) (o : OtherMember s x w m)
include c o

/-- A member that stops is listed, and the watchdog of an open collective starts (20 R440). -/
theorem memberStop_stops : ∃ t, execMemberStop x w m true s = .next t ∧ m ∈ (t.epochOf (s.ctx x).func w).stopped ∧
    t.cores = s.cores ∧ t.hbm = s.hbm ∧ (((s.func (s.ctx x).func).window w).isOpen = true →
      (s.epochOf (s.ctx x).func w).watchAt = none → (t.epochOf (s.ctx x).func w).watchAt = some s.time) := by
  have listed : m ∈ ((s.epochOf (s.ctx x).func w).told m true).stopped := mem_insertNat m _
  obtain ⟨stopped, cores, hbm⟩ := settleWindow_frame (s.setEpoch (s.ctx x).func w ((s.epochOf (s.ctx x).func w).told m true)) x
    (s.ctx x).func w ((s.func (s.ctx x).func).window w)
  rw [State.epochOf_setEpoch_same] at stopped
  refine ⟨_, memberStop_records c o true, stopped ▸ listed, cores, hbm, fun opened still => ?_⟩
  refine settleWindow_starts x c.inForce c.reduction opened ?_ ?_ <;> rw [State.epochOf_setEpoch_same]
  · exact List.ne_nil_of_mem listed
  · exact still

/-- The last member that stands stopped runs again: none is listed, and the watchdog ends where this module runs too (20 R440). -/
theorem memberStop_runs (last : (s.epochOf (s.ctx x).func w).stopped = [m]) :
    ∃ t, execMemberStop x w m false s = .next t ∧ (t.epochOf (s.ctx x).func w).stopped = [] ∧ t.cores = s.cores ∧
      ((s.ctx x).st = .running → (s.ctx x).deferred = false → (t.epochOf (s.ctx x).func w).watchAt = none) := by
  have none' : ((s.epochOf (s.ctx x).func w).told m false).stopped = [] := by simp [Epoch.told, last]
  obtain ⟨stopped, cores, -⟩ := settleWindow_frame (s.setEpoch (s.ctx x).func w ((s.epochOf (s.ctx x).func w).told m false)) x
    (s.ctx x).func w ((s.func (s.ctx x).func).window w)
  rw [State.epochOf_setEpoch_same] at stopped
  refine ⟨_, memberStop_records c o false, stopped.trans none', cores, fun running steady => ?_⟩
  refine settleWindow_ends _ running steady ?_
  rw [State.epochOf_setEpoch_same, none']

end

/-- Settles O48: each register by the rule of its offset, each window by its check, and each step of an epoch by what it leaves of the
window, of the switch's record, of the cores and of HBM. -/
theorem hostAndCollectives : Obligations.HostAndCollectives := by
  refine ⟨?_, ?_⟩
  · intro s f i w j v named steady r d n set write word x a wide wide3 key ep
    refine ⟨fun off => execRegisterWrite_answers f off v s, fun closed off => registerWrite_closed closed off v, fun portOpen => ?_⟩
    have h : TakesWrites s f := ⟨named, steady, portOpen⟩
    refine ⟨fun hi => registerWrite_arg h hi v, registerWrite_status h v,
      fun hj => ⟨registerWrite_doorbell h hj v, registerWrite_qstat h hj v⟩,
      fun p hp code => ?_, fun hw => ⟨fun en => ?_, fun en => ?_⟩, fun hw en closed => ?_, fun hw en opened => ?_⟩
    · exact (registerWrite_command h v).trans (code ▸ startCommand_starts s f p hp)
    · refine ⟨fun k hk hk0 => (registerWrite_window h hw hk v).trans (writeWindow_inForce en hk0 v), windowEnable_inForce en,
        fun keep => ?_, fun clear => ?_⟩
      · exact (registerWrite_window h hw (by decide) v).trans ((writeWindow_en en v).trans (if_pos keep))
      · exact (registerWrite_window h hw (by decide) v).trans ((writeWindow_en en v).trans (if_neg (Bool.eq_false_iff.1 clear)))
    · have kind := (registerWrite_window h hw (k := 0) (by decide) v).trans (writeWindow_kind en v)
      refine ⟨fun clear => kind.trans (if_neg (Bool.eq_false_iff.1 clear)), fun one => kind.trans (if_pos one),
        registerWrite_field h hw en (by decide) (by decide) (Window.write_contexts d n),
        registerWrite_field h hw en (by decide) (by decide) (Window.write_length d n),
        registerWrite_field h hw en (by decide) (by decide) rfl, registerWrite_field h hw en (by decide) (by decide) rfl,
        registerWrite_field h hw en (by decide) (by decide) rfl, registerWrite_field h hw en (by decide) (by decide) rfl,
        registerWrite_field h hw en (by decide) (by decide) rfl, registerWrite_field h hw en (by decide) (by decide) rfl,
        windowDisable_idle en, fun bad => windowEnable_error h hw en (windowError_fields bad),
        fun good meets => windowEnable_error h hw en (windowError_meets good meets),
        fun good apart wrong => windowEnable_error h hw en (windowError_context good apart wrong),
        fun good apart made mine => ⟨fun home => windowEnable_error h hw en (windowError_none good apart made mine home),
          fun home => windowEnable_error h hw en (windowError_home good apart made mine home)⟩⟩
    · have disabled := windowDisable_inForce named hw en
      rw [abortEpoch_closed en closed] at disabled
      exact disabled
    · have ends := abortEpoch_ends en opened 4
      refine ⟨_, windowDisable_inForce named hw en, ?_, fun id own running => ?_⟩
      · refine (State.window_setWindow_same _ f w _).trans ?_
        rw [ends.window]
        rfl
      · rw [State.setWindow_core, abortEpoch_core en opened, Core.aborted, if_pos ⟨own, by simp [running]⟩]
        rfl
  · intro s x w core seq va pa e page m reason st op v u a c p1 p2 f d ep now' kept ended aborted other own answered
      inForce reduction mine
    have col : Collects s x w := ⟨inForce, reduction, mine⟩
    have foreign (o : other) : OtherMember s x w m := ⟨o.1, o.2.1, o.2.2⟩
    have ends {t : State} (h : EpochEnds s t f w) : ended t := ⟨h.window, h.record⟩
    have aborts (opened : d.isOpen = true) (why : Nat) : aborted (s.abortEpoch f w why) why := by
      refine ⟨ends (abortEpoch_ends inForce opened why), abortEpoch_hbm inForce opened why, fun id holds busy => ?_, fun id free => ?_⟩
      · rw [abortEpoch_core inForce opened, Core.aborted, if_pos ⟨holds.trans (congrArg some mine.symm), busy⟩]
        rfl
      · rw [abortEpoch_core inForce opened, Core.aborted, if_neg fun both => free (both.1.trans (congrArg some mine))]
    refine ⟨fun o fresh => ?_, fun o closed fresh => ?_, fun o alone release compare low high fresh => ?_, fun o fresh kind => ?_,
      fun opened missing => ?_, fun opened all => ?_, elementAtomics_sameOp, elementAtomics_otherOp,
      closeAtomics_merged rfl (by decide) m v u, closeAtomics_single rfl m v u, closeAtomics_single rfl m v u,
      fun o => memberStop_stops col (foreign o), fun o => memberStop_runs col (foreign o),
      fun o opened _ low high => ⟨_, memberAbort_aborts col (foreign o) low high, aborts opened reason⟩, watchdogExpiry_idle,
      fun start runs opened _ => ⟨fun early => ?_, fun late => ⟨_, ?_, aborts opened 1⟩⟩⟩
    · obtain ⟨rfl, holder, only, rfl, rfl, rfl, rfl, place, waiting⟩ := o
      exact ⟨_, contributionAccept_own col ⟨holder, only, place, waiting⟩ (Epoch.take_open fresh),
        congrArg Window.isOpen (State.keepEpoch_window s f w _), congrArg Epoch.parts (State.keepEpoch_epochOf s f w _),
        State.accepted_answers (s := s.keepEpoch f w _) only⟩
    · obtain ⟨rfl, holder, only, rfl, rfl, rfl, rfl, place, waiting⟩ := o
      exact ⟨_, contributionAccept_own col ⟨holder, only, place, waiting⟩ (Epoch.take_next closed fresh),
        (congrArg Epoch.parts (State.keepEpoch_epochOf s f w _)).trans rfl, congrArg Epoch.nextPart (State.keepEpoch_epochOf s f w _),
        State.accepted_answers (s := s.keepEpoch f w _) only⟩
    · obtain ⟨rfl, holder, only, rfl, rfl, rfl, rfl, place, waiting⟩ := o
      subst compare
      exact ⟨_, contributionAccept_ownClose col ⟨holder, only, place, waiting⟩ alone release low high (Epoch.close_open fresh _ _ _),
        congrArg Window.isOpen (State.keepEpoch_window s f w _), congrArg Epoch.closes (State.keepEpoch_epochOf s f w _),
        State.accepted_answers (s := s.keepEpoch f w _) only⟩
    · exact ⟨_, contributionAccept_otherClose col (foreign o) kind (Epoch.close_open fresh op v u),
        congrArg Window.isOpen (State.keepEpoch_window s f w _), congrArg Epoch.closes (State.keepEpoch_epochOf s f w _), rfl, rfl⟩
    · refine epochDeliver_waits (Bool.eq_false_iff.2 fun all => ?_)
      obtain ⟨n, number, member, unclosed⟩ := missing
      obtain ⟨k, hk, same⟩ := (epochClosed_iff d ep).1 all n number member
      exact unclosed k hk same
    · have closed := (epochClosed_iff d ep).2 all
      refine ⟨fun away => ⟨_, epochDeliver_away col opened closed away, ends (nextEpoch_ends s f w), rfl⟩,
        fun home => epochDeliver_stalls col opened closed home, epochDeliver_applies col opened closed,
        fun home parts closes va1 va2 sum sum' reach single good _ => ?_⟩
      obtain ⟨t, run, ended', word, rest⟩ := epochDeliver_twoSums col opened closed home parts closes sum sum'
        (va2.trans va1.symm) (va1.symm ▸ reach) single good
      exact ⟨t, run, ends ended', word, rest⟩
    · exact (watchdogExpiry_runs col opened runs).trans (congrArg _ (if_neg (Nat.not_le.2 early)))
    · exact (watchdogExpiry_runs col opened runs).trans (congrArg _ (if_pos late))

end Sys2Proof.Machine

/-! ### What reset leaves (O51) -/

namespace Sys2Proof.Machine

@[simp] theorem Core.reset_readG (r : BitVec 5) : Core.reset.readG r = 0 := by simp [Core.readG, Core.reset]

@[simp] theorem Core.reset_readA (r : BitVec 3) : Core.reset.readA r = 0 := by simp [Core.readA, Core.reset]

@[simp] theorem Core.reset_readV (r : BitVec 5) : Core.reset.readV r = 0 := by simp [Core.readV, Core.reset]

@[simp] theorem Core.reset_readM (r : BitVec 3) : Core.reset.readM r = if r = 0 then 0xFF else 0 := by
  simp [Core.readM, Core.reset]

@[simp] theorem Core.reset_readZ (t r n : Nat) : Core.reset.readZ t r n = 0 := by simp [Core.readZ, Core.reset]

/-- Settles O51: no table lists an object and no memory a byte, so each reads as its reset record; of that record only the
registers, held in vectors, need an argument. -/
theorem resetLeaves : Obligations.ResetLeaves := by
  refine ⟨rfl, rfl, rfl, rfl, rfl, rfl, rfl, rfl, rfl, rfl, rfl, rfl, rfl, rfl, rfl, rfl, rfl, fun _ => ⟨rfl, rfl⟩, fun _ => ?_,
    fun _ => rfl, fun _ => ⟨rfl, rfl⟩, fun _ _ => ⟨rfl, rfl⟩, fun _ => rfl, fun _ => rfl⟩
  exact ⟨rfl, rfl, rfl, rfl, rfl, rfl, rfl, rfl, rfl, rfl, rfl, rfl, rfl, rfl, rfl, rfl, rfl, rfl, rfl, rfl, rfl, rfl, rfl,
    Core.reset_readG, Core.reset_readA, Core.reset_readV, Core.reset_readM, Core.reset_readZ, fun _ => rfl⟩

end Sys2Proof.Machine

/-! ### Pages: what the operations on entries and late writes leave unchanged -/

namespace Sys2Proof.Machine

/-- Editing a page's entry changes HBM alone (10 R240). -/
theorem State.editLeaf_eq (s : State) (x va : Nat) (f : Nat → Nat) :
    s.editLeaf x va f = { s with hbm := (s.editLeaf x va f).hbm } := by
  unfold State.editLeaf
  cases walk s x va with
  | invalid l bad => rfl
  | leaf e pa =>
    refine List.foldlRecOn (motive := fun q : State => q = { s with hbm := q.hbm }) _ _ rfl fun q hq i _ => ?_
    rw [hq]
    rfl

@[simp] theorem State.editLeaf_cores (s : State) (x va : Nat) (f : Nat → Nat) : (s.editLeaf x va f).cores = s.cores := by
  rw [State.editLeaf_eq]

@[simp] theorem State.editLeaf_shoot (s : State) (x va : Nat) (f : Nat → Nat) : (s.editLeaf x va f).shoot = s.shoot := by
  rw [State.editLeaf_eq]

@[simp] theorem State.editLeaf_waiting (s : State) (x va : Nat) (f : Nat → Nat) : (s.editLeaf x va f).waiting = s.waiting := by
  rw [State.editLeaf_eq]

/-- `t` differs from `s` in HBM and its dirty bits alone. -/
def WritesHbm (s t : State) : Prop := t = { s with hbm := t.hbm, dirty := t.dirty }

theorem WritesHbm.refl (s : State) : WritesHbm s s := rfl

theorem WritesHbm.trans {s t u : State} (h : WritesHbm s t) (k : WritesHbm t u) : WritesHbm s u := by
  unfold WritesHbm at *
  rw [k, h]

/-- Steps that each write HBM write HBM. -/
theorem WritesHbm.foldl {α : Type} {g : State → α → State} (h : ∀ q a, WritesHbm q (g q a)) (l : List α) (s : State) :
    WritesHbm s (l.foldl g s) :=
  List.foldlRecOn l g (.refl s) fun q hq a _ => hq.trans (h q a)

theorem writesHbm_writePhys (s : State) (pa : Nat) (bs : List Byte) : WritesHbm s (s.writePhys pa bs) := rfl

theorem writesHbm_writeCells (s : State) (cs : List Host.Cell) : WritesHbm s (s.writeCells cs) :=
  .foldl (fun q (c : Host.Cell) => writesHbm_writePhys q c.1 [c.2]) cs s

/-- Late writes that land change HBM, its dirty bits and the late writes alone (16 R365). -/
theorem State.landLate_eq (s : State) (n : Nat) :
    s.landLate n = { s with hbm := (s.landLate n).hbm, dirty := (s.landLate n).dirty, late := s.late.drop n } := by
  unfold State.landLate
  rw [WritesHbm.foldl (fun q (l : Late) => writesHbm_writeCells q l.cells) (s.late.take n) s]

@[simp] theorem State.landLate_cores (s : State) (n : Nat) : (s.landLate n).cores = s.cores := by rw [State.landLate_eq]

@[simp] theorem State.landLate_shoot (s : State) (n : Nat) : (s.landLate n).shoot = s.shoot := by rw [State.landLate_eq]

/-- Zeroing a range clears it in HBM. -/
@[simp] theorem State.zeroPhys_hbm (s : State) (pa n : Nat) : (s.zeroPhys pa n).hbm = clearRange s.hbm pa n := rfl

end Sys2Proof.Machine

/-! ### Page requests (01 R12; 10 R249 to R253) -/

namespace Sys2Proof.Machine

/-- The oldest waiting request that an I/O die may take up now. -/
def nextWaiting (s : State) (die : Nat) : Option PageReq := s.waiting.find? fun r => reqDie r.func == die && admissible s r

/-- The state once a waiting request has taken an entry, reserved or shared, and its page is REQUESTED (10 R249, R250). -/
def State.takeEntry (s : State) (r : PageReq) (b : Bool) : State :=
  { ({ s with waiting := s.waiting.erase r } : State).editLeaf r.ctx r.va (fun e => setBit e 8 1) with
    requests := s.requests ++ [{ r with reserved := b }] }

/-- What admissions do: requests leave those that wait, further ones are posted after those that stood, and no core changes. -/
structure Admits (s t : State) : Prop where
  waiting  : t.waiting.Sublist s.waiting
  requests : s.requests <+: t.requests
  cores    : t.cores = s.cores

theorem Admits.refl (s : State) : Admits s s := ⟨.refl _, List.prefix_rfl, rfl⟩

theorem Admits.trans {s t u : State} (h : Admits s t) (k : Admits t u) : Admits s u :=
  ⟨k.waiting.trans h.waiting, h.requests.trans k.requests, k.cores.trans h.cores⟩

theorem admits_withdraw (s : State) (r : PageReq) : Admits s { s with waiting := s.waiting.erase r } :=
  ⟨List.erase_sublist, List.prefix_rfl, rfl⟩

@[simp] theorem State.takeEntry_waiting (s : State) (r : PageReq) (b : Bool) : (s.takeEntry r b).waiting = s.waiting.erase r := by
  simp only [State.takeEntry, State.editLeaf_waiting]

@[simp] theorem State.takeEntry_requests (s : State) (r : PageReq) (b : Bool) :
    (s.takeEntry r b).requests = s.requests ++ [{ r with reserved := b }] := by
  simp only [State.takeEntry]

@[simp] theorem State.takeEntry_cores (s : State) (r : PageReq) (b : Bool) : (s.takeEntry r b).cores = s.cores := by
  simp only [State.takeEntry, State.editLeaf_cores]

theorem admits_takeEntry (s : State) (r : PageReq) (b : Bool) : Admits s (s.takeEntry r b) where
  waiting := by rw [State.takeEntry_waiting]; exact List.erase_sublist
  requests := by rw [State.takeEntry_requests]; exact List.prefix_append ..
  cores := s.takeEntry_cores r b

theorem admitWaiting_idle {s : State} {die : Nat} (h : nextWaiting s die = none) (n : Nat) : admitWaiting die n s = s := by
  rw [nextWaiting] at h
  cases n with
  | zero => rfl
  | succ n => simp [admitWaiting, h]

/-- Each round admits the oldest request, or withdraws it. -/
theorem admitWaiting_admits (die n : Nat) (s : State) : Admits s (admitWaiting die n s) := by
  induction n generalizing s with
  | zero => exact .refl s
  | succ n ih =>
    unfold admitWaiting
    split
    · exact .refl s
    · rename_i r _
      refine Admits.trans ?_ (ih _)
      split
      · rename_i b _
        split
        · exact admits_takeEntry s r b
        · exact admits_withdraw s r
      · exact admits_withdraw s r

/-- The oldest waiting request takes the free entry; younger ones may follow it (10 R251). -/
theorem admitWaiting_next {s : State} {die : Nat} {r : PageReq} {b : Bool} (h : nextWaiting s die = some r)
    (demand : onDemand s r.ctx r.va = true) (entry : freeEntry s r.func = some b) :
    Admits (s.takeEntry r b) (admitWaiting die s.waiting.length s) := by
  obtain ⟨n, hn⟩ := Nat.exists_eq_succ_of_ne_zero (List.length_pos_of_mem (List.mem_of_find?_eq_some h)).ne'
  rw [nextWaiting] at h
  rw [hn, admitWaiting, h]
  simp only [entry, demand, if_true]
  exact admitWaiting_admits die n (s.takeEntry r b)

theorem exec_pageRequestAdmit (s : State) (die : Nat) :
    exec (.pageRequestAdmit die) s = .next (admitWaiting die s.waiting.length s) := rfl

section
variable {s : State} {x va : Nat} (idle : nextWaiting s (reqDie (s.ctx x).func) = none)
include idle

theorem requestAt_moved (moved : onDemand s x va = false) (t : Nat) : s.requestAt x va .demand t = s := by
  simp [State.requestAt, admitWaiting_idle idle, moved]

variable (demand : onDemand s x va = true)
include demand

/-- A further access joins the request that waits (10 R251). -/
theorem requestAt_joins (joins : s.waiting.any (fun r => r.ctx == x && r.va == va) = true) (t : Nat) :
    s.requestAt x va .demand t =
      { s with waiting := s.waiting.map fun r => if r.ctx == x && r.va == va then { r with dueAt := min r.dueAt t } else r } := by
  unfold State.requestAt
  simp only [admitWaiting_idle idle, demand, joins, Bool.not_true, Bool.false_eq_true, if_false, if_true]

variable (alone : s.waiting.any (fun r => r.ctx == x && r.va == va) = false)
include alone

/-- A request that has reached its I/O die is posted where an entry is free (10 R249, R250). -/
theorem requestAt_posts {b : Bool} (entry : freeEntry s (s.ctx x).func = some b) {t : Nat} (here : t ≤ s.now) :
    (s.requestAt x va .demand t).requests = s.requests ++ [⟨x, va, (s.ctx x).func, b, t⟩] := by
  simp only [State.requestAt, admitWaiting_idle idle, demand, alone, here, entry, Bool.not_true, Bool.false_eq_true, if_false,
    if_true]

/-- Without an entry, or on its way to the I/O die, a request waits (01 R12; 10 R251). -/
theorem requestAt_waits {t : Nat} (held : t ≤ s.now → freeEntry s (s.ctx x).func = none) :
    s.requestAt x va .demand t = { s with waiting := s.waiting ++ [⟨x, va, (s.ctx x).func, false, t⟩] } := by
  have none' : (if t ≤ s.now then freeEntry s (s.ctx x).func else none) = none := by simpa using held
  simp only [State.requestAt, admitWaiting_idle idle, demand, alone, none', Bool.not_true, Bool.false_eq_true, if_false]

end

/-- A compute die's request needs at least the 12 cycles of one crossing (01 R12). -/
theorem ioCrossings_pos (d io : Nat) : 0 < ioCrossings d io := by
  unfold ioCrossings
  split <;> exact Nat.succ_pos _

section
variable {s : State} {x va k : Nat} (page : (s.ctx x).mapped.find? (fun m => m.1 == va) = some (va, k))
include page

section
variable (requested : leafState (entryOf s x va) = some .requested) (turn : servedNext s x va = true)
include requested turn

/-- A request whose turn it is makes its page resident with the contents of its backing (10 R245, R252, R253). -/
theorem pageRequestComplete_serves {frame : Nat} {p : List Host.Cell} {q : State} (quota : withinQuota s x (4 ^ k) = true)
    (free : frameFree s frame k = true) (steady : s.shoot.any (fun d => d.ctx == x && d.va == va) = false)
    (data : codePage s x va = none) (contents : requestData s x va k = .cells p)
    (resident : ((({ s with lastServed := (s.ctx x).func } : State).dropRequests x va).pastePhys frame (pageSize k) p).mapResident x va
      k frame (bitsOf (entryOf s x va) 2 1 == 1) (bitsOf (entryOf s x va) 3 1 == 1) (bitsOf (entryOf s x va) 4 1 == 1) false = some q) :
    exec (.pageRequestComplete x va frame) s = .next q := by
  have data' : codePage { s with lastServed := (s.ctx x).func } x va = none := data
  change execPageRequestComplete x va frame s = .next q
  simp [execPageRequestComplete, page, requested, steady, contents, turn, quota, free, data', resident]

/-- A request that can not be served leaves its page UNMAPPED (10 R245, R252). -/
theorem pageRequestRefuse_unmaps (refused : refusable s x va k = true) :
    exec (.pageRequestRefuse x va) s = .next (({ s with lastServed := (s.ctx x).func } : State).unmapPage x va k) := by
  change execPageRequestRefuse x va s = _
  simp [execPageRequestRefuse, page, requested, turn, refused]

end

/-! ### Replication and permissions (10 R245, R261) -/

/-- A page is copied to the other dies' frames and is REPLICATED (10 R261). -/
theorem pageReplicate_copies (mapped : leafState (entryOf s x va) = some .mapped) (quota : withinQuota s x (15 * 4 ^ k) = true)
    (free : (((framesOf (leafFrame (entryOf s x va)) true).filter (· != leafFrame (entryOf s x va))).all fun a =>
      rangeFree s a (pageSize k)) = true) :
    exec (.pageReplicate x va) s = .next
      ((((framesOf (leafFrame (entryOf s x va)) true).filter (· != leafFrame (entryOf s x va))).foldl
        (fun r a => r.copyFrame (leafFrame (entryOf s x va)) a (pageSize k)) s).editLeaf x va fun e => setBit e 5 1) := by
  change execPageReplicate x va s = _
  simp only [execPageReplicate, page, mapped, quota, free]
  rfl

/-- The page is MAPPED again once the late writes have landed, and its copies are shot down (10 R245, R261). -/
theorem pageEndReplication_shoots (replicated : leafState (entryOf s x va) = some .replicated) :
    let q := (s.landLate s.late.length).editLeaf x va fun e => setBit e 5 0
    exec (.pageEndReplication x va) s =
      .next { q with shoot := q.shoot ++ [⟨x, va, pageSize k, leafFrame (entryOf s x va), false, true, none⟩] } := by
  change execPageEndReplication x va s = _
  simp [execPageEndReplication, page, replicated]

end

/-- The entry `o` with the permissions, the partition bit and the tag of a change (10 R245). -/
def permissionEntry (o : Nat) (r w e part : Bool) (tag : Nat) : Nat :=
  let bit (b : Bool) : Nat := if b then 1 else 0
  let perm := setBit (setBit (setBit (setBit o 2 (bit r)) 3 (bit w)) 4 (bit e)) 53 (bit part)
  perm - bitsOf perm 54 10 * 2 ^ 54 + tag % 1024 * 2 ^ 54

/-- Whether entry `n` takes a permission of entry `o` away, or changes the tag that it asks for (10 R245). -/
def narrows (o n : Nat) (part : Bool) : Bool :=
  let lost (i : Nat) : Bool := bitsOf o i 1 == 1 && bitsOf n i 1 == 0
  lost 2 || lost 3 || lost 4 || (bitsOf o 53 1 == 0 && part) || bitsOf o 54 10 != bitsOf n 54 10

theorem narrows_iff (o n : Nat) (part : Bool) : narrows o n part = true ↔
    (bitsOf o 2 1 = 1 ∧ bitsOf n 2 1 = 0) ∨ (bitsOf o 3 1 = 1 ∧ bitsOf n 3 1 = 0) ∨ (bitsOf o 4 1 = 1 ∧ bitsOf n 4 1 = 0) ∨
      (bitsOf o 53 1 = 0 ∧ part = true) ∨ bitsOf o 54 10 ≠ bitsOf n 54 10 := by
  simp [narrows, or_assoc]

/-- The page's entry changes, and a shootdown begins where that narrows it (10 R245). -/
theorem pagePermissionChange_edits {s : State} {x va k : Nat} (page : (s.ctx x).mapped.find? (fun m => m.1 == va) = some (va, k))
    (resident : leafState (entryOf s x va) = some .mapped ∨ leafState (entryOf s x va) = some .migrating) (r w e part : Bool)
    (tag : Nat) :
    let o := entryOf s x va
    let n := permissionEntry o r w e part tag
    let q := s.editLeaf x va fun _ => n
    exec (.pagePermissionChange x va r w e part tag) s =
      .next (if narrows o n part then { q with shoot := q.shoot ++ [⟨x, va, pageSize k, leafFrame o, false, false, none⟩] } else q) := by
  change execPagePermissionChange x va r w e part tag s = _
  unfold execPagePermissionChange
  rw [page]
  obtain mapped | migrating := resident
  · simp only [mapped]
    rfl
  · simp only [migrating]
    rfl

theorem hbm_of_narrows (q : State) (o n : Nat) (part : Bool) (d : Shootdown) :
    (if narrows o n part then { q with shoot := q.shoot ++ [d] } else q).hbm = q.hbm := by
  split <;> rfl

theorem shoot_of_narrows {q : State} {l : List Shootdown} (stood : q.shoot = l) (o n : Nat) (part : Bool) (d : Shootdown) :
    (if narrows o n part then { q with shoot := q.shoot ++ [d] } else q).shoot = l ++
      (if (bitsOf o 2 1 = 1 ∧ bitsOf n 2 1 = 0) ∨ (bitsOf o 3 1 = 1 ∧ bitsOf n 3 1 = 0) ∨ (bitsOf o 4 1 = 1 ∧ bitsOf n 4 1 = 0) ∨
        (bitsOf o 53 1 = 0 ∧ part = true) ∨ bitsOf o 54 10 ≠ bitsOf n 54 10 then [d] else []) := by
  rw [← if_congr (narrows_iff o n part) rfl rfl]
  split <;> simp [stood]

/-! ### Shootdowns (10 R245, R248) -/

section
variable {s : State} {x va : Nat} {d : Shootdown} (begun : s.shoot.find? (fun d => d.ctx == x && d.va == va) = some d)
include begun

/-- A shootdown waits for the atomics on its frames (10 R248). -/
theorem shootdownComplete_waits (held : shootClear s d = false) : exec (.shootdownComplete x va) s = .next s := by
  change execShootdownComplete x va s = _
  simp [execShootdownComplete, begun, held]

/-- A shootdown that frees a page's frame, with nothing to write back, zeroes it (10 R245, R248). -/
theorem shootdownComplete_zeroes (clear : shootClear s d = true) (noBack : d.back = none) (frees : d.free = true)
    (home : d.copies = false) :
    exec (.shootdownComplete x va) s = .next (({ s with shoot := s.shoot.erase d } : State).zeroPhys d.frame d.size) := by
  change execShootdownComplete x va s = _
  simp [execShootdownComplete, begun, clear, backSpoilt, backReady, writeBack, noBack, frees, home, freedFrames, framesOf]

end

/-- Settles O33: a request by the rule of each of its stages, admission by what its rounds do, and a shootdown, a replication and a
change of permissions by the state each leaves. -/
theorem pagesComeAndGo : Obligations.PagesComeAndGo := by
  refine ⟨?_, ?_⟩
  · intro s x va frame die k b r p q
    refine ⟨fun idle => ⟨fun demand alone entry => ?_, fun demand alone full => ?_, fun demand joins => ?_, fun moved => ?_,
      fun demand alone => ?_⟩, rfl, fun next demand entry => ?_, fun idle => ?_, fun page requested turn quota free steady data contents
      resident => ?_, fun page requested turn refused => ?_, rfl⟩
    · exact requestAt_posts idle demand alone entry le_rfl
    · exact requestAt_waits idle demand alone fun _ => full
    · exact requestAt_joins idle demand joins _
    · exact requestAt_moved idle moved _
    · have away := ioCrossings_pos die (reqDie (s.ctx x).func)
      exact requestAt_waits idle demand alone fun arrived => absurd arrived (by omega)
    · have admits := admitWaiting_next next demand entry
      exact ⟨_, exec_pageRequestAdmit s die, s.takeEntry_waiting r b ▸ admits.waiting, s.takeEntry_requests r b ▸ admits.requests,
        admits.cores.trans (s.takeEntry_cores r b)⟩
    · rw [exec_pageRequestAdmit, admitWaiting_idle idle]
    · exact pageRequestComplete_serves page requested turn quota free steady data contents resident
    · exact pageRequestRefuse_unmaps page requested turn refused
  · intro s x va k d r w e part tag
    refine ⟨fun begun clear noBack frees home => ⟨_, shootdownComplete_zeroes begun clear noBack frees home, rfl, fun i hi => ?_,
      fun y outside => ?_, rfl⟩, shootdownComplete_waits, fun page => ⟨pageReplicate_copies page, fun replicated =>
      ⟨_, pageEndReplication_shoots page replicated, ?_, ?_, ?_⟩, fun resident =>
      ⟨_, pagePermissionChange_edits page resident r w e part tag, ?_, ?_⟩⟩⟩
    · rw [State.zeroPhys_hbm, readByte_clearRange, if_neg (by omega)]
      rfl
    · rw [State.zeroPhys_hbm, readByte_clearRange, if_pos outside]
    · dsimp only
    · simp
    · simp
    · exact hbm_of_narrows ..
    · exact shoot_of_narrows (State.editLeaf_shoot ..) _ _ part _

end Sys2Proof.Machine

/-! ### Exact integer results under a modifier word (02 R50, R51, R54) -/

namespace Sys2Proof.Machine

/-- Limiting to a range replaces a value outside it by the nearest end. -/
theorem max_min_eq_nearest {lo hi : Int} (ordered : lo ≤ hi) (z : Int) :
    max lo (min z hi) = if z < lo then lo else if hi < z then hi else z := by
  split_ifs <;> omega

/-! #### The scale stage -/

/-- A scale of 0 or more multiplies exactly. -/
theorem scaleInt_natCast (k : Nat) (e : Int) : scaleInt k e = e * 2 ^ k := by
  simp [scaleInt]

/-- A scale of 0 written as a negative one leaves the result as it is; any other negative scale divides with rounding. -/
theorem scaleInt_neg_natCast (k : Nat) (e : Int) : scaleInt (-(k : Int)) e = if k = 0 then e else divRoundEven e k := by
  rcases eq_or_ne k 0 with rfl | negative
  · simp [scaleInt]
  · simp [scaleInt, negative]

/-- Rounded division is at most half a unit from the exact quotient, and even where it is exactly half a unit away: the remainder
decides between the floor and its successor. -/
theorem divRoundEven_nearest (e : Int) (k : Nat) :
    2 * (e - divRoundEven e k * 2 ^ k).natAbs ≤ 2 ^ k ∧
      (2 * (e - divRoundEven e k * 2 ^ k).natAbs = 2 ^ k → divRoundEven e k % 2 = 0) := by
  have positive : (0 : Int) < 2 ^ k := by positivity
  have cast : ((2 ^ k : Nat) : Int) = 2 ^ k := by simp
  have parts := Int.emod_add_mul_ediv e (2 ^ k)
  have low := Int.emod_nonneg e positive.ne'
  have high := Int.emod_lt_of_pos e positive
  have floor : e - e / 2 ^ k * 2 ^ k = e % 2 ^ k := by rw [mul_comm]; omega
  have ceiling : e - (e / 2 ^ k + 1) * 2 ^ k = e % 2 ^ k - 2 ^ k := by rw [add_mul, one_mul]; omega
  unfold divRoundEven
  dsimp only
  split_ifs
  · rw [ceiling]; omega
  · rw [floor]; omega
  · rw [ceiling]; omega
  · rw [floor]; omega

/-! #### Absolute value, negation and clamp -/

/-- The exact result after absolute value and negation. -/
def signedInt (m : Modifier) (x : Int) : Int :=
  let y : Int := if m.abs then x.natAbs else x
  if m.neg then -y else y

theorem stagesInt_eq (m : Modifier) (x : Int) :
    stagesInt m x = if m.clamp = 1 then max 0 (min (signedInt m x) 1) else if m.clamp = 2 then max (-1) (min (signedInt m x) 1)
      else if m.clamp = 3 then max 0 (signedInt m x) else signedInt m x := rfl

theorem stagesInt_unclamped {m : Modifier} (h : m.clamp = 0) (x : Int) : stagesInt m x = signedInt m x := by
  simp [stagesInt_eq, h]

theorem stagesInt_clampUnit {m : Modifier} (h : m.clamp = 1) (x : Int) :
    stagesInt m x = if signedInt m x < 0 then 0 else if 1 < signedInt m x then 1 else signedInt m x := by
  rw [stagesInt_eq, if_pos h, max_min_eq_nearest (by decide)]

theorem stagesInt_clampSigned {m : Modifier} (h : m.clamp = 2) (x : Int) :
    stagesInt m x = if signedInt m x < -1 then -1 else if 1 < signedInt m x then 1 else signedInt m x := by
  rw [stagesInt_eq, h, if_neg (by decide), if_pos rfl, max_min_eq_nearest (by decide)]

theorem stagesInt_clampNonneg {m : Modifier} (h : m.clamp = 3) (x : Int) :
    stagesInt m x = if signedInt m x < 0 then 0 else signedInt m x := by
  rw [stagesInt_eq, h, if_neg (by decide), if_neg (by decide), if_pos rfl]
  split_ifs <;> omega

/-! #### Saturation and wrapping -/

/-- The lowest value of the signed or unsigned range of w bits. -/
def rangeLow (signed : Bool) (w : Nat) : Int := if signed then -2 ^ (w - 1) else 0

/-- The highest value of the signed or unsigned range of w bits. -/
def rangeHigh (signed : Bool) (w : Nat) : Int := if signed then 2 ^ (w - 1) - 1 else 2 ^ w - 1

theorem rangeLow_le_rangeHigh (signed : Bool) (w : Nat) : rangeLow signed w ≤ rangeHigh signed w := by
  have half : (0 : Int) < 2 ^ (w - 1) := by positivity
  have full : (0 : Int) < 2 ^ w := by positivity
  cases signed
  · exact Int.le_sub_one_of_lt full
  · change (-2 ^ (w - 1) : Int) ≤ 2 ^ (w - 1) - 1
    omega

theorem saturate_eq (signed : Bool) (w : Nat) (x : Int) :
    saturate signed w x =
      if x < rangeLow signed w then rangeLow signed w else if rangeHigh signed w < x then rangeHigh signed w else x := by
  rw [← max_min_eq_nearest (rangeLow_le_rangeHigh signed w)]
  cases signed <;> rfl

section
variable {m : Modifier} {signed : Bool} {w : Nat} {e : Int}

/-- Without saturation the low bits are delivered and no flag is set (02 R50). -/
theorem deliverInt_wraps (off : m.sat = false) :
    deliverInt (some m) signed w e = (BitVec.ofInt w (stagesInt m (scaleInt m.scale e)), 0) := by
  simp [deliverInt, off]

/-- With saturation the nearest value of the range is delivered, and SAT tells that it is another one (02 R51). -/
theorem deliverInt_saturates (on : m.sat = true) {y z : Int} (staged : stagesInt m (scaleInt m.scale e) = y)
    (nearest : saturate signed w y = z) : deliverInt (some m) signed w e = (BitVec.ofInt w z, if z = y then 0 else 0x80) := by
  subst staged nearest
  simp [deliverInt, on, flagIf, flSAT]

theorem deliverInt_inRange (on : m.sat = true) (low : rangeLow signed w ≤ stagesInt m (scaleInt m.scale e))
    (high : stagesInt m (scaleInt m.scale e) ≤ rangeHigh signed w) :
    deliverInt (some m) signed w e = (BitVec.ofInt w (stagesInt m (scaleInt m.scale e)), 0) := by
  rw [deliverInt_saturates on rfl (by rw [saturate_eq, if_neg low.not_gt, if_neg high.not_gt]), if_pos rfl]

theorem deliverInt_below (on : m.sat = true) (below : stagesInt m (scaleInt m.scale e) < rangeLow signed w) :
    deliverInt (some m) signed w e = (BitVec.ofInt w (rangeLow signed w), 0x80) := by
  rw [deliverInt_saturates on rfl (by rw [saturate_eq, if_pos below]), if_neg below.ne']

theorem deliverInt_above (on : m.sat = true) (above : rangeHigh signed w < stagesInt m (scaleInt m.scale e)) :
    deliverInt (some m) signed w e = (BitVec.ofInt w (rangeHigh signed w), 0x80) := by
  have notBelow := ((rangeLow_le_rangeHigh signed w).trans_lt above).not_gt
  rw [deliverInt_saturates on rfl (by rw [saturate_eq, if_neg notBelow, if_pos above]), if_neg above.ne]

end

/-- Settles O4: each stage by its own rule; a division by a power of two is nearest because its remainder is compared with half the
divisor, and a saturated delivery is the nearest value of the range. -/
theorem integerModifierStages : Obligations.IntegerModifierStages := by
  refine ⟨fun _ _ _ _ => rfl, scaleInt_natCast, fun k e => ?_, fun m x => ?_, fun w _ m signed e => ?_⟩
  · dsimp only
    rw [scaleInt_neg_natCast]
    split_ifs with unscaled
    · simp [unscaled]
    · exact ⟨(divRoundEven_nearest e k).1, fun _ => (divRoundEven_nearest e k).2⟩
  · exact ⟨(stagesInt_unclamped · x), (stagesInt_clampUnit · x), (stagesInt_clampSigned · x), (stagesInt_clampNonneg · x)⟩
  · exact ⟨deliverInt_wraps, deliverInt_inRange, deliverInt_below, deliverInt_above⟩

end Sys2Proof.Machine

/-! ### Words and instructions (04 R84 to R97)

An encoding is a row of fields side by side, and the decoder reads fields of a word: both are statements about the bits that a word
holds at a place. `append_eq_iff` turns the one into the other. From an instruction, the encoder's fields give the decoder its row
and its operands; from a word, the row and its guards give every field of the encoder. -/

namespace Sys2Proof

/-! #### Fields of a word -/

section
variable {m n k : Nat}

/-- Two fields side by side are a word exactly when each is what the word holds at its place. (`no_index` lets simp use the rule
also where the sum of the widths is written as one number.) -/
theorem append_eq_iff (x : BitVec m) (y : BitVec n) (w : BitVec (m + n)) :
    @Eq (BitVec (no_index (m + n))) (@HAppend.hAppend (BitVec m) (BitVec n) (BitVec (no_index (m + n))) _ x y) w ↔
      x = w.extractLsb' n m ∧ y = w.extractLsb' 0 n := by
  constructor
  · rintro rfl
    exact ⟨BitVec.extractLsb'_append_eq_left.symm, BitVec.extractLsb'_append_eq_right.symm⟩
  · rintro ⟨rfl, rfl⟩
    rw [BitVec.extractLsb'_append_extractLsb'_eq_extractLsb' (by omega), BitVec.extractLsb'_eq_self]

/-- A field that lies in the low part, again for a sum of widths written as one number. -/
theorem extractLsb'_append_low {s l : Nat} (x : BitVec m) (y : BitVec n) (h : s + l ≤ n) :
    BitVec.extractLsb' s l (@HAppend.hAppend (BitVec m) (BitVec n) (BitVec (no_index (m + n))) _ x y) =
      y.extractLsb' s l :=
  BitVec.extractLsb'_append_eq_of_add_le h

/-- A field that lies in the high part. -/
theorem extractLsb'_append_high {s l : Nat} (x : BitVec m) (y : BitVec n) (h : n ≤ s) :
    BitVec.extractLsb' s l (@HAppend.hAppend (BitVec m) (BitVec n) (BitVec (no_index (m + n))) _ x y) =
      x.extractLsb' (s - n) l :=
  BitVec.extractLsb'_append_eq_of_le h

/-- A field of a field is a field of the whole. -/
theorem extractLsb'_extractLsb' (x : BitVec k) {s t l : Nat} (h : s + l ≤ m) :
    (x.extractLsb' t m).extractLsb' s l = x.extractLsb' (t + s) l := by
  ext i hi
  have inside : s + i < m := by omega
  simp [BitVec.getElem_extractLsb', inside, Nat.add_assoc]

end

/-! A register number below 8, 4 or 2 is one whose high bits are 0 (04 R84, R90). -/

theorem lt_eight_iff (x : BitVec 5) : x < 8#5 ↔ x.extractLsb' 3 2 = 0#2 := by decide +revert
theorem lt_four_iff (x : BitVec 5) : x < 4#5 ↔ x.extractLsb' 2 3 = 0#3 := by decide +revert
theorem lt_two_iff (x : BitVec 5) : x < 2#5 ↔ x.extractLsb' 1 4 = 0#4 := by decide +revert

/-! #### The decoder by its major opcode -/

theorem guarded_eq_ok_iff {a z r : Bool} {i j : Instr} :
    guarded a z r i = .ok j ↔ a = true ∧ z = true ∧ r = true ∧ i = j := by
  cases a <;> cases z <;> cases r <;> simp [guarded]

/-- The majors whose rows a minor opcode tells apart (04 R87, R89). -/
theorem decodeWord_of_major (w : Word) :
    (fmajor w = 0x01#6 → decodeWord w = decodeAlu w) ∧
    (fmajor w = 0x08#6 → decodeWord w = decodeShifti w) ∧
    (fmajor w = 0x0A#6 → decodeWord w = decodeMuldiv w) ∧
    (fmajor w = 0x17#6 → decodeWord w = decodeLd w) ∧
    (fmajor w = 0x18#6 → decodeWord w = decodeSt w) ∧
    (fmajor w = 0x19#6 → decodeWord w = decodePath w) ∧
    (fmajor w = 0x1A#6 → decodeWord w = decodeFp32 w) ∧
    (fmajor w = 0x1B#6 → decodeWord w = decodeBf16 w) ∧
    (fmajor w = 0x1C#6 → decodeWord w = decodeIntVec w) ∧
    (fmajor w = 0x1D#6 → decodeWord w = decodeMove w) ∧
    (fmajor w = 0x1E#6 → decodeWord w = decodeVMem w) ∧
    (fmajor w = 0x1F#6 → decodeWord w = decodeConv w) ∧
    (fmajor w = 0x20#6 → decodeWord w = decodeSpecial w) ∧
    (fmajor w = 0x21#6 → decodeWord w = decodeGang w) ∧
    (fmajor w = 0x22#6 → decodeWord w = decodeMatrix w) ∧
    (fmajor w = 0x23#6 → decodeWord w = decodeComb w) ∧
    (fmajor w = 0x24#6 → decodeWord w = decodeCopy w) ∧
    (fmajor w = 0x25#6 → decodeWord w = decodeGather w) ∧
    (fmajor w = 0x26#6 → decodeWord w = decodeAtomic w) ∧
    (fmajor w = 0x27#6 → decodeWord w = decodeVAtomic w) ∧
    (fmajor w = 0x28#6 → decodeWord w = decodeBarrier w) ∧
    (fmajor w = 0x29#6 → decodeWord w = decodeWaggle w) ∧
    (fmajor w = 0x2A#6 → decodeWord w = decodeExchange w) ∧
    (fmajor w = 0x2B#6 → decodeWord w = decodeQueue w) ∧
    (fmajor w = 0x2C#6 → decodeWord w = decodeForage w) ∧
    (fmajor w = 0x30#6 → decodeWord w = decodeSystem w) := by
  and_intros <;> intro major <;> simp only [decodeWord, major, BitVec.reduceToNat]

/-- The majors of one instruction each (04 R87, R93, R94). -/
theorem decodeWord_of_plain_major (w : Word) :
    (fmajor w = 0x02#6 → decodeWord w = .ok (.addi (fd w) (fa w) (w.extractLsb' 0 16))) ∧
    (fmajor w = 0x03#6 → decodeWord w = .ok (.andi (fd w) (fa w) (w.extractLsb' 0 16))) ∧
    (fmajor w = 0x04#6 → decodeWord w = .ok (.ori (fd w) (fa w) (w.extractLsb' 0 16))) ∧
    (fmajor w = 0x05#6 → decodeWord w = .ok (.xori (fd w) (fa w) (w.extractLsb' 0 16))) ∧
    (fmajor w = 0x06#6 → decodeWord w = .ok (.slti (fd w) (fa w) (w.extractLsb' 0 16))) ∧
    (fmajor w = 0x07#6 → decodeWord w = .ok (.sltiu (fd w) (fa w) (w.extractLsb' 0 16))) ∧
    (fmajor w = 0x09#6 → decodeWord w = guarded true (w.extractLsb' 16 5 == 0#5) true (.lui (fd w) (w.extractLsb' 0 16))) ∧
    (fmajor w = 0x0B#6 → decodeWord w = if w.extractLsb' 24 2 == 3#2 then .error .badHint
      else .ok (.beqz (w.extractLsb' 24 2) (w.extractLsb' 19 5) (w.extractLsb' 0 19))) ∧
    (fmajor w = 0x0C#6 → decodeWord w = if w.extractLsb' 24 2 == 3#2 then .error .badHint
      else .ok (.bnez (w.extractLsb' 24 2) (w.extractLsb' 19 5) (w.extractLsb' 0 19))) ∧
    (fmajor w = 0x0D#6 → decodeWord w = if w.extractLsb' 24 2 == 3#2 then .error .badHint
      else .ok (.bltz (w.extractLsb' 24 2) (w.extractLsb' 19 5) (w.extractLsb' 0 19))) ∧
    (fmajor w = 0x0E#6 → decodeWord w = if w.extractLsb' 24 2 == 3#2 then .error .badHint
      else .ok (.bgez (w.extractLsb' 24 2) (w.extractLsb' 19 5) (w.extractLsb' 0 19))) ∧
    (fmajor w = 0x0F#6 → decodeWord w = if w.extractLsb' 24 2 == 3#2 then .error .badHint
      else .ok (.bgtz (w.extractLsb' 24 2) (w.extractLsb' 19 5) (w.extractLsb' 0 19))) ∧
    (fmajor w = 0x10#6 → decodeWord w = if w.extractLsb' 24 2 == 3#2 then .error .badHint
      else .ok (.blez (w.extractLsb' 24 2) (w.extractLsb' 19 5) (w.extractLsb' 0 19))) ∧
    (fmajor w = 0x11#6 → decodeWord w = .ok (.jal (fd w) (w.extractLsb' 0 21))) ∧
    (fmajor w = 0x12#6 → decodeWord w = .ok (.jalr (fd w) (fa w) (w.extractLsb' 0 16))) ∧
    (fmajor w = 0x13#6 → decodeWord w = if w.extractLsb' 16 5 != 0#5 then .error .reservedField
      else if w.extractLsb' 0 16 == 0#16 then .error .zeroBody else .ok (.loop (fd w) (w.extractLsb' 0 16))) ∧
    (fmajor w = 0x14#6 → decodeWord w = if w.extractLsb' 0 10 == 0#10 then .error .zeroBody
      else .ok (.loopi (w.extractLsb' 10 16) (w.extractLsb' 0 10))) ∧
    (fmajor w = 0x15#6 → decodeWord w = guarded true (w.extractLsb' 0 4 == 0#4) true
      (.repf (w.extractLsb' 22 4) (w.extractLsb' 16 6) (w.extractLsb' 12 4) (w.extractLsb' 8 4) (w.extractLsb' 4 4))) ∧
    (fmajor w = 0x16#6 → decodeWord w = .ok (.mcall (w.extractLsb' 20 6) (w.extractLsb' 15 5) (w.extractLsb' 10 5)
      (w.extractLsb' 5 5) (w.extractLsb' 0 5))) ∧
    (fmajor w = 0x2D#6 → decodeWord w = guarded true (w.extractLsb' 8 13 == 0#13) true (.patchi (fd w) (w.extractLsb' 0 8))) ∧
    (fmajor w = 0x3E#6 → decodeWord w =
      if w.extractLsb' 0 14 != 0#14 || (w.extractLsb' 20 1 == 0#1 && w.extractLsb' 14 6 != 0#6) then .error .reservedField
      else .ok (.modifierWord (w.extractLsb' 25 1) (w.extractLsb' 24 1) (w.extractLsb' 22 2) (w.extractLsb' 21 1)
        (w.extractLsb' 20 1) (w.extractLsb' 14 6))) := by
  and_intros <;> intro major <;> simp only [decodeWord, major, BitVec.reduceToNat]

/-! #### From an instruction to its word and back -/

/-- The word of a well-formed instruction decodes to it: the encoder's fields hold the major, so that only one table of the decoder
is left, and there every field is read back from the row of the encoding. -/
theorem decodeWord_of_encode {i : Instr} {v w : Word} (wf : wellFormed i = true) (word : encode i = some v) (e : v = w) :
    decodeWord w = .ok i := by
  cases i
  all_goals cases word
  all_goals
    have fields := e
    simp only [append_eq_iff, extractLsb'_extractLsb', Nat.reduceAdd, Nat.reduceLeDiff] at fields
    simp only [decodeWord_of_major, decodeWord_of_plain_major, fmajor, ← fields]
  -- What is left reads the fields of the row itself; a guard on an operand is the instruction's well-formedness.
  all_goals
    clear fields
    subst e
  any_goals
    simp only [decodeAlu, decodeShifti, decodeMuldiv, decodeLd, decodeSt, decodePath, decodeFp32, decodeBf16, decodeIntVec,
      decodeMove, decodeVMem, decodeConv, decodeSpecial, decodeGang, decodeMatrix, decodeComb, decodeCopy, decodeGather,
      decodeAtomic, decodeVAtomic, decodeBarrier, decodeWaggle, decodeExchange, decodeQueue, decodeForage, decodeSystem,
      guarded_eq_ok_iff, fd, fa, fb, fc, fmask, fsys, extractLsb'_append_low, extractLsb'_append_high, extractLsb'_extractLsb',
      BitVec.extractLsb'_eq_self, BitVec.reduceExtractLsb', lt_two_iff, lt_four_iff, lt_eight_iff, Nat.reduceAdd, Nat.reduceSub,
      Nat.reduceLeDiff, BitVec.reduceToNat, BitVec.reduceBEq, BEq.rfl, decide_true, Bool.and_true, Bool.false_eq_true, reduceIte,
      true_and, and_true]
  any_goals exact wf
  all_goals simpa [wellFormed, imp_iff_not_or] using wf

/-! #### From a word to its instruction and back -/

/-- The word `w` is that of the well-formed instruction `i`. -/
def IsWordOf (w : Word) (i : Instr) : Prop := encode i = some w ∧ wellFormed i = true

/-- What the decoder answers for the word `w`, if it is an instruction, is one whose word is `w`. -/
def Reads (w : Word) (r : Except DecodeError Instr) : Prop := ∀ i, r = .ok i → IsWordOf w i

section
variable {w : Word} {i : Instr}

theorem isWordOf_of_encode {v : Word} (word : encode i = some v) (e : v = w) (wf : wellFormed i = true) : IsWordOf w i :=
  ⟨e ▸ word, wf⟩

theorem reads_error (r : DecodeError) : Reads w (.error r) := nofun

theorem reads_ok : Reads w (.ok i) ↔ IsWordOf w i :=
  ⟨fun h => h i rfl, fun h _ e => Except.ok.inj e ▸ h⟩

theorem reads_guarded {a z r : Bool} :
    Reads w (guarded a z r i) ↔ (a = true → z = true → r = true → IsWordOf w i) := by
  simp only [Reads, guarded_eq_ok_iff]
  exact ⟨fun h ha hz hr => h i ⟨ha, hz, hr, rfl⟩, fun h _ ⟨ha, hz, hr, e⟩ => e ▸ h ha hz hr⟩

end

/-- What the decoders of the scalar and vector majors read (04 R87 to R90). -/
theorem reads_of_scalar_vector_major (w : Word) :
    ((fmajor w).toNat = 0x01 → Reads w (decodeAlu w)) ∧
    ((fmajor w).toNat = 0x08 → Reads w (decodeShifti w)) ∧
    ((fmajor w).toNat = 0x0A → Reads w (decodeMuldiv w)) ∧
    ((fmajor w).toNat = 0x17 → Reads w (decodeLd w)) ∧
    ((fmajor w).toNat = 0x18 → Reads w (decodeSt w)) ∧
    ((fmajor w).toNat = 0x19 → Reads w (decodePath w)) ∧
    ((fmajor w).toNat = 0x1A → Reads w (decodeFp32 w)) ∧
    ((fmajor w).toNat = 0x1B → Reads w (decodeBf16 w)) ∧
    ((fmajor w).toNat = 0x1C → Reads w (decodeIntVec w)) ∧
    ((fmajor w).toNat = 0x1D → Reads w (decodeMove w)) ∧
    ((fmajor w).toNat = 0x1E → Reads w (decodeVMem w)) ∧
    ((fmajor w).toNat = 0x1F → Reads w (decodeConv w)) ∧
    ((fmajor w).toNat = 0x20 → Reads w (decodeSpecial w)) := by
  unfold decodeAlu decodeShifti decodeMuldiv decodeLd decodeSt decodePath decodeFp32 decodeBf16 decodeIntVec decodeMove
    decodeVMem decodeConv decodeSpecial
  and_intros <;> intro major
  all_goals repeat' split
  all_goals simp only [reads_error, reads_ok, reads_guarded, true_implies]
  all_goals intros
  all_goals refine isWordOf_of_encode rfl ?_ ?_
  any_goals rfl
  any_goals assumption
  -- The word, field by field: opcodes stand in the case, reserved fields in the guard, operands are what was read.
  all_goals simp only [↓append_eq_iff, fmajor, fd, fa, fb, fmask, lt_two_iff, lt_four_iff, lt_eight_iff,
    extractLsb'_extractLsb', Nat.reduceAdd, Nat.reduceLeDiff, ← BitVec.toNat_inj, BitVec.reduceToNat, BitVec.extractLsb'_toNat,
    beq_iff_eq, Bool.and_eq_true, decide_eq_true_eq, and_true] at *
  all_goals omega

/-- What the decoders of the majors after them read (04 R91, R92). -/
theorem reads_of_matrix_device_major (w : Word) :
    ((fmajor w).toNat = 0x21 → Reads w (decodeGang w)) ∧
    ((fmajor w).toNat = 0x22 → Reads w (decodeMatrix w)) ∧
    ((fmajor w).toNat = 0x23 → Reads w (decodeComb w)) ∧
    ((fmajor w).toNat = 0x24 → Reads w (decodeCopy w)) ∧
    ((fmajor w).toNat = 0x25 → Reads w (decodeGather w)) ∧
    ((fmajor w).toNat = 0x26 → Reads w (decodeAtomic w)) ∧
    ((fmajor w).toNat = 0x27 → Reads w (decodeVAtomic w)) ∧
    ((fmajor w).toNat = 0x28 → Reads w (decodeBarrier w)) ∧
    ((fmajor w).toNat = 0x29 → Reads w (decodeWaggle w)) ∧
    ((fmajor w).toNat = 0x2A → Reads w (decodeExchange w)) ∧
    ((fmajor w).toNat = 0x2B → Reads w (decodeQueue w)) ∧
    ((fmajor w).toNat = 0x2C → Reads w (decodeForage w)) ∧
    ((fmajor w).toNat = 0x30 → Reads w (decodeSystem w)) := by
  unfold decodeGang decodeMatrix decodeComb decodeCopy decodeGather decodeAtomic decodeVAtomic decodeBarrier decodeWaggle
    decodeExchange decodeQueue decodeForage decodeSystem
  and_intros <;> intro major
  all_goals repeat' split
  all_goals simp only [reads_error, reads_guarded, true_implies]
  all_goals intros
  all_goals refine isWordOf_of_encode rfl ?_ ?_
  any_goals rfl
  any_goals assumption
  -- The word, field by field: opcodes stand in the case, reserved fields in the guard, operands are what was read.
  all_goals simp only [↓append_eq_iff, fmajor, fd, fa, fb, fc, fmask, fsys, lt_two_iff, lt_four_iff, lt_eight_iff,
    extractLsb'_extractLsb', Nat.reduceAdd, Nat.reduceLeDiff, ← BitVec.toNat_inj, BitVec.reduceToNat, BitVec.extractLsb'_toNat,
    beq_iff_eq, Bool.and_eq_true, decide_eq_true_eq, and_true] at *
  all_goals omega

/-- Every instruction that the decoder gives is well formed and has the decoded word as its own. -/
theorem reads_decodeWord (w : Word) : Reads w (decodeWord w) := by
  unfold decodeWord
  split
  any_goals simp only [reads_of_scalar_vector_major, reads_of_matrix_device_major, *]
  all_goals repeat' split
  all_goals simp only [reads_error, reads_ok, reads_guarded, true_implies]
  all_goals intros
  all_goals refine isWordOf_of_encode rfl ?_ ?_
  any_goals rfl
  any_goals
    simp only [↓append_eq_iff, fmajor, fd, fa, extractLsb'_extractLsb', Nat.reduceAdd, Nat.reduceLeDiff, ← BitVec.toNat_inj,
      BitVec.reduceToNat, BitVec.extractLsb'_toNat, beq_iff_eq, bne_iff_ne, ne_eq, Bool.not_eq_true, Bool.or_eq_false_iff,
      bne_eq_false_iff_eq, and_true] at *
    omega
  all_goals simp_all [wellFormed, imp_iff_not_or]

end Sys2Proof

namespace Sys2Proof.Machine

/-- Settles O55: one direction goes over the instructions, the other over the decoder's rows. -/
theorem encodingsRoundTrip : Obligations.EncodingsRoundTrip :=
  ⟨fun _ _ wf word => decodeWord_of_encode wf word rfl, fun w i decoded => reads_decodeWord w i decoded⟩

/-- Settles O54: both sides are closed terms. -/
theorem wordsDecode : Obligations.WordsDecode := by
  unfold Obligations.WordsDecode
  decide

end Sys2Proof.Machine

/-! ### The system registers (05 R133 to R140; 16 R368) -/

namespace Sys2Proof.Machine

section
variable {s : State} {c : Core}

/-- An instruction that stalls in a core that issues it plainly is held there and tried again in the next cycle. -/
theorem issue_plain_stall {i : Instr} {f : Nat → State → Res} (h : IssuesPlain s c) (hf : f s.cur s = .wait s .stall) :
    issue i f s = .next (s.setCore s.cur { c with wait := .stall, held := some i, readyAt := s.now + 1 }) := by
  rw [issue_plain_wait h hf, State.hold, State.modCore, h.turn]

/-- A result that lands at once. -/
theorem issue_plain_lands {i : Instr} (h : IssuesPlain s c) (d : BitVec 5) (v : Core → Word) :
    issue i (landRes d v) s = .next (s.completed (c.landG s.now d (v c)) i .next) :=
  issue_plain h nofun (by rw [landRes, h.turn])

/-! #### Reads -/

theorem gsrOp_reads (turn : s.core s.cur = c) (d : BitVec 5) {n : Nat} (free : n ≠ 8 ∨ c.flagsPending = false) :
    gsrOp d n s.cur s = .done (s.setCore s.cur (c.landG s.now d (sysRead s.now s.cur c n))) .next := by
  have : ¬((n = 8 : Bool) && c.flagsPending) = true := by simpa [imp_iff_not_or] using free
  simp only [gsrOp, landRes, turn, if_neg this]

theorem gsrOp_waits (turn : s.core s.cur = c) (d : BitVec 5) (pending : c.flagsPending = true) :
    gsrOp d 8 s.cur s = .wait s .stall := by
  simp [gsrOp, turn, pending]

/-- TCAUSE in its bits (05 R137). -/
theorem Core.tcause_eq (c : Core) : c.tcause = (if c.handler then 0x80000000 else 0) ||| c.cause.zeroExtend 32 := by
  unfold Core.tcause
  generalize c.handler = b, c.cause = k
  cases b <;> decide +revert

/-- EXSLOT in its fields (13 R296). -/
theorem exslotWord_eq (c : Core) : exslotWord c =
    BitVec.ofNat 32 (c.step.toNat * 65536 + (if c.group.isSome then 32768 else 0) + (if c.xphase then 16384 else 0) +
      c.chan % 16 * 1024 + c.nextSlot % 1024) := by
  unfold exslotWord
  simp only [↓append_eq_iff, extractLsb'_extractLsb', Nat.reduceAdd, Nat.reduceLeDiff, ← BitVec.toNat_inj,
    BitVec.extractLsb'_toNat, BitVec.toNat_ofNat, BitVec.toNat_ofBool]
  cases c.group.isSome <;> cases c.xphase <;> simp only [reduceIte, Bool.false_eq_true, Bool.toNat_true, Bool.toNat_false] <;> omega

/-! #### Writes -/

theorem ssrOp_writes (turn : s.core s.cur = c) (a : BitVec 5) {n : Nat} (flags : n ≠ 8 ∨ c.flagsPending = false)
    (accesses : n ≠ 10 ∨ c.accessesDone = true) :
    ssrOp a n s.cur s = .done (s.setCore s.cur (sysWrite s.now c n (c.readG a))) .next := by
  have : ¬((n = 8 && c.flagsPending) || (n = 10 && !c.accessesDone)) = true := by
    simpa [imp_iff_not_or] using ⟨flags, accesses⟩
  simp only [ssrOp, turn, if_neg this]

/-- What SSR leaves of its core, where no earlier work holds it. -/
theorem ssr_writes (h : IssuesPlain s c) (a : BitVec 5) {n : BitVec 10} (flags : n ≠ 8 ∨ c.flagsPending = false)
    (accesses : n ≠ 10 ∨ c.accessesDone = true) {k : Core} (hk : sysWrite s.now c n.toNat (c.readG a) = k) :
    exec (.ssr a n) s = .next (s.completed k (.ssr a n) .next) :=
  hk ▸ issue_plain h nofun (ssrOp_writes h.turn a
    (flags.imp_left fun ne e => ne (BitVec.eq_of_toNat_eq e)) (accesses.imp_left fun ne e => ne (BitVec.eq_of_toNat_eq e)))

/-! #### Waiting and ordering -/

theorem fenceOp_orders (turn : s.core s.cur = c) (fenced : c.fenced = true) (late : s.late = []) :
    fenceOp s.cur s = .done (s.setCore s.cur c.acquired) .next := by
  simp [fenceOp, turn, fenced, late, State.modCore]

theorem fenceOp_waits (turn : s.core s.cur = c) (unfinished : c.fenced = false ∨ s.late ≠ []) :
    fenceOp s.cur s = .wait s .stall := by
  have : ¬(c.fenced && s.late.isEmpty) = true := by simpa [imp_iff_not_or] using unfinished
  rw [fenceOp, turn, if_neg this]

theorem wfeOp_takes (turn : s.core s.cur = c) (latch : c.latch = true) :
    wfeOp s.cur s = .done (s.setCore s.cur { c with latch := false }) .next := by
  simp [wfeOp, turn, latch]

theorem wfeOp_waits (turn : s.core s.cur = c) (latch : c.latch = false) : wfeOp s.cur s = .wait s .stall := by
  simp [wfeOp, turn, latch]

end

/-- Settles O22: each instruction completes or stalls by its condition, and the two tables are read entry by entry. -/
theorem systemRegisters : Obligations.SystemRegisters := by
  refine ⟨fun s c d n h => ⟨fun free => ?_, fun pending => ?_, ?_⟩, fun s c a n h => ?_, fun s c d sc h => ?_⟩
  · exact issue_plain h nofun (gsrOp_reads h.turn d (free.imp_left fun ne e => ne (BitVec.eq_of_toNat_eq e)))
  · exact issue_plain_stall h (gsrOp_waits h.turn d pending)
  · simp only [List.forall_mem_cons, List.not_mem_nil, false_implies, implies_true, and_true]
    refine ⟨rfl, rfl, c.tcause_eq, ?_⟩
    and_intros
    on_goal -1 => exact exslotWord_eq c
    all_goals rfl
  · refine ⟨fun pending => ssr_writes h a (.inr pending) (.inl (by decide)) rfl,
      fun accesses => ssr_writes h a (.inl (by decide)) (.inr accesses) rfl, ?_⟩
    have writes (n : BitVec 10) (hn : n ≠ 8 ∧ n ≠ 10) {k : Core} (hk : sysWrite s.now c n.toNat (c.readG a) = k) :
        exec (.ssr a n) s = .next (s.completed k (.ssr a n) .next) := ssr_writes h a (.inl hn.1) (.inl hn.2) hk
    refine ⟨writes 3 (by decide) rfl, writes 9 (by decide) rfl, fun share => writes 0xB (by decide) (if_neg share),
      fun none => writes 0xB (by decide) (if_pos none), writes 0x11 (by decide) rfl, writes 0x12 (by decide) rfl,
      writes 0x13 (by decide) rfl, writes 0x14 (by decide) rfl, writes 0x15 (by decide) rfl, writes 0x16 (by decide) rfl,
      writes 0x17 (by decide) rfl, writes 0x33 (by decide) rfl, ?_⟩
    simp only [List.forall_mem_cons, List.not_mem_nil, false_implies, implies_true, and_true]
    and_intros <;> exact writes _ (by decide) rfl
  · exact ⟨issue_plain_lands h d _, fun fenced late => issue_plain h nofun (fenceOp_orders h.turn fenced late),
      fun unfinished => issue_plain_stall h (fenceOp_waits h.turn unfinished),
      fun latch => issue_plain h nofun (wfeOp_takes h.turn latch),
      fun latch => issue_plain_stall h (wfeOp_waits h.turn latch), rfl⟩

end Sys2Proof.Machine

/-! ### Scalar registers: reading after a write and after landings (05 R105, R106) -/

namespace Sys2Proof.Machine

@[simp] theorem Core.readG_zero (c : Core) : c.readG 0 = 0 := rfl

theorem Core.readG_writeG (c : Core) (d r : BitVec 5) (w : Word) :
    (c.writeG d w).readG r = if d = r ∧ r ≠ 0 then w else c.readG r := by
  rcases eq_or_ne r 0 with rfl | hr
  · rw [if_neg fun e => e.2 rfl, Core.readG_zero, Core.readG_zero]
  rcases eq_or_ne d 0 with rfl | hd
  · rw [if_neg fun e => hr e.1.symm, Core.writeG, if_pos rfl]
  · rw [Core.writeG, if_neg hd, Core.readG, if_neg hr, Core.readG, if_neg hr]
    exact (Vector.getElem_set d.isLt r.isLt).trans (if_congr (by rw [BitVec.toNat_inj, and_iff_left hr]) rfl rfl)

theorem Core.readG_landG (c : Core) (now : Nat) (d r : BitVec 5) (w : Word) :
    (c.landG now d w).readG r = if d = r ∧ r ≠ 0 then w else c.readG r := c.readG_writeG d r w

@[simp] theorem Core.readG_queueG (c : Core) (d r : BitVec 5) (w : Word) (t : Nat) : (c.queueG d w t).readG r = c.readG r := rfl

theorem Core.landG_pend (c : Core) (now : Nat) (d : BitVec 5) (w : Word) :
    (c.landG now d w).pend = c.pend.filter fun p => p.reg != d || decide (now + 1 < p.landAt) := rfl

theorem Core.queueG_pend (c : Core) (d : BitVec 5) (w : Word) (t : Nat) :
    (c.queueG d w t).pend = c.pend ++ [{ reg := d, value := w, landAt := t, load := none }] := rfl

/-- What register `r`, which holds `w`, holds once the writes of a list have landed in order (05 R106). -/
def landed (r : BitVec 5) (l : List Pend) (w : Word) : Word := l.foldl (fun w p => if p.reg = r ∧ r ≠ 0 then p.value else w) w

theorem landed_concat (r : BitVec 5) (l : List Pend) (p : Pend) (w : Word) :
    landed r (l ++ [p]) w = if p.reg = r ∧ r ≠ 0 then p.value else landed r l w := by simp [landed]

/-- Writes to other registers leave a register as it was. -/
theorem landed_other {r : BitVec 5} {l : List Pend} (h : ∀ p ∈ l, p.reg ≠ r) (w : Word) : landed r l w = w := by
  induction l with
  | nil => rfl
  | cons p l ih =>
    obtain ⟨ne, rest⟩ := List.forall_mem_cons.1 h
    exact (congrArg (landed r l) (if_neg fun e => ne e.1)).trans (ih rest)

/-- The pending writes that are due in cycle `t`. -/
def Core.due (c : Core) (t : Nat) : List Pend := c.pend.filter fun p => decide (p.landAt ≤ t)

theorem Core.readG_landDue (c : Core) (t : Nat) (r : BitVec 5) : (c.landDue t).readG r = landed r (c.due t) (c.readG r) := by
  have fold (l : List Pend) (k : Core) : (l.foldl (fun k p => k.writeG p.reg p.value) k).readG r = landed r l (k.readG r) := by
    induction l generalizing k with
    | nil => rfl
    | cons p l ih => rw [List.foldl_cons, ih, Core.readG_writeG]; rfl
  exact fold (c.due t) c

theorem Core.due_queueG (c : Core) (d : BitVec 5) (w : Word) (t now : Nat) : (c.queueG d w t).due now =
    if t ≤ now then c.due now ++ [{ reg := d, value := w, landAt := t, load := none }] else c.due now := by
  rw [Core.due, Core.queueG_pend, List.filter_append]
  split_ifs with h <;> simp [Core.due, h]

/-- A result of latency 1 overwrites what would land in its register no later (05 R106). -/
theorem Core.due_landG (c : Core) (now : Nat) (d : BitVec 5) (w : Word) :
    ∀ p ∈ (c.landG now d w).due (now + 1), p.reg ≠ d := by
  intro p hp
  obtain ⟨stands, early⟩ := List.mem_filter.1 hp
  obtain ⟨-, kept⟩ := List.mem_filter.1 stands
  have : p.landAt ≤ now + 1 := of_decide_eq_true early
  have : p.reg ≠ d ∨ now + 1 < p.landAt := by simpa using kept
  exact this.elim id fun late => by omega

/-- A result of latency 1 leaves a write to its register that is queued for a later cycle. -/
theorem Core.due_landG_queueG (c : Core) {now t : Nat} (later : now + 1 < t) (d : BitVec 5) (v w : Word) :
    ∃ l, ((c.queueG d v t).landG now d w).due t = l ++ [{ reg := d, value := v, landAt := t, load := none }] := by
  refine ⟨(c.pend.filter fun p => p.reg != d || decide (now + 1 < p.landAt)).filter fun p => decide (p.landAt ≤ t), ?_⟩
  rw [Core.due, Core.landG_pend, Core.queueG_pend, List.filter_append, List.filter_append]
  simp [later]

/-- Settles O5: a register after a landing holds the last write to it that is due, else what it held before. -/
theorem resultsLandLate : Obligations.ResultsLandLate := by
  refine fun c d r v w t now => ⟨fun early => ?_, fun hd => ?_, fun hd => ?_, fun ne => ?_, fun hd => ?_, fun hd => ?_,
    fun hd later => ⟨?_, ?_⟩, ?_, rfl⟩
  · rw [Core.readG_landDue, Core.due_queueG, if_neg (Nat.not_le.2 early), Core.readG_queueG, Core.readG_landDue]
  · rw [Core.readG_landDue, Core.due_queueG, if_pos le_rfl, landed_concat, if_pos ⟨rfl, hd⟩]
  · rw [Core.readG_landDue, Core.due_queueG, if_pos le_rfl, landed_concat, if_pos ⟨rfl, hd⟩]
  · rw [Core.readG_landDue, Core.due_queueG, Core.readG_queueG, Core.readG_landDue]
    split_ifs
    · rw [landed_concat, if_neg fun e => ne e.1.symm]
    · rfl
  · rw [Core.readG_landG, if_pos ⟨rfl, hd⟩]
  · rw [Core.readG_landDue, landed_other (Core.due_landG _ _ _ _), Core.readG_landG, if_pos ⟨rfl, hd⟩]
  · rw [Core.readG_landDue, landed_other (Core.due_landG _ _ _ _), Core.readG_landG, if_pos ⟨rfl, hd⟩]
  · obtain ⟨l, last⟩ := c.due_landG_queueG later d v w
    rw [Core.readG_landDue, last, landed_concat, if_pos ⟨rfl, hd⟩]
  · rw [Core.readG_writeG, if_neg fun e => e.2 e.1.symm]

end Sys2Proof.Machine

/-! ### Scalar results (05 R104 to R113) -/

namespace Sys2Proof.Machine

section
variable {s : State} {c : Core} (turn : s.core s.cur = c) {d a b : BitVec 5} {signed : Bool} {v : Int}
include turn

/-- A scalar operation of latency 1 delivers its exact result (05 R104, R110). -/
theorem scalarOp_delivers {e : Core → Int} (value : e c = v) :
    scalarOp d signed e s.cur s = .done (s.setCore s.cur (c.result s.now d signed v)) .next := by
  rw [scalarOp, turn, value, Core.result]

variable {e : Word → Word → Int} (value : e (c.readG a) (c.readG b) = v)

include value in
/-- The exact result of a multiplication lands 3 cycles after its issue (05 R104, R113). -/
theorem mulOp_delivers : mulOp d a b signed e s.cur s = .done (s.setCore s.cur (c.laterResult (s.now + 3) d signed v)) .next := by
  rw [mulOp, turn, value, Core.laterResult]

include value in
/-- The exact result of a division that finds the divider free lands 18 cycles after its issue (05 R104, R107, R113). -/
theorem divOp_delivers (free : c.divFree ≤ s.now) : divOp d a b signed e s.cur s =
    .done (s.setCore s.cur { c.laterResult (s.now + 18) d signed v with divFree := s.now + 18 }) .next := by
  rw [divOp, turn, if_neg (Nat.not_lt.2 free), value, Core.laterResult]

/-- A division that finds the divider busy waits (05 R107). -/
theorem divOp_waits (busy : s.now < c.divFree) : divOp d a b signed e s.cur s = .wait s .stall := by
  rw [divOp, turn, if_pos busy]

end

/-- An arithmetic instruction that names no vector register and stalls is held in its core and tried again in the next cycle. -/
theorem issue_arith_stall {s : State} {c : Core} {i : Instr} {f : Nat → State → Res} (h : Issues s c) (arith : isArith i = true)
    (scalar : ∀ dd da db, vregsNamed (shiftRegs dd da db i) = []) (hf : f s.cur s = .wait s .stall) :
    issue i f s = .next (s.setCore s.cur { c with wait := .stall, held := some i, readyAt := s.now + 1 }) := by
  rw [issue_wait h (preTrap_arith c arith) (captureTrap_scalar c scalar) hf, State.hold, State.modCore, h.turn]

/-! #### Exact values -/

theorem boolInt_decide (p : Prop) [Decidable p] : boolInt (decide p) = if p then 1 else 0 := by simp [boolInt]

theorem boolInt_beq (x y : Word) : boolInt (x == y) = if x = y then 1 else 0 := by simp [boolInt]

theorem boolInt_bne (x y : Word) : boolInt (x != y) = if x = y then 0 else 1 := by
  by_cases h : x = y <;> simp [boolInt, h]

theorem shrInt_eq (x : Word) (n : Nat) : shrInt x n = if 32 ≤ n then 0 else (x.toNat : Int) / 2 ^ n := by simp [shrInt]

theorem divuInt_eq (x y : Word) : divuInt x y = if y = 0 then 2 ^ 32 - 1 else (x.toNat : Int) / y.toNat := by simp [divuInt]

/-! #### Counting and reversing bits (05 R111) -/

theorem clzNat_le (x : Word) : clzNat x ≤ 32 := by
  unfold clzNat
  split_ifs <;> omega

/-- The highest 1 bit of a word that is not 0. -/
theorem clzNat_of_ne_zero {x : Word} (h : x ≠ 0) : clzNat x = 31 - x.toNat.log2 ∧ x.toNat.log2 < 32 :=
  ⟨if_neg h, (Nat.log2_lt fun e => h (BitVec.eq_of_toNat_eq e)).2 x.isLt⟩

/-- CLZ counts zero bits: those from the top down. -/
theorem getLsbD_of_clzNat {x : Word} {i : Nat} (h : 32 - clzNat x ≤ i) : x.getLsbD i = false := by
  by_cases zero : x = 0
  · simp [zero]
  · obtain ⟨count, top⟩ := clzNat_of_ne_zero zero
    exact Nat.testBit_lt_two_pow (Nat.lt_of_lt_of_le Nat.lt_log2_self (Nat.pow_le_pow_right (by decide) (by omega)))

/-- The bit below those that CLZ counts is 1. -/
theorem getLsbD_clzNat {x : Word} (h : clzNat x < 32) : x.getLsbD (31 - clzNat x) = true := by
  have nonzero : x ≠ 0 := fun zero => by simp [clzNat, zero] at h
  obtain ⟨count, top⟩ := clzNat_of_ne_zero nonzero
  rw [count, show 31 - (31 - x.toNat.log2) = x.toNat.log2 by omega]
  exact Nat.testBit_log2 fun e => nonzero (BitVec.eq_of_toNat_eq e)

/-- The number of elements that pass a test as a sum of 0 and 1. -/
theorem length_filter_eq_sum {α : Type} (p : α → Bool) (l : List α) : (l.filter p).length = (l.map fun a => (p a).toNat).sum := by
  rw [← List.countP_eq_length_filter]
  induction l with
  | nil => rfl
  | cons a l ih => cases h : p a <;> simp [h, ih, Nat.add_comm]

theorem getLsbD_brevWord {x : Word} {i : Nat} (h : i < 32) : (brevWord x).getLsbD i = x.getLsbD (31 - i) := by
  rw [brevWord, BitVec.getLsbD_reverse, BitVec.getMsbD]
  simp [h]

/-- An empty register field before a minor is part of a longer minor. -/
theorem append_emptyField_minor {l : Nat} (x : BitVec l) {n : BitVec 11} {k : BitVec 16} (h : 0#5 ++ n = k) :
    x ++ k = (x ++ 0#5 ++ n).cast rfl := by
  subst h
  rw [BitVec.append_assoc]
  rfl

/-- The words of the ALU minors of two registers (05 R111). -/
theorem decodeWord_alu (d a b : BitVec 5) :
    ∀ p ∈ [(0, Instr.add d a b), (1, .sub d a b), (2, .and d a b), (3, .or d a b), (4, .xor d a b), (5, .andn d a b),
      (6, .shl d a b), (7, .shr d a b), (8, .sra d a b), (9, .slt d a b), (10, .sltu d a b), (11, .seq d a b), (12, .sne d a b),
      (13, .min d a b), (14, .max d a b), (15, .minu d a b), (16, .maxu d a b), (17, .sel d a b)],
      decodeWord (1#6 ++ d ++ a ++ b ++ BitVec.ofNat 11 p.1) = .ok p.2 := by
  simp only [List.forall_mem_cons, List.not_mem_nil, false_implies, implies_true, and_true]
  and_intros
  all_goals exact decodeWord_of_encode rfl rfl rfl

/-- Settles O1: each word is that of its instruction, each exact result by the rule of latency 1. -/
theorem aluResults : Obligations.AluResults := by
  refine ⟨⟨decodeWord_alu, fun d a => ?_, fun s c d a b h => ?_⟩,
    fun x => ⟨clzNat_le x, fun i _ => getLsbD_of_clzNat, getLsbD_clzNat, length_filter_eq_sum _ _, fun i => getLsbD_brevWord⟩⟩
  all_goals simp only [List.forall_mem_cons, List.not_mem_nil, false_implies, implies_true, and_true]
  · and_intros
    all_goals exact decodeWord_of_encode rfl rfl (append_emptyField_minor _ rfl)
  · and_intros
    all_goals refine issue_arith h rfl (fun _ _ _ => rfl) nofun (scalarOp_delivers h.turn ?_)
    all_goals simp only [shlInt, shrInt_eq, sraInt, boolInt_decide, boolInt_beq, boolInt_bne]

/-- Settles O2: each exact result by the rule of latency 1; LUI writes its immediate above 16 zero bits. -/
theorem immediateResults : Obligations.ImmediateResults := by
  refine fun s c d a i n => ⟨fun h => ?_, fun h => ?_⟩
  · simp only [List.forall_mem_cons, List.not_mem_nil, false_implies, implies_true, and_true]
    and_intros
    all_goals refine issue_arith h rfl (fun _ _ _ => rfl) nofun (scalarOp_delivers h.turn ?_)
    all_goals simp only [shlInt, shrInt_eq, sraInt, boolInt_decide]
  · have upper : i ++ 0#16 = BitVec.ofNat 32 (i.toNat * 2 ^ 16) :=
      BitVec.eq_of_toNat_eq (by
        have append := BitVec.toNat_append i 0#16
        simp only [BitVec.toNat_ofNat, Nat.zero_mod, Nat.or_zero, Nat.shiftLeft_eq] at append ⊢
        omega)
    exact upper ▸ issue_plain_lands h d _

/-- Settles O3: each exact result by the rules of the multiplier and the divider. -/
theorem multiplyDivideResults : Obligations.MultiplyDivideResults := by
  refine ⟨fun d a b => ?_, rfl, rfl, fun s c d a b h => ?_⟩
  all_goals simp only [List.forall_mem_cons, List.not_mem_nil, false_implies, implies_true, and_true]
  · and_intros
    all_goals exact decodeWord_of_encode rfl rfl rfl
  · refine ⟨⟨?_, ?_, ?_⟩, ⟨?_, ?_⟩, ⟨?_, ?_⟩, ⟨?_, ?_⟩, ?_, ?_⟩
    · exact issue_arith h rfl (fun _ _ _ => rfl) nofun (mulOp_delivers h.turn rfl)
    · exact issue_arith h rfl (fun _ _ _ => rfl) nofun (mulOp_delivers h.turn rfl)
    · exact issue_arith h rfl (fun _ _ _ => rfl) nofun (mulOp_delivers h.turn (by simp))
    · exact fun free => issue_arith h rfl (fun _ _ _ => rfl) nofun (divOp_delivers h.turn rfl free)
    · exact fun busy => issue_arith_stall h rfl (fun _ _ _ => rfl) (divOp_waits h.turn busy)
    · exact fun free => issue_arith h rfl (fun _ _ _ => rfl) nofun (divOp_delivers h.turn (divuInt_eq _ _) free)
    · exact fun busy => issue_arith_stall h rfl (fun _ _ _ => rfl) (divOp_waits h.turn busy)
    · exact fun free => issue_arith h rfl (fun _ _ _ => rfl) nofun (divOp_delivers h.turn rfl free)
    · exact fun busy => issue_arith_stall h rfl (fun _ _ _ => rfl) (divOp_waits h.turn busy)
    · exact fun free => issue_arith h rfl (fun _ _ _ => rfl) nofun (divOp_delivers h.turn (by rw [divuInt_eq]) free)
    · exact fun busy => issue_arith_stall h rfl (fun _ _ _ => rfl) (divOp_waits h.turn busy)

end Sys2Proof.Machine

/-! ### The frame of a scalar result (05 R104 to R106) -/

namespace Sys2Proof.Machine

/-- A core without what a scalar arithmetic instruction moves: scalar registers and what is still to land in them, the divider's
occupation, and where control stands. -/
def Core.besideScalar (c : Core) : Core :=
  { c with g := Core.reset.g, pend := [], divFree := 0, loops := [], pc := 0, wait := .none, held := none, readyAt := 0,
           alaneOn := false, md := none }

/-- Of its registers and all else beside its control, core `k` differs from core `c` in register `d` alone. -/
structure ScalarKeeps (d : BitVec 5) (c k : Core) : Prop where
  regs : ∀ r, r ≠ d → k.readG r = c.readG r
  rest : k.besideScalar = c.besideScalar

section
variable {d : BitVec 5} {c k : Core}

/-- Without a modifier a result raises no flag. -/
theorem Core.orFlags_deliverInt_none (plain : c.md = none) (signed : Bool) (e : Int) :
    c.orFlags (deliverInt c.md signed 32 e).2 = c := by
  rw [plain]
  show { c with fpflags := c.fpflags ||| 0#32 } = c
  rw [BitVec.or_zero]

theorem scalarKeeps_result (plain : c.md = none) (now : Nat) (signed : Bool) (e : Int) :
    ScalarKeeps d c (c.result now d signed e) := by
  rw [Core.result, Core.orFlags_deliverInt_none plain]
  refine ⟨fun r ne => by rw [Core.readG_landG, if_neg fun same => ne same.1.symm], ?_⟩
  unfold Core.landG Core.writeG
  split <;> rfl

theorem scalarKeeps_laterResult (plain : c.md = none) (t : Nat) (signed : Bool) (e : Int) :
    ScalarKeeps d c (c.laterResult t d signed e) := by
  rw [Core.laterResult, Core.orFlags_deliverInt_none plain]
  exact ⟨fun _ _ => rfl, rfl⟩

/-- Completion outside macros and frames moves control alone. -/
theorem ScalarKeeps.finish (h : ScalarKeeps d c k) (alone : c.single) (now : Nat) (i : Instr) :
    ScalarKeeps d c (k.finish now i .next) := by
  have ops : k.ops = c.ops := (congrArg Core.ops h.rest :)
  have frame : k.frame = c.frame := (congrArg Core.frame h.rest :)
  rw [finish_single alone ops frame]
  exact ⟨h.regs, h.rest⟩

end

/-- The state `t` is `s` but for such a change of the core that has the turn. -/
def LeavesScalar (d : BitVec 5) (c : Core) (s t : State) : Prop := ∃ k, t = s.setCore s.cur k ∧ ScalarKeeps d c k

section
variable {s t : State} {c : Core} (h : Issues s c) (alone : c.single) (plain : c.md = none) {i : Instr} {f : Nat → State → Res}
  (ran : issue i f s = .next t) (arith : isArith i = true) (scalar : ∀ dd da db, vregsNamed (shiftRegs dd da db i) = [])
include h alone plain ran arith scalar

theorem scalarOp_frame {d : BitVec 5} {signed : Bool} {e : Core → Int} (op : f s.cur s = scalarOp d signed e s.cur s) :
    LeavesScalar d c s t := by
  rw [issue_arith (ctl := .next) h arith scalar nofun (op.trans (scalarOp_delivers h.turn rfl))] at ran
  exact ⟨_, (Host.Outcome.next.inj ran).symm, (scalarKeeps_result plain ..).finish alone ..⟩

variable {d a b : BitVec 5} {signed : Bool} {e : Word → Word → Int}

theorem mulOp_frame (op : f s.cur s = mulOp d a b signed e s.cur s) : LeavesScalar d c s t := by
  rw [issue_arith (ctl := .next) h arith scalar nofun (op.trans (mulOp_delivers h.turn rfl))] at ran
  exact ⟨_, (Host.Outcome.next.inj ran).symm, (scalarKeeps_laterResult plain ..).finish alone ..⟩

/-- A division leaves the same whether it completes or stalls. -/
theorem divOp_frame (op : f s.cur s = divOp d a b signed e s.cur s) : LeavesScalar d c s t := by
  rcases Nat.lt_or_ge s.now c.divFree with busy | free
  · rw [issue_arith_stall h arith scalar (op.trans (divOp_waits h.turn busy))] at ran
    exact ⟨_, (Host.Outcome.next.inj ran).symm, fun _ _ => rfl, rfl⟩
  · rw [issue_arith (ctl := .next) h arith scalar nofun (op.trans (divOp_delivers h.turn rfl free))] at ran
    have later := scalarKeeps_laterResult (d := d) plain (s.now + 18) signed (e (c.readG a) (c.readG b))
    refine ⟨_, (Host.Outcome.next.inj ran).symm, ScalarKeeps.finish ?_ alone s.now i⟩
    exact ⟨later.regs, later.rest⟩

end

/-- What is left of a state whose core that has the turn moved a scalar register and its control. -/
theorem LeavesScalar.frame {d : BitVec 5} {c : Core} {s t : State} (h : LeavesScalar d c s t) :
    let k := t.core s.cur
    (∀ r, r ≠ d → k.readG r = c.readG r) ∧ k.a = c.a ∧ k.v = c.v ∧ k.m = c.m ∧ k.z = c.z ∧
    (∀ x, readByte k.mem x = readByte c.mem x) ∧ k.fpflags = c.fpflags ∧ k.rmode = c.rmode ∧ k.handler = c.handler ∧
    k.tpc = c.tpc ∧ k.tinfo = c.tinfo ∧ k.cause = c.cause ∧ k.vq = c.vq ∧ k.gangstat = c.gangstat ∧
    (∀ m, m ≠ s.cur → t.core m = s.core m) ∧ (∀ x, readByte t.hbm x = readByte s.hbm x) ∧
    (∀ x, readByte t.hostMem x = readByte s.hostMem x) ∧ t.contexts = s.contexts ∧ t.clusters = s.clusters ∧
    t.lanes = s.lanes ∧ t.queues = s.queues ∧ t.funcs = s.funcs := by
  obtain ⟨k, rfl, regs, rest⟩ := h
  have field {α : Type} (f : Core → α) : f k.besideScalar = f c.besideScalar := congrArg f rest
  rw [State.core_setCore_same]
  exact ⟨regs, field Core.a, field Core.v, field Core.m, field Core.z, fun x => field fun q => readByte q.mem x, field Core.fpflags,
    field Core.rmode, field Core.handler, field Core.tpc, field Core.tinfo, field Core.cause, field Core.vq, field Core.gangstat,
    fun m other => State.core_setCore_other _ _ _ _ other, fun _ => rfl, fun _ => rfl, rfl, rfl, rfl, rfl, rfl⟩

/-- Settles O6: each instruction is an operation of latency 1, a multiplication or a division, and each of these moves its
register and the control of its core alone. -/
theorem scalarFrame : Obligations.ScalarFrame := by
  intro s t c d a b i n h alone plain
  simp only [List.forall_mem_cons, List.not_mem_nil, false_implies, implies_true, and_true]
  and_intros
  all_goals
    intro ran
    refine LeavesScalar.frame ?_
  any_goals exact scalarOp_frame h alone plain ran rfl (fun _ _ _ => rfl) rfl
  any_goals exact mulOp_frame h alone plain ran rfl (fun _ _ _ => rfl) rfl
  all_goals exact divOp_frame h alone plain ran rfl (fun _ _ _ => rfl) rfl

end Sys2Proof.Machine

/-! ### Branches, jumps and loops (05 R109, R114, R115, R119 to R121) -/

namespace Sys2Proof.Machine

section
variable {c k : Core} (alone : c.single) (ops : k.ops = c.ops) (frame : k.frame = c.frame) (now : Nat) (i : Instr)
include alone ops frame

/-! #### Where control goes after an instruction outside macros and frames -/

theorem finish_next : k.finish now i .next = (k.fall k.pc).settled (now + 1) := finish_single alone ops frame now i .next

theorem finish_jump (t : Word) (cost : Nat) : k.finish now i (.jump t cost) = (k.transfer t).settled (now + 1 + cost) :=
  finish_single alone ops frame now i (.jump t cost)

theorem finish_skip (last : Word) : k.finish now i (.skip last) = (k.fall last).settled (now + 1) :=
  finish_single alone ops frame now i (.skip last)

theorem finish_branch (taken : Bool) (t : Word) (cost : Nat) : k.finish now i (.branch taken t cost) =
    (if taken then k.transfer t else k.fall k.pc).settled (now + 1 + cost) := by
  rw [finish_single alone ops frame]
  cases taken <;> rfl

end

/-- An instruction whose effect lies in its own core, not captured and without a modifier, with the core it ends in. -/
theorem issue_finishes {s : State} {c k q : Core} {i : Instr} {f : Nat → State → Res} {ctl : Ctl} (h : IssuesPlain s c)
    (hne : ctl ≠ .leave) (hf : f s.cur s = .done (s.setCore s.cur k) ctl) (finish : k.finish s.now i ctl = q) :
    issue i f s = .next (s.setCore s.cur q) := by
  rw [issue_plain h hne hf, State.completed, finish]

/-! #### Branches (05 R109, R114) -/

theorem predicted_iff (h : BitVec 2) (o : BitVec 19) : predicted h o = true ↔ h = 1 ∨ h = 0 ∧ o.toInt ≤ 0 := by
  simp [predicted]

/-- A branch outside macros and frames goes where its test says, at the cost of its prediction. -/
theorem issue_branchOp {s : State} {c : Core} {i : Instr} (issues : IssuesPlain s c) (alone : c.single) {h : BitVec 2}
    {a : BitVec 5} {o : BitVec 19} {test : Word → Bool} {taken : Bool} (value : test (c.readG a) = taken) {f : Nat → State → Res}
    (op : f s.cur s = branchOp h a o test s.cur s) : issue i f s = .next (s.setCore s.cur
      ((if taken then c.transfer (c.pc + 4 * o.signExtend 32) else c.fall c.pc).settled
        (s.now + 1 + if (taken = true ↔ h = 1 ∨ h = 0 ∧ o.toInt ≤ 0) then 0 else 2))) := by
  have done := op.trans (show branchOp h a o test s.cur s = _ by rw [branchOp, issues.turn, value])
  rw [issue_same (ctl := .branch ..) issues nofun done, State.completed, finish_branch alone rfl rfl, BitVec.mul_comm]
  simp only [← predicted_iff, ← Bool.eq_iff_iff]

/-- The fields of a B-form word (04 R87). -/
theorem fields_of_bForm {m : BitVec 6} {h : BitVec 2} {a : BitVec 5} {o : BitVec 19} {w : Word} (row : m ++ h ++ a ++ o = w) :
    fmajor w = m ∧ w.extractLsb' 24 2 = h := by
  simp only [append_eq_iff, extractLsb'_extractLsb', Nat.reduceAdd, Nat.reduceLeDiff] at row
  exact ⟨row.1.1.1.symm, row.1.1.2.symm⟩

theorem decodeWord_badHint {w : Word} {m : BitVec 6} (fields : fmajor w = m ∧ w.extractLsb' 24 2 = 3#2)
    (branch : m ∈ [0x0B#6, 0x0C#6, 0x0D#6, 0x0E#6, 0x0F#6, 0x10#6]) : decodeWord w = .error .badHint := by
  obtain ⟨rfl, hint⟩ := fields
  simp only [List.mem_cons, List.not_mem_nil, or_false] at branch
  rcases branch with major | major | major | major | major | major
  all_goals simp only [decodeWord_of_plain_major, major, hint, BEq.rfl, reduceIte]

/-- The words of the branches: hint 3 is illegal (05 R109, R114). -/
theorem decodeWord_branch (h : BitVec 2) (a : BitVec 5) (o : BitVec 19) :
    ∀ p ∈ [(0x0B#6, Instr.beqz h a o), (0x0C#6, .bnez h a o), (0x0D#6, .bltz h a o), (0x0E#6, .bgez h a o),
      (0x0F#6, .bgtz h a o), (0x10#6, .blez h a o)],
      decodeWord (p.1 ++ h ++ a ++ o) = if h = 3 then .error .badHint else .ok p.2 := by
  simp only [List.forall_mem_cons, List.not_mem_nil, false_implies, implies_true, and_true]
  split_ifs with bad
  · subst bad
    and_intros
    all_goals exact decodeWord_badHint (fields_of_bForm rfl) (by decide)
  · have wf : (h != 3#2) = true := bne_iff_ne.2 bad
    and_intros
    all_goals exact decodeWord_of_encode wf rfl rfl

/-- Settles O7: each word by its row, each branch by its test. -/
theorem branchesDecide : Obligations.BranchesDecide := by
  refine ⟨decodeWord_branch, fun s c h a o issues alone => ?_⟩
  simp only [List.forall_mem_cons, List.not_mem_nil, false_implies, implies_true, and_true]
  have zero : (c.readG a).toInt = 0 ↔ c.readG a = 0 := (BitVec.toInt_inj (y := 0))
  and_intros
  all_goals refine issue_branchOp issues alone ?_ rfl
  · simp only [zero, beq_eq_decide]
  · simp only [zero, bne, beq_eq_decide, ne_eq, decide_not]
  all_goals rfl

/-! #### Jumps (05 R115) -/

theorem leads_of_issues {s : State} {c : Core} (issues : Issues s c) : c.leads = true := by simp [Core.leads, issues.alone]

/-- A trap whose TINFO0 is a word. -/
theorem mkTrap_toNat (cause : BitVec 8) (w : Word) (t1 t2 t3 : Nat) : mkTrap cause w.toNat t1 t2 t3 =
    { cause := cause, t0 := w, t1 := BitVec.ofNat 32 t1, t2 := BitVec.ofNat 32 t2, t3 := BitVec.ofNat 32 t3 } := by
  rw [mkTrap, BitVec.ofNat_toNat, BitVec.setWidth_eq]

/-- Settles O8: each word by its row; the link is written in the core that then transfers. -/
theorem jumpsAndLinks : Obligations.JumpsAndLinks := by
  refine ⟨fun d a o i => ⟨decodeWord_of_encode rfl rfl rfl, decodeWord_of_encode rfl rfl rfl⟩, fun s c d a o i issues alone => ?_⟩
  have leads : c.leads = true := leads_of_issues issues.toIssues
  have links (t : Word) (cost : Nat) (j : Instr) : (c.landG s.now d (c.pc + 4)).finish s.now j (.jump t cost) =
      ((c.landG s.now d (c.pc + 4)).transfer t).settled (s.now + 1 + cost) :=
    finish_jump alone (c.landG_ops ..) (c.landG_frame ..) s.now j t cost
  have jalr : jalrOp d a i s.cur s =
      if (c.readG a + i.signExtend 32).toNat % 4 ≠ 0 then .trap s (mkTrap trMISALIGNED (c.readG a + i.signExtend 32).toNat 4 0 0)
      else .done (s.setCore s.cur (c.landG s.now d (c.pc + 4))) (.jump (c.readG a + i.signExtend 32) 2) := by
    simp only [jalrOp, issues.turn, leads, Bool.true_and, bne_iff_ne]
  refine ⟨?_, fun aligned => ?_, fun misaligned => ?_⟩
  · refine issue_finishes (ctl := .jump _ _) issues nofun ?_ (links _ 0 _)
    rw [jalOp, issues.turn, BitVec.mul_comm]
  · refine issue_finishes (ctl := .jump _ _) issues nofun ?_ (links _ 2 _)
    rw [jalr, if_neg (not_not_intro aligned)]
  · exact issue_plain_trap issues (by rw [jalr, if_pos misaligned, mkTrap_toNat]; rfl)

end Sys2Proof.Machine

/-! ### Hardware loops (05 R119 to R121) -/

namespace Sys2Proof.Machine

/-- A body of `len` words after the core's loop word finds two loops active, or ends beyond the active one (05 R119). -/
def Core.bodyBeyond (c : Core) (len : Nat) : Prop :=
  2 ≤ c.loops.length ∨ ∃ k ks, c.loops = k :: ks ∧ k.last.toNat < c.pc.toNat + 4 * len

section
variable {s : State} {c : Core} (issues : Issues s c) (count : Core → Nat) {len : Nat}
include issues

theorem loopOp_beyond (beyond : c.bodyBeyond len) : loopOp count len s.cur s = .trap s (overrun 5 c.pc.toNat 2) := by
  simp only [loopOp, issues.turn, leads_of_issues issues, Bool.not_true, Bool.false_eq_true, if_false]
  rcases h : c.loops with _ | ⟨k, ks⟩
  · simp [Core.bodyBeyond, h] at beyond
  · exact if_pos (by simpa [Core.bodyBeyond, h] using beyond)

theorem loopOp_fits (fits : ¬c.bodyBeyond len) :
    loopOp count len s.cur s = if count c = 0 then .done s (.skip (c.pc + BitVec.ofNat 32 (4 * len)))
      else .done (s.setCore s.cur { c with
        loops := { first := c.pc + 4, last := c.pc + BitVec.ofNat 32 (4 * len), remaining := count c } :: c.loops }) .next := by
  simp only [loopOp, issues.turn, leads_of_issues issues, Bool.not_true, Bool.false_eq_true, if_false]
  rcases h : c.loops with _ | ⟨k, ks⟩
  · exact if_neg (by simp)
  · exact if_neg (by simpa [Core.bodyBeyond, h] using fits)

end

/-- A loop word outside macros and frames traps, skips its body or pushes it (05 R119, R120). -/
theorem issue_loopOp {s : State} {c : Core} {i : Instr} {f : Nat → State → Res} (issues : IssuesPlain s c) (alone : c.single)
    {count : Core → Nat} {len : Nat} (op : f s.cur s = loopOp count len s.cur s) :
    let last := c.pc + BitVec.ofNat 32 (4 * len)
    (c.bodyBeyond len →
      issue i f s = .next (s.takeTrap s.cur { cause := 0x02, t0 := 5, t1 := c.pc, t2 := 2, t3 := 0 } c.pc)) ∧
    (¬c.bodyBeyond len → count c = 0 → issue i f s = .next (s.setCore s.cur ((c.fall last).settled (s.now + 1)))) ∧
    (¬c.bodyBeyond len → count c ≠ 0 → issue i f s = .next (s.setCore s.cur
      ((({ c with loops := { first := c.pc + 4, last := last, remaining := count c } :: c.loops } : Core).fall c.pc).settled
        (s.now + 1)))) := by
  refine ⟨fun beyond => ?_, fun fits zero => ?_, fun fits some => ?_⟩
  · rw [issue_plain_trap issues (op.trans (loopOp_beyond issues.toIssues count beyond)), overrun, mkTrap, BitVec.ofNat_toNat]
    rfl
  · have skips := loopOp_fits issues.toIssues count fits
    rw [if_pos zero] at skips
    rw [issue_same (ctl := .skip _) issues nofun (op.trans skips), State.completed, finish_skip alone rfl rfl]
  · have pushes := loopOp_fits issues.toIssues count fits
    rw [if_neg some] at pushes
    exact issue_finishes (ctl := .next) issues nofun (op.trans pushes) (finish_next alone (by rfl) (by rfl) _ _)

/-! #### The loop stack (05 R120, R121) -/

section
variable {c : Core} {p : Word} {l : LoopRec} {ls : List LoopRec}

theorem fall_of_backEdge {next : List LoopRec × Option Word} (h : backEdge p c.loops = next) :
    c.fall p = { c with loops := next.1, pc := next.2.getD (p + 4) } := by
  rw [Core.fall, h]

theorem fall_outside (h : backEdge p c.loops = (c.loops, none)) : c.fall p = { c with pc := p + 4 } :=
  fall_of_backEdge h

end

/-- Settles O9: a loop word by the two checks of its body, the loop stack by the equations of its tests. -/
theorem loopsIterate : Obligations.LoopsIterate := by
  refine ⟨fun s c r l n l' issues alone => ?_, fun c p t l ls => ⟨fun none => ?_, fun top other => ?_, fun top ends more => ?_,
    fun top ends last => ?_, rfl, fun top out => ?_, fun top low high => ?_, fun none => ?_⟩⟩
  · simp only [List.forall_mem_cons, List.not_mem_nil, false_implies, implies_true, and_true]
    exact ⟨issue_loopOp issues alone rfl, issue_loopOp issues alone rfl⟩
  · exact fall_outside (by rw [none, backEdge])
  · exact fall_outside (by rw [top, backEdge, if_neg other])
  · exact fall_of_backEdge (by rw [top, backEdge, if_pos ends, if_pos more])
  · have pops : backEdge p c.loops = backEdge p ls := by rw [top, backEdge, if_pos ends, if_neg (Nat.not_lt.2 last)]
    exact fall_of_backEdge pops
  · simp only [Core.transfer, top, List.dropWhile_cons]
    exact if_pos (by simpa using out)
  · simp only [Core.transfer, top, List.dropWhile_cons]
    exact if_neg (by simp; omega)
  · simp only [Core.transfer, none, List.dropWhile_nil]

end Sys2Proof.Machine

/-! ### Events of a local memory (05 R105; 08 R196, R206, R214 to R216) -/

namespace Sys2Proof.Machine

theorem State.modCore_eq {s : State} {id : Nat} {c : Core} (core : s.core id = c) (f : Core → Core) :
    s.modCore id f = s.setCore id (f c) := by
  rw [State.modCore, core]

/-- A record on its way to a cluster's cache arrives there, and no core changes. -/
theorem treeRecordFill_caches {s : State} {k x h : Nat} (filling : (x, h) ∈ (s.cluster k).fills) :
    exec (.treeRecordFill k x h) s = .next (s.setCluster k { s.cluster k with
      fills := (s.cluster k).fills.filter (· != (x, h)), cached := (s.cluster k).cached ++ [(x, h)] }) := by
  show execTreeRecordFill k x h s = _
  rw [execTreeRecordFill, if_pos (List.contains_iff_mem.2 filling)]

/-- Settles O29: each event by what it does to the record of its core or cluster. -/
theorem localMemoryEvents : Obligations.LocalMemoryEvents := by
  intro s id k x h t c core
  refine ⟨fun filling => ⟨_, treeRecordFill_caches filling, ?_, ?_, rfl⟩, fun due early => ?_, ?_, fun may => ?_, fun not => ?_,
    fun entering early => ?_, fun retained => ?_, fun exiting early => ?_⟩
  · simp
  · simp
  · show execBankhashRehashComplete id s = _
    simp only [execBankhashRehashComplete, State.modCore_eq core, due, if_pos early]
  · show execResultLands id s = _
    rw [execResultLands, State.modCore_eq core]
  · show execRetentionEntry id s = _
    rw [execRetentionEntry, if_pos may, State.modCore_eq core]
  · show execRetentionEntry id s = _
    rw [execRetentionEntry, not, if_neg Bool.false_ne_true]
  · show execRetentionEntryComplete id s = _
    simp only [execRetentionEntryComplete, State.modCore_eq core, entering, if_pos early]
  · show execRetentionExit id s = _
    simp only [execRetentionExit, State.modCore_eq core, Core.rouse, retained]
  · show execRetentionExitComplete id s = _
    simp only [execRetentionExitComplete, State.modCore_eq core, exiting, if_pos early]

end Sys2Proof.Machine

/-! ### Taking a trap (05 R130, R132; 17 R376; 19 R418, R419) -/

namespace Sys2Proof.Machine

/-- A trap that finds no handler to enter: inside the handler, at a debug stop, or in a kernel without one (05 R130, R132). -/
def stopsAt (s : State) (c : Core) (t : Trap) : Prop :=
  c.handler = true ∨ (t.cause = trBREAK ∧ debugOn s c = true) ∨ handlerOf s c = none

section
variable {s : State} {id : Nat} {c : Core} (core : s.core id = c) {t : Trap} {tpc : Word}
include core

theorem takeTrap_enters (outside : c.handler = false) (goesOn : ¬(t.cause = trBREAK ∧ debugOn s c = true)) {h : Nat}
    (entry : handlerOf s c = some h) :
    s.takeTrap id t tpc = s.setCore id ((c.trapped.record t tpc).enterHandler h (c.lastLand s.now + 6)) := by
  have enters : ¬(c.handler || (t.cause == trBREAK && debugOn s c)) = true := by simpa [outside] using goesOn
  simp only [State.takeTrap, core, if_neg enters, entry]

theorem takeTrap_stops (stops : stopsAt s c t) :
    s.takeTrap id t tpc = if c.mayEnd then s.endTrap id t tpc else s.setCore id (c.ending t tpc) := by
  have none : (if c.handler || (t.cause == trBREAK && debugOn s c) then none else handlerOf s c) = none := by
    rcases stops with inside | ⟨brk, debug⟩ | without
    · simp [inside]
    · simp [brk, debug]
    · simp [without]
  simp only [State.takeTrap, core, none]

/-- The core with the record of the trap that stops it; a double trap leaves the first one standing, which CODE_INTEGRITY does not
(10 R259; 17 R376). -/
def Core.ended (c : Core) (t : Trap) (tpc : Word) : Core :=
  if c.handler = true ∧ t.cause ≠ trCODE then { c.trapped with fatal := none }
  else ({ c.trapped with fatal := none } : Core).record t tpc

omit core in
theorem Core.ended_ctx (c : Core) (t : Trap) (tpc : Word) : (c.ended t tpc).ctx = c.ctx := by
  unfold Core.ended
  split <;> rfl

omit core in
theorem Core.ended_outside (outside : c.handler = false) (t : Trap) (tpc : Word) :
    c.ended t tpc = ({ c.trapped with fatal := none } : Core).record t tpc :=
  if_neg fun double => by simp [outside] at double

/-- A debug stop outside the handler records the trap and tells the host (05 R132; 19 R419). -/
theorem endTrap_debug (outside : c.handler = false) (brk : t.cause = trBREAK) (debug : debugOn s c = true) :
    (s.endTrap id t tpc).core id = { c.ended t tpc with status := .debugStopped } := by
  subst core
  have single : ¬((s.core id).handler && t.cause != trCODE) = true := by simp [outside]
  have stop : (t.cause == trBREAK && debugOn s (s.core id)) = true := by simp [brk, debug]
  have notes : s.endTrap id t tpc = _ := (if_neg single).trans (if_pos stop)
  rw [notes, Core.ended_outside outside]
  exact s.core_setCore_same id _

/-- Any other trap that stops a core is a fault stop (17 R376). -/
theorem endTrap_stops (noDebug : c.handler = true ∨ ¬(t.cause = trBREAK ∧ debugOn s c = true)) :
    s.endTrap id t tpc = (s.setCore id { c.ended t tpc with status := .stopped }).faultStop id := by
  subst core
  by_cases double : (s.core id).handler = true ∧ t.cause ≠ trCODE
  · have leaves : ((s.core id).handler && t.cause != trCODE) = true := by simpa using double
    rw [Core.ended, if_pos double]
    exact if_pos leaves
  · have single : ¬((s.core id).handler && t.cause != trCODE) = true := by simpa using double
    have records : ¬(t.cause == trBREAK && debugOn s (s.core id)) = true := by
      intro stop
      obtain ⟨brk, debug⟩ : t.cause = trBREAK ∧ debugOn s (s.core id) = true := by simpa using stop
      exact noDebug.elim (fun inside => double ⟨inside, brk ▸ by decide⟩) fun no => no ⟨brk, debug⟩
    rw [Core.ended, if_neg double]
    exact (if_neg single).trans (if_neg records)

end

/-! #### Reports leave every core as it was (18 R401) -/

theorem State.requestAt_cores (s : State) (x page : Nat) (st : PageState) (t : Nat) : (s.requestAt x page st t).cores = s.cores := by
  have admitted (die n : Nat) : (admitWaiting die n s).cores = s.cores := (admitWaiting_admits die n s).cores
  unfold State.requestAt
  dsimp only
  split
  · split
    · exact admitted _ _
    · split
      · exact admitted _ _
      · split
        · simp only [State.editLeaf_cores, admitted]
        · exact admitted _ _
  · rfl

/-- Steps that each leave the cores as they were do so together. -/
theorem foldl_cores {α : Type} {g : State → α → State} (h : ∀ q a, (g q a).cores = q.cores) (l : List α) (s : State) :
    (l.foldl g s).cores = s.cores :=
  List.foldlRecOn (motive := fun q : State => q.cores = s.cores) l g rfl fun q hq a _ => (h q a).trans hq

theorem State.writeCells_cores (s : State) (cs : List Host.Cell) : (s.writeCells cs).cores = s.cores :=
  foldl_cores (g := fun q (c : Host.Cell) => q.writePhys c.1 [c.2]) (fun _ _ => rfl) cs s

theorem State.clearMarks_cores (s : State) (pa n : Nat) : (s.clearMarks pa n).cores = s.cores := rfl

theorem State.clearCopies_cores (s : State) (pa e n : Nat) : (s.clearCopies pa e n).cores = s.cores :=
  foldl_cores (g := fun q a => q.clearMarks (parcels a n).1 (parcels a n).2) (fun q _ => q.clearMarks_cores _ _) _ s

theorem State.walkErrors_cores (s : State) (x : Nat) (vas : List Nat) : (s.walkErrors x vas).cores = s.cores := by
  unfold State.walkErrors State.tableError
  split
  · split <;> rfl
  · rfl

theorem State.landAtDie_cores (s : State) (d pa n : Nat) : (s.landAtDie d pa n).cores = s.cores :=
  foldl_cores (fun q (l : Late) => q.writeCells_cores l.cells) _ s

theorem State.writeAt_cores (s : State) (e : Nat) (d : Option Nat) (cs : List Host.Cell) : (s.writeAt e d cs).cores = s.cores := by
  unfold State.writeAt
  dsimp only
  have own : (cs.foldl (fun q c => q.landAtDie (d.getD 0) c.1 1) s).cores = s.cores :=
    foldl_cores (fun q (c : Host.Cell) => q.landAtDie_cores _ _ _) cs s
  split
  · split
    · exact foldl_cores (fun q _ => q.writeCells_cores _) _ s
    · dsimp only
      split
      · exact (State.writeCells_cores ..).trans own
      · exact (State.writeCells_cores ..).trans ((State.writeCells_cores ..).trans own)
  · exact s.writeCells_cores cs

theorem writePart_cores {s t : State} {x tag va : Nat} {bs : List Byte} (h : writePart s x tag va bs = some t) :
    t.cores = s.cores := by
  unfold writePart at h
  split at h
  · exact Option.some.inj h ▸ rfl
  · split at h
    · split at h
      · exact Option.some.inj h ▸ State.writeAt_cores ..
      · cases h
    · cases h

theorem writeVirt_cores {s t : State} {x tag va : Nat} {bs : List Byte} (h : writeVirt s x tag va bs = some t) :
    t.cores = s.cores := by
  obtain ⟨q, first, second⟩ := Option.bind_eq_some_iff.1 h
  exact (writePart_cores second).trans (writePart_cores first)

theorem State.slotFails_cores (s : State) (x tag a : Nat) : (s.slotFails x tag a).cores = s.cores := by
  unfold State.slotFails
  dsimp only
  split
  · rw [State.clearCopies_cores, State.walkErrors_cores]
  · rw [State.clearMarks_cores, State.walkErrors_cores]
  · rw [State.walkErrors_cores]

theorem State.writeReport_cores (s : State) (f q n : Nat) (bs : List Byte) : (s.writeReport f q n bs).cores = s.cores := by
  have failed (r : HQueue) : (if r.st = .disabled then s else s.setQueue f q { r with st := .error, err := 3 }).cores = s.cores := by
    split <;> rfl
  unfold State.writeReport
  dsimp only
  split
  · split
    · rfl
    · exact failed _
  · cases written : writeVirt s (s.queue f q).ctx (s.ctx (s.queue f q).ctx).tag
        ((s.queue f q).repBase + 16 * (n % 2 ^ (s.queue f q).log2n)) bs with
    | none => rw [Option.getD_none, State.slotFails_cores, failed]
    | some t => rw [Option.getD_some, writeVirt_cores written]

theorem flushReports_cores (f q n : Nat) (s : State) : (flushReports f q n s).cores = s.cores := by
  induction n generalizing s with
  | zero => rfl
  | succ n ih =>
    unfold flushReports
    dsimp only
    split
    · rfl
    · split
      · rfl
      · split
        · rw [State.requestPage, State.requestAt_cores]
        · rw [ih, State.writeReport_cores]
          rfl

theorem State.report_cores (s : State) (origin : Option (Nat × Nat × Nat)) (status reason lslot : Nat) :
    (s.report origin status reason lslot).cores = s.cores := by
  unfold State.report
  dsimp only
  split
  · rfl
  · rw [flushReports_cores]
    rfl

/-! #### Fault stops (17 R376; 19 R418) -/

/-- The launch of a core that stops is FAULTED, its report on its way. -/
def State.faultLaunch (s : State) (id x : Nat) : State :=
  match s.launch x (s.core id).lslot with
  | none => s
  | some l => (s.setLaunch x (s.core id).lslot { l with st := .faulted }).report l.origin 4 0 (s.core id).lslot

theorem State.faultLaunch_cores (s : State) (id x : Nat) : (s.faultLaunch id x).cores = s.cores := by
  unfold State.faultLaunch
  split
  · rfl
  · rw [State.report_cores]
    rfl

/-- A core as the fault stop of context `x` leaves it: one of that context is asked to halt (19 R418). -/
def Core.faultHalted (c : Core) (x : Nat) : Core := if c.ctx = some x then { c with haltReq := .fault, latch := true } else c

theorem State.haltAll_core (s : State) (x m : Nat) : (s.haltAll x).core m = (s.core m).faultHalted x := by
  have each : (fun p : Nat × Core => if p.2.ctx == some x then (p.1, { p.2 with haltReq := .fault, latch := true }) else p) =
      fun p => (p.1, p.2.faultHalted x) := by
    funext p
    unfold Core.faultHalted
    by_cases mine : p.2.ctx = some x <;> simp [mine]
  rw [State.haltAll, each]
  exact look_map Core.reset m (Core.faultHalted · x) rfl s.cores

section
variable {s : State} {id x : Nat} (mine : (s.core id).ctx = some x) (first : (s.ctx x).faultRec = none)
include mine first

theorem faultStop_eq : s.faultStop id =
    (((s.faultLaunch id x).setCtx x { (s.faultLaunch id x).ctx x with
        st := .faulted, faultRec := some (id, s.now), pending := false, haltKind := .none }).haltAll x).notify
      (s.ctx x).func 1 x (BitVec.ofNat 32 (s.core id).lcore) (s.core id).tcause (s.core id).tpc (s.core id).tinfo[0]
      (s.core id).tinfo[1] (s.core id).tinfo[2] := by
  simp only [State.faultStop, mine, first, Option.isSome_none, Bool.false_eq_true, if_false]
  rfl

theorem faultStop_ctx : (s.faultStop id).ctx x = { (s.faultLaunch id x).ctx x with
    st := .faulted, faultRec := some (id, s.now), pending := false, haltKind := .none } := by
  rw [faultStop_eq mine first]
  exact State.ctx_setCtx_same _ x _

theorem faultStop_core (m : Nat) : (s.faultStop id).core m = (s.core m).faultHalted x := by
  rw [faultStop_eq mine first]
  refine (State.haltAll_core _ x m).trans ?_
  have cores : (s.faultLaunch id x).core m = s.core m := congrArg (look Core.reset m) (s.faultLaunch_cores id x)
  rw [← cores]
  rfl

end

/-! #### The return from a trap (05 R131) -/

theorem Core.landAll_idle {c : Core} (h : c.pend = []) : c.landAll.g = c.g := by
  simp [Core.landAll, h]

/-- The return with every pending write landed leaves all else of the core as it was. -/
theorem returnFromTrap_fields (c : Core) (now : Nat) :
    let n := c.returnFromTrap now
    n.pc = c.tpc ∧ n.handler = false ∧
    n.loops = c.aside.dropWhile (fun l => decide (c.tpc.toNat < l.first.toNat) || decide (l.last.toNat < c.tpc.toNat)) ∧
    n.aside = [] ∧ n.pend = [] ∧ n.readyAt = c.lastLand now + 3 ∧ (c.pend = [] → n.g = c.g) ∧ n.a = c.a ∧ n.v = c.v ∧
    n.m = c.m ∧ n.z = c.z ∧ n.mem = c.mem ∧ n.tpc = c.tpc ∧ n.tinfo = c.tinfo ∧ n.cause = c.cause ∧ n.fpflags = c.fpflags ∧
    n.rmode = c.rmode :=
  ⟨rfl, rfl, rfl, rfl, rfl, rfl, Core.landAll_idle, c.landAll_a, c.landAll_v, c.landAll_m, c.landAll_z, c.landAll_mem, c.landAll_tpc,
    c.landAll_tinfo, c.landAll_cause, c.landAll_fpflags, c.landAll_rmode⟩

section
variable {s : State} {c : Core} (issues : IssuesPlain s c)
include issues

theorem rft_returns (inside : c.handler = true) : exec .rft s = .next (s.setCore s.cur (c.returnFromTrap s.now)) := by
  have returns : rftOp s.cur s = .done (s.setCore s.cur (c.returnFromTrap s.now)) .leave := by
    simp [rftOp, outsideGang, issues.turn, issues.alone, inside]
  exact issue_done issues.toIssues (preTrap_plain issues .rft) (captureTrap_plain issues .rft) returns

theorem rft_traps (outside : c.handler = false) :
    exec .rft s = .next (s.takeTrap s.cur { cause := 0x06, t0 := c.pc, t1 := 3, t2 := 0, t3 := 0 } c.pc) := by
  have traps : rftOp s.cur s = .trap s (mkTrap trPROTECTION c.pc.toNat 3 0 0) := by
    simp only [rftOp, outsideGang, issues.turn, issues.alone, outside, Bool.false_eq_true, if_false, Bool.not_false, if_true]
  rw [mkTrap_toNat] at traps
  exact issue_plain_trap issues traps

end

/-- What a trap that enters the handler leaves (05 R130, R137). -/
theorem takeTrap_handler {s : State} {id : Nat} {c : Core} (core : s.core id = c) {t : Trap} {tpc : Word} (outside : c.handler = false)
    (noFeed : c.feeds = false) (goesOn : ¬(t.cause = trBREAK ∧ debugOn s c = true)) {h : Nat} (entry : handlerOf s c = some h) :
    let u := s.takeTrap id t tpc
    let n := u.core id
    n.tpc = tpc ∧ n.tcause = 0x80000000 ||| t.cause.zeroExtend 32 ∧ n.tinfo = #v[t.t0, t.t1, t.t2, t.t3] ∧ n.handler = true ∧
    n.pc = BitVec.ofNat 32 h ∧ n.aside = c.loops ∧ n.loops = [] ∧ n.readyAt = c.lastLand s.now + 6 ∧ n.pend = c.pend ∧
    n.frame = none ∧ n.md = none ∧ n.ops = [] ∧ n.status = c.status ∧ n.gangstat = c.gangstat ∧
    n.g = c.g ∧ n.a = c.a ∧ n.v = c.v ∧ n.m = c.m ∧ n.z = c.z ∧ n.fpflags = c.fpflags ∧ n.rmode = c.rmode ∧
    (∀ x, readByte n.mem x = readByte c.mem x) ∧ (∀ m, m ≠ id → u.core m = s.core m) ∧
    (∀ x, readByte u.hbm x = readByte s.hbm x) ∧ (∀ x, readByte u.hostMem x = readByte s.hostMem x) ∧
    u.contexts = s.contexts ∧ u.clusters = s.clusters ∧ u.lanes = s.lanes ∧ u.queues = s.queues ∧ u.funcs = s.funcs := by
  simp only [takeTrap_enters core outside goesOn entry, State.core_setCore_same]
  exact ⟨rfl, Core.tcause_eq _, rfl, rfl, rfl, rfl, rfl, rfl, rfl, if_neg (by simp [noFeed]), rfl, rfl, rfl, rfl, rfl, rfl, rfl, rfl,
    rfl, rfl, rfl, fun _ => rfl, fun m other => s.core_setCore_other id _ m other, fun _ => rfl, fun _ => rfl, rfl, rfl, rfl, rfl, rfl⟩

section
variable {s : State} {id x : Nat} {c : Core} (core : s.core id = c) {t : Trap} {tpc : Word}
include core

/-- A trap that will stop its core holds it until what is under way has ended (05 R130). -/
theorem takeTrap_ending (stops : stopsAt s c t) (busy : c.mayEnd = false) : 
    let u := s.takeTrap id t tpc
    u = s.setCore id (c.ending t tpc) ∧ (u.core id).mayIssue s.now = false ∧ (u.core id).g = c.g ∧ (u.core id).pend = c.pend := by
  have waits := takeTrap_stops (tpc := tpc) core stops
  rw [busy, if_neg Bool.false_ne_true] at waits
  simp only [waits, State.core_setCore_same]
  exact ⟨trivial, by simp [Core.mayIssue, Core.ending], rfl, rfl⟩

/-- A fault stop stops its core, faults the context and asks the context's other cores to halt (17 R376; 19 R418). -/
theorem endTrap_faults (mine : c.ctx = some x) (first : (s.ctx x).faultRec = none)
    (noDebug : c.handler = true ∨ ¬(t.cause = trBREAK ∧ debugOn s c = true)) :
    let u := s.endTrap id t tpc
    u.core id = { c.ended t tpc with status := .stopped, haltReq := .fault, latch := true } ∧
    (u.ctx x).st = .faulted ∧ (u.ctx x).faultRec = some (id, s.now) ∧ ∀ m, m ≠ id → u.core m = (s.core m).faultHalted x := by
  have mine' : ((s.setCore id { c.ended t tpc with status := .stopped }).core id).ctx = some x := by
    rw [State.core_setCore_same, ← mine]
    exact Core.ended_ctx c t tpc
  have first' : ((s.setCore id { c.ended t tpc with status := .stopped }).ctx x).faultRec = none := first
  simp only [endTrap_stops core noDebug, faultStop_ctx mine' first', faultStop_core mine' first']
  refine ⟨(if_pos mine').trans ?_, trivial, rfl, fun m other => congrArg (Core.faultHalted · x) (s.core_setCore_other id _ m other)⟩
  rw [State.core_setCore_same]

end

/-- TRAP_ENTRY of a trap that stops its core (05 R130). -/
theorem trapEntry_fatal {v : State} {id : Nat} {t : Trap} {tpc : Word} (fatal : (v.core id).fatal = some (t, tpc))
    (running : (v.core id).status = .running) : exec (.trapEntry id t.cause tpc t.t0 t.t1 t.t2 t.t3) v =
      .next (if (v.core id).mayEnd then v.endTrap id t tpc else v) := by
  show execTrapEntry id t.cause tpc t.t0 t.t1 t.t2 t.t3 v = _
  simp only [execTrapEntry, if_pos fatal, running, BEq.rfl, Bool.true_and]

/-- Settles O20: a trap enters its handler or stops its core, at once or once what is under way has ended. -/
theorem trapsEnterAndReturn : Obligations.TrapsEnterAndReturn := by
  refine ⟨fun s id c t tpc k h core outside noFeed goesOn kernel entry => ?_,
    fun s id c t tpc x core mine first stops => ⟨fun busy => ?_, fun ends => ?_, fun v fatal running ends => ?_⟩,
    fun s c issues => ⟨rft_returns issues, returnFromTrap_fields c s.now, rft_traps issues⟩⟩
  · exact takeTrap_handler core outside noFeed goesOn (by simp [handlerOf, kernel, entry])
  · exact takeTrap_ending core (stops.imp_right fun h => .inr h.1) busy
  · have faults := endTrap_faults (t := t) (tpc := tpc) core mine first (stops.imp_right And.right)
    have now := takeTrap_stops (tpc := tpc) core (t := t) (stops.imp_right fun h => .inr h.1)
    rw [ends, if_pos rfl] at now
    simp only [now]
    obtain ⟨own, st, rec, others⟩ := faults
    refine ⟨by rw [own], st, rec, fun outside => ?_, fun m other inside => ?_, fun m other not => ?_⟩
    · rw [own, Core.ended_outside outside]
      exact ⟨rfl, rfl⟩
    · rw [others m other, Core.faultHalted, if_pos inside]
      exact ⟨rfl, rfl⟩
    · rw [others m other, Core.faultHalted, if_neg not]
  · rw [trapEntry_fatal fatal running, ends, if_pos rfl]

/-- Settles O21: each word by its row; the completed core takes the trap that carries the code, and with debug stop its stop ends the
turn instead. -/
theorem trapAndBreakpointEnter : Obligations.TrapAndBreakpointEnter := by
  refine ⟨⟨fun code => ⟨decodeWord_of_encode rfl rfl rfl, decodeWord_of_encode rfl rfl rfl⟩, fun s c code issues alone => ?_⟩,
    fun s id c t0 tpc core outside debug ends => ?_⟩
  · have enters (cause : BitVec 8) (i : Instr) : issue i (fun _ s => .enter s (mkTrap cause code.toNat 0 0 0)) s =
      .next ((s.setCore s.cur ((c.fall c.pc).settled (s.now + 1))).takeTrap s.cur
        { cause := cause, t0 := code.zeroExtend 32, t1 := 0, t2 := 0, t3 := 0 }
        ((c.fall c.pc).settled (s.now + 1)).pc) := by
      have finishes : s.retire s.cur i .next = s.setCore s.cur ((c.fall c.pc).settled (s.now + 1)) := by
        rw [State.retire, if_neg nofun, State.modCore_eq issues.turn, finish_next alone rfl rfl]
      rw [issue_enter issues.toIssues (preTrap_plain issues i) (captureTrap_plain issues i) rfl, finishes, State.core_setCore_same,
        mkTrap, BitVec.ofNat_toNat]
      rfl
    exact ⟨enters _ _, enters _ _⟩
  · rw [takeTrap_stops core (.inr (.inl ⟨rfl, debug⟩)), if_pos ends, endTrap_debug core outside rfl debug, Core.ended_outside outside]
    exact ⟨rfl, rfl, rfl, rfl, outside, rfl, rfl⟩
end Sys2Proof.Machine

/-! ### Fetches (05 R103; 10 R259, R260; 21 R444) -/

namespace Sys2Proof.Machine

/-! #### What a fetch meets does not depend on which core has the turn -/

/-- The state in which core `id` has the turn. -/
def State.turn (s : State) (id : Nat) : State := { s with cur := id }

theorem walkFrom_turn (s : State) (id va table l n : Nat) : walkFrom (s.turn id) va table l n = walkFrom s va table l n := by
  induction n generalizing table l with
  | zero => rfl
  | succ n ih =>
    unfold walkFrom
    simp only [ih]
    rfl

theorem spoiltFrom_turn (s : State) (id va table l n : Nat) : spoiltFrom (s.turn id) va table l n = spoiltFrom s va table l n := by
  induction n generalizing table l with
  | zero => rfl
  | succ n ih =>
    unfold spoiltFrom
    simp only [ih]
    rfl

theorem translate_turn (s : State) (id x tag va : Nat) (a : Access) : translate (s.turn id) x tag va a = translate s x tag va a := by
  have spoilt : walkSpoilt (s.turn id) x va = walkSpoilt s x va := by
    unfold walkSpoilt
    rw [spoiltFrom_turn]
    rfl
  have walked : walk (s.turn id) x va = walk s x va := walkFrom_turn ..
  unfold translate
  rw [spoilt, walked]

theorem fetchAt_turn (s : State) (id n : Nat) (pc : Word) : fetchAt (s.turn id) n pc = fetchAt s n pc := by
  unfold fetchAt
  simp only [translate_turn]
  rfl

/-! #### What a fetch meets -/

/-- What a fetch at `pc` within the code meets, by its translation (10 R239, R259; 21 R444). -/
def fetchedOf (s : State) (id : Nat) (pc : Word) : Xlate → Fetched
  | .ok pa e =>
    if bitsOf e 7 1 = 0 then .integrity
    else if s.rangeGood (readAt pa e (dieOf id)) 4 then .word (readWord s.hbm (readAt pa e (dieOf id)))
    else .spoilt none (readAt pa e (dieOf id))
  | .spoilt pa => .spoilt none pa
  | .stall page st => .stall page st
  | .unmapped _ _ bad => .trap (mkTrap trUNMAPPED pc.toNat 0 0x400 0) true bad
  | .denied _ _ => .trap (mkTrap trPROTECTION pc.toNat 15 0 0) false none

section
variable {s : State} {id x : Nat} {c : Core} {k : Kernel} (core : s.core id = c) (mine : c.ctx = some x)
  (kernel : s.kernelOf c = some k)
include core mine kernel

theorem fetchAt_beyond {pc : Word} (beyond : paddedLen k ≤ pc.toNat) :
    fetchAt s id pc = .trap (mkTrap trPROTECTION pc.toNat 1 0 0) false none := by
  simp only [fetchAt, core, mine, kernel, if_pos beyond]

theorem fetchAt_within {pc : Word} (within : pc.toNat < paddedLen k) (unmarked : s.marks = []) :
    fetchAt s id pc = fetchedOf s id pc (translate s x c.tag (k.codeVa + pc.toNat) .fetch) := by
  simp only [fetchAt, core, mine, kernel, if_neg (Nat.not_le.2 within), unmarked, List.find?_nil]
  cases translate s x c.tag (k.codeVa + pc.toNat) .fetch <;> rfl

end

/-! #### The turn of a core that fetches -/

section
variable {s : State} {id : Nat} {c : Core} (core : s.core id = c) (fresh : c.held = none) (noOps : c.ops = [])
  (noReplay : c.replaying = false)
include core fresh noOps noReplay

/-- A core whose fetch brings no word (10 R260). -/
theorem turnOf_fetch (noWord : ∀ w, fetchAt s id c.pc ≠ .word w) : turnOf s id = .fetch id (s.turn id) := by
  have core' : ({ s with cur := id } : State).core id = c := core
  unfold turnOf
  simp only [core', fresh, noOps, noReplay, Bool.false_eq_true, if_false]
  cases met : fetchAt { s with cur := id } id c.pc with
  | word w => exact absurd ((fetchAt_turn s id id c.pc).symm.trans met) (noWord w)
  | _ => rfl

variable {w : Word} (fetched : fetchAt s id c.pc = .word w)
include fetched

theorem turnOf_decoded {i : Instr} (decoded : decodeWord w = .ok i) : turnOf s id = .run i (s.turn id) := by
  have core' : ({ s with cur := id } : State).core id = c := core
  have fetched' : fetchAt { s with cur := id } id c.pc = .word w := (fetchAt_turn ..).trans fetched
  simp only [turnOf, core', fresh, noOps, noReplay, Bool.false_eq_true, if_false, fetched', decoded, State.turn]

theorem turnOf_illegal {e : DecodeError} (decoded : decodeWord w = .error e) (noModifier : (fmajor w).toNat ≠ 0x3E) :
    turnOf s id = .settled ((s.turn id).leaderTrap id
      (illegalTrap w c.mdWord (if c.capturing && !arithWord w then min e.code 6 else e.code)) (c.pc + 4)) := by
  have core' : ({ s with cur := id } : State).core id = c := core
  have fetched' : fetchAt { s with cur := id } id c.pc = .word w := (fetchAt_turn ..).trans fetched
  simp only [turnOf, core', fresh, noOps, noReplay, Bool.false_eq_true, if_false, fetched', decoded, if_neg noModifier, State.turn]

end

/-- A word in memory is its four bytes, the lowest first (00 R6). -/
theorem readWord_eq_append (m : List Host.Cell) (a : Nat) :
    readByte m (a + 3) ++ readByte m (a + 2) ++ readByte m (a + 1) ++ readByte m a = readWord m a := by
  simp only [readWord, readBytes, leNat, Nat.add_assoc, Nat.reduceAdd]
  generalize readByte m a = b0, readByte m (a + 1) = b1, readByte m (a + 2) = b2, readByte m (a + 3) = b3
  simp only [↓append_eq_iff, extractLsb'_extractLsb', Nat.reduceAdd, Nat.reduceLeDiff, ← BitVec.toNat_inj,
    BitVec.extractLsb'_toNat, BitVec.toNat_ofNat]
  omega

/-- A word's major opcode is its number above bit 26 (04 R86). -/
theorem fmajor_toNat (w : Word) : (fmajor w).toNat = w.toNat / 2 ^ 26 := by
  simp only [fmajor, BitVec.extractLsb'_toNat, Nat.shiftRight_eq_div_pow]
  omega

theorem illegalTrap_eq (w md : Word) (reason : Nat) : illegalTrap w md reason = ⟨0x01, w, md, BitVec.ofNat 32 reason, 0⟩ := by
  rw [illegalTrap, mkTrap_toNat, BitVec.ofNat_toNat, BitVec.setWidth_eq]
  rfl

/-- Settles O52: no event and no trap stands before the turn of the core, whose fetch brings the word. -/
theorem stepRunsDecoded : Obligations.StepRunsDecoded := by
  intro s id x pa e c k i r clock noEvent next noTrap core fresh noOps noReplay mine kernel within unmarked xlate hash good
  have fetched : fetchAt s id c.pc = .word (readWord s.hbm (readAt pa e (dieOf id))) := by
    rw [fetchAt_within core mine kernel within unmarked, xlate]
    simp only [fetchedOf, hash, good, if_true, if_neg one_ne_zero]
  rw [← readWord_eq_append] at fetched
  have turns : step s = match turnOf s id with
      | .run i q => exec i q
      | .settled q => .next q
      | .fetch _ _ => execInstructionFetch id s := by
    simp only [step, workOf, clock, noEvent, next, noTrap, Bool.false_eq_true, if_false]
    cases turnOf s id <;> rfl
  refine ⟨fun decoded => ?_, fun decoded noModifier => ?_⟩
  · rw [turns, turnOf_decoded core fresh noOps noReplay fetched decoded]
    rfl
  · rw [turns, turnOf_illegal core fresh noOps noReplay fetched decoded (by rwa [fmajor_toNat]), illegalTrap_eq]
    simp only [Bool.and_eq_true, Bool.not_eq_true']
    rfl

end Sys2Proof.Machine

/-! ### A page that fails its hash, where the table of cores lists a core twice (10 R259) -/

namespace Sys2Proof.Machine

/-- A core of a context that has met CODE_INTEGRITY waits at its fetch for the halt (10 R259). -/
theorem State.fetchFails_integrity {s : State} {id : Nat} {pc : Word} {c : Core} (core : s.core id = c)
    (fetched : fetchAt s id pc = .integrity) (failed : codeFailed s (c.ctx.getD 0) = true) :
    s.fetchFails id pc = s.setCore id { c with readyAt := s.now + 1 } := by
  subst core
  rw [State.fetchFails, fetched]
  exact if_pos failed

/-- Core 0 about to fetch address 0. -/
def refutingFetcher : Core := Core.reset.atZero 0

/-- A module that is no reachable one: its table lists core 1 twice. By the first entry, which is the one that is read, core 1 holds
no continuation and has met CODE_INTEGRITY; by the second it is one of context 0. The page at address 0 fails its hash. -/
def refutingModule : State :=
  { writeEntry (State.reset.withFetchWord 32 0) 2560 (leafEntry 0 pageFrame false false true false false false 1 1) with
    cores := [(0, refutingFetcher), (1, { Core.reset with fatal := some (⟨trCODE, 0, 0, 0, 0⟩, 0) }),
      (1, { Core.reset with ctx := some 0 })] }

theorem refutingModule_translate : translate refutingModule 0 1 0 .fetch =
    .ok pageFrame (leafEntry 0 pageFrame false false true false false false 1 1) := by
  decide +kernel

/-- No core of context 0, as it is read, has met a trap that will stop it. -/
theorem refutingModule_fatal (m : Nat) (mine : (refutingModule.core m).ctx = some 0) : (refutingModule.core m).fatal = none := by
  rcases m with _ | _ | m
  · rfl
  · cases mine
  · rfl

/-- The fetch of the core finds that the page fails its hash. -/
theorem refutingModule_fetch : fetchAt refutingModule 0 refutingFetcher.pc = .integrity := by
  rw [fetchAt_within (c := refutingFetcher) (x := 0) (k := pageKernel) rfl rfl (by decide +kernel) (by decide) rfl]
  rw [show translate refutingModule 0 refutingFetcher.tag (pageKernel.codeVa + refutingFetcher.pc.toNat) .fetch = _ from
    refutingModule_translate]
  decide

/-- The second entry of core 1 puts it among the cores of the context, and the first has met the failure. -/
theorem refutingModule_codeFailed : codeFailed (refutingModule.turn 0) 0 = true := by
  decide

/-- The core does not stop: it waits for another to stop the context. -/
theorem refutingModule_waits : exec (.instructionFetch 0) refutingModule =
    .next ((refutingModule.turn 0).setCore 0 { refutingFetcher with readyAt := (refutingModule.turn 0).now + 1 }) := by
  have issuable : (refutingModule.core 0).issuable refutingModule.now = true := by decide +kernel
  have turns : turnOf refutingModule 0 = .fetch 0 (refutingModule.turn 0) :=
    turnOf_fetch (c := refutingFetcher) rfl rfl rfl rfl (by simp [refutingModule_fetch])
  have core : (refutingModule.turn 0).core 0 = refutingFetcher := rfl
  show execInstructionFetch 0 refutingModule = _
  rw [execInstructionFetch, if_pos issuable, turns]
  refine congrArg Host.Outcome.next ?_
  rw [core]
  exact State.fetchFails_integrity core ((fetchAt_turn ..).trans refutingModule_fetch) refutingModule_codeFailed

/-- Refutes O50: no hypothesis keeps the table of cores from listing one core twice. In `refutingModule` the second entry of core 1
makes it one of the context's cores and the first, the one that is read, says that it has met CODE_INTEGRITY and holds no
continuation; so the core that fetches takes itself for a later one and goes on waiting, where the statement stops it. -/
theorem not_fetchesAndBoundaryTraps : ¬ Obligations.FetchesAndBoundaryTraps := by
  intro claim
  obtain ⟨fetches, -⟩ := claim refutingModule 0 0 0 0 0 refutingFetcher pageKernel .mapped 0 0 rfl rfl rfl rfl rfl rfl rfl
  obtain ⟨-, -, -, -, -, integrity⟩ := fetches (by decide +kernel) (by decide +kernel)
  obtain ⟨t, ran, stops, -⟩ := integrity _ _ (by decide) rfl refutingModule_translate (by decide) rfl refutingModule_fatal
  cases Host.Outcome.next.inj (refutingModule_waits.symm.trans ran)
  exact absurd (stops rfl rfl).1 (by decide)

end Sys2Proof.Machine

/-! ### Scalar loads and stores (05 R117, R118) -/

namespace Sys2Proof.Machine

/-! #### Words that cannot be read -/

section
variable {c : Core} {a size : Nat} (width : size = 1 ∨ size = 2 ∨ size = 4) (aligned : a % size = 0)
include width aligned

/-- An aligned access of at most a word lies in one word. -/
theorem badWord_aligned : c.badWord a size = c.memBad.find? (· == a / 4) := by
  refine List.find?_congr fun w _ => ?_
  rw [Bool.eq_iff_iff, Bool.and_eq_true, decide_eq_true_iff, decide_eq_true_iff, beq_iff_eq]
  rcases width with rfl | rfl | rfl <;> omega

theorem badWord_of_mem (bad : a / 4 ∈ c.memBad) : c.badWord a size = some (a / 4) := by
  rw [badWord_aligned width aligned]
  cases found : c.memBad.find? (· == a / 4) with
  | none => exact absurd (List.find?_eq_none.1 found _ bad) (by simp)
  | some w => rw [beq_iff_eq.1 (List.find?_some (p := (· == a / 4)) found)]

theorem badWord_of_notMem (good : a / 4 ∉ c.memBad) : c.badWord a size = none := by
  rw [badWord_aligned width aligned, List.find?_eq_none]
  exact fun w mem same => good (beq_iff_eq.1 same ▸ mem)

end

theorem badWord_outside {c : Core} {a size : Nat} (good : ∀ w ∈ c.memBad, a + size ≤ 4 * w ∨ 4 * w + 4 ≤ a) :
    c.badWord a size = none := by
  refine List.find?_eq_none.2 fun w mem => ?_
  have apart := good w mem
  rw [Bool.and_eq_true, decide_eq_true_iff, decide_eq_true_iff]
  omega

/-! #### The checks of an access -/

/-- A scalar access at address `a`: its stall and its checks stand before all else. -/
def accessRes (s : State) (c : Core) (a size : Nat) (rest : Unit → Res) : Res :=
  if c.accessStalls then .wait s .stall else orTrap s (scalarTrap c a size) rest

/-- A scalar access of `size` bytes at `a` that makes core `k`, or meets a word that cannot be read (21 R445). -/
def meets (s : State) (c : Core) (a size : Nat) (k : Core) : Res :=
  match c.badWord a size with
  | some w => .trap (s.setCore s.cur (c.unmark w)) (mkTrap trDATA a 6 0 0)
  | none => .done (s.setCore s.cur k) .next

theorem meets_good {s : State} {c k : Core} {a size : Nat} (good : c.badWord a size = none) :
    meets s c a size k = .done (s.setCore s.cur k) .next := by
  rw [meets, good]

theorem meets_bad {s : State} {c k : Core} {a size : Nat} (width : size = 1 ∨ size = 2 ∨ size = 4) (aligned : a % size = 0)
    (bad : a / 4 ∈ c.memBad) :
    meets s c a size k = .trap (s.setCore s.cur (c.unmark (a / 4))) (mkTrap trDATA a 6 0 0) := by
  rw [meets, badWord_of_mem width aligned bad]

section
variable {s : State} {c : Core} (turn : s.core s.cur = c) (d b : BitVec 5) (o : BitVec 13) (size : Nat)
include turn

theorem loadOp_eq (ext : Nat → Word) : loadOp d b o size ext s.cur s = accessRes s c (c.scalarAddr b o) size fun _ =>
    meets s c (c.scalarAddr b o) size ((c.queueLoad s.now d (ext (leNat (readBytes c.mem (c.scalarAddr b o) size)))).access s.now
      (panelReads s s.cur s.now) [c.scalarAddr b o / 4] c.serial true none) := by
  subst turn
  rfl

theorem storeOp_eq : storeOp d b o size s.cur s = accessRes s c (c.scalarAddr b o) size fun _ =>
    if c.locked (c.scalarAddr b o) size then .wait s .stall
    else meets s c (c.scalarAddr b o) size ((c.store (c.scalarAddr b o) (leBytes (c.readG d).toNat size)).access s.now
      (panelReads s s.cur s.now) [c.scalarAddr b o / 4] c.serial false none) := by
  subst turn
  rfl

end

section
variable {s : State} {c : Core} {a size : Nat} {rest : Unit → Res}

/-- An access in range goes on to its word. -/
theorem accessRes_goes (goes : c.accessStalls = false) (raw : a < 0x8000) (owned : a < c.resLocal.toNat)
    (aligned : a % size = 0) : accessRes s c a size rest = rest () := by
  rw [accessRes, goes, scalarTrap, if_neg (Nat.not_le.2 raw), if_neg (Nat.not_le.2 owned), if_neg (not_not.2 aligned)]
  rfl

variable {i : Instr} {f : Nat → State → Res} (h : IssuesPlain s c) (op : f s.cur s = accessRes s c a size rest)
include h op

theorem access_stalls (stalls : c.accessStalls = true) :
    issue i f s = .next (s.setCore s.cur { c with wait := .stall, held := some i, readyAt := s.now + 1 }) :=
  issue_plain_stall h (by rw [op, accessRes, if_pos stalls])

theorem access_traps (goes : c.accessStalls = false) {t : Trap} (met : scalarTrap c a size = some t) :
    issue i f s = .next (s.takeTrap s.cur t c.pc) :=
  issue_plain_trap h (by rw [op, accessRes, goes, met]; rfl)

end

/-- A word met that cannot be read is met once, and traps (21 R444, R445). -/
theorem issue_spoilt {s : State} {c : Core} (h : IssuesPlain s c) {w : Word} {n : Nat} {i : Instr} {f : Nat → State → Res}
    (spoilt : f s.cur s = .trap (s.setCore s.cur (c.unmark n)) (mkTrap trDATA w.toNat 6 0 0)) : issue i f s =
      .next ((s.setCore s.cur { c with memBad := c.memBad.filter (· != n) }).takeTrap s.cur
        { cause := 0x0B, t0 := w, t1 := 6, t2 := 0, t3 := 0 } c.pc) := by
  rw [issue_plain_trap h spoilt, mkTrap_toNat]
  rfl

/-- The stall and the traps of an access of `size` bytes at `w`, in their order (05 R117, R118). -/
theorem access_checks {s : State} {c : Core} (h : IssuesPlain s c) {w : Word} {size : Nat} {rest : Unit → Res} {i : Instr}
    {f : Nat → State → Res} {reads : Prop} (op : f s.cur s = accessRes s c w.toNat size rest)
    (spoilt : w.toNat % size = 0 → w.toNat / 4 ∈ c.memBad → reads →
      rest () = .trap (s.setCore s.cur (c.unmark (w.toNat / 4))) (mkTrap trDATA w.toNat 6 0 0)) :
    (c.accessStalls = true → issue i f s = .next (s.setCore s.cur
      { c with wait := .stall, held := some i, readyAt := s.now + 1 })) ∧
    (c.accessStalls = false → 0x8000 ≤ w.toNat →
      issue i f s = .next (s.takeTrap s.cur { cause := 0x06, t0 := w, t1 := 2, t2 := 0, t3 := 0 } c.pc)) ∧
    (c.accessStalls = false → w.toNat < 0x8000 → c.resLocal.toNat ≤ w.toNat →
      issue i f s = .next (s.takeTrap s.cur { cause := 0x02, t0 := 3, t1 := w, t2 := c.resLocal, t3 := 0 } c.pc)) ∧
    (c.accessStalls = false → w.toNat < 0x8000 → w.toNat < c.resLocal.toNat → w.toNat % size ≠ 0 →
      issue i f s = .next (s.takeTrap s.cur { cause := 0x03, t0 := w, t1 := BitVec.ofNat 32 size, t2 := 0, t3 := 0 } c.pc)) ∧
    (c.accessStalls = false → w.toNat < 0x8000 → w.toNat < c.resLocal.toNat → w.toNat % size = 0 → w.toNat / 4 ∈ c.memBad →
      reads → issue i f s = .next ((s.setCore s.cur { c with memBad := c.memBad.filter (· != w.toNat / 4) }).takeTrap s.cur
        { cause := 0x0B, t0 := w, t1 := 6, t2 := 0, t3 := 0 } c.pc)) := by
  have word (x : Word) : BitVec.ofNat 32 x.toNat = x := by rw [BitVec.ofNat_toNat, BitVec.setWidth_eq]
  refine ⟨access_stalls h op, fun goes outside => access_traps h op goes ?_, fun goes raw beyond => access_traps h op goes ?_,
    fun goes raw owned crooked => access_traps h op goes ?_, fun goes raw owned aligned bad may =>
      issue_spoilt h ((op.trans (accessRes_goes goes raw owned aligned)).trans (spoilt aligned bad may))⟩
  · rw [scalarTrap, if_pos outside, mkTrap_toNat]
    rfl
  · rw [scalarTrap, if_neg (Nat.not_le.2 raw), if_pos beyond, overrun, mkTrap, word, word]
    rfl
  · rw [scalarTrap, if_neg (Nat.not_le.2 raw), if_neg (Nat.not_le.2 owned), if_pos crooked, mkTrap_toNat]
    rfl

/-! #### What an access does -/

section
variable {s : State} {c : Core} (turn : s.core s.cur = c) {d b : BitVec 5} {o : BitVec 13} {size : Nat}
  (goes : c.accessStalls = false) (raw : c.scalarAddr b o < 0x8000) (owned : c.scalarAddr b o < c.resLocal.toNat)
  (aligned : c.scalarAddr b o % size = 0)
include turn goes raw owned aligned

theorem loadOp_loads {ext : Nat → Word} {v : Word} (good : c.badWord (c.scalarAddr b o) size = none)
    (value : ext (leNat (readBytes c.mem (c.scalarAddr b o) size)) = v) : loadOp d b o size ext s.cur s =
      .done (s.setCore s.cur ((c.queueLoad s.now d v).access s.now (panelReads s s.cur s.now) [c.scalarAddr b o / 4] c.serial
        true none)) .next := by
  rw [loadOp_eq turn, accessRes_goes goes raw owned aligned, meets_good good, value]

variable (free : c.locked (c.scalarAddr b o) size = false)
include free

theorem storeOp_stores (good : c.badWord (c.scalarAddr b o) size = none) : storeOp d b o size s.cur s =
    .done (s.setCore s.cur ((c.store (c.scalarAddr b o) (leBytes (c.readG d).toNat size)).access s.now
      (panelReads s s.cur s.now) [c.scalarAddr b o / 4] c.serial false none)) .next := by
  rw [storeOp_eq turn, accessRes_goes goes raw owned aligned, free, meets_good good]
  rfl

end

/-! #### Bytes and their numbers (00 R6) -/

section
variable (m : List Host.Cell) (a : Nat)

theorem leNat_readBytes_one : leNat (readBytes m a 1) = (readByte m (a + 0)).toNat := rfl

theorem leNat_readBytes_two : leNat (readBytes m a 2) = (readByte m (a + 0)).toNat + 256 * (readByte m (a + 1)).toNat := rfl

theorem leNat_readBytes_four : leNat (readBytes m a 4) = (readByte m (a + 0)).toNat + 256 * (readByte m (a + 1)).toNat +
    65536 * (readByte m (a + 2)).toNat + 16777216 * (readByte m (a + 3)).toNat := by
  simp only [readBytes, leNat, Nat.add_assoc, Nat.reduceAdd, Nat.add_zero, Nat.mul_add, ← Nat.mul_assoc, Nat.reduceMul]

end

theorem getElem_leBytes (x n i : Nat) (h : i < (leBytes x n).length) : (leBytes x n)[i] = BitVec.ofNat 8 (x / 256 ^ i) := by
  induction n generalizing x i with
  | zero => exact absurd h (Nat.not_lt_zero i)
  | succ n ih =>
    cases i with
    | zero => simp [leBytes]
    | succ i => simp [leBytes, ih, Nat.div_div_eq_div_mul, Nat.pow_succ']

/-! #### A load put off and the frame of a store -/

/-- A replay cycle puts off the write of its load and no other (08 R208). -/
theorem replayOnce_load {k : Core} {before after : List Pend} {p : Pend} {r : Replay} (load : r.load = true)
    (own : p.load = some r.since) (pend : k.pend = before ++ [p] ++ after) (others : ∀ q ∈ before ++ after, q.load ≠ some r.since) :
    (k.replayOnce r).pend = before ++ [{ p with landAt := p.landAt + 1 }] ++ after := by
  have stays {l : List Pend} (apart : ∀ q ∈ l, q.load ≠ some r.since) : putOff r.since l = l :=
    (List.map_congr_left (g := id) fun q mem => if_neg (apart q mem)).trans (List.map_id l)
  have moved : putOff r.since (before ++ [p] ++ after) =
      putOff r.since before ++ [{ p with landAt := p.landAt + 1 }] ++ putOff r.since after := by
    simp [putOff, own]
  rw [Core.replayOnce, if_pos load, pend, moved, stays fun q mem => others q (List.mem_append_left _ mem),
    stays fun q mem => others q (List.mem_append_right _ mem)]

/-- A core without what a store moves: the local memory, the tile bound there and the banks with their replay. -/
def Core.besideStore (c : Core) : Core :=
  { c with mem := [], binding := Core.reset.binding, banks := Core.reset.banks, replay := [] }

/-- The core that completed an instruction outside macros and frames. -/
theorem completed_core {s : State} {c k : Core} (alone : c.single) (ops : k.ops = c.ops) (frame : k.frame = c.frame) (i : Instr) :
    (s.completed k i .next).core s.cur = (k.fall k.pc).settled (s.now + 1) := by
  show (s.setCore s.cur _).core s.cur = _
  rw [State.core_setCore_same, finish_next alone ops frame]

section
variable {s : State} {c k : Core} {a size x : Nat} (alone : c.single) (mem : k.mem = writeBytes c.mem a (leBytes x size))
  (rest : k.besideStore = c.besideStore)
include alone mem rest

/-- A store that completes wrote the low bytes of its register, and nothing else of the module's memories and registers. -/
theorem store_frame (i : Instr) :
    let t := s.completed k i .next
    (∀ n < size, readByte (t.core s.cur).mem (a + n) = BitVec.ofNat 8 (x / 256 ^ n)) ∧
    (∀ n, n < a ∨ a + size ≤ n → readByte (t.core s.cur).mem n = readByte c.mem n) ∧
    (∀ n, readByte t.hbm n = readByte s.hbm n) ∧ (∀ n, readByte t.hostMem n = readByte s.hostMem n) ∧
    (∀ r, (t.core s.cur).readG r = c.readG r) ∧ (t.core s.cur).v = c.v ∧ (t.core s.cur).a = c.a ∧
    (t.core s.cur).m = c.m ∧ (t.core s.cur).z = c.z ∧ (t.core s.cur).fpflags = c.fpflags ∧
    ∀ n, n ≠ s.cur → t.core n = s.core n := by
  intro t
  have core : t.core s.cur = (k.fall k.pc).settled (s.now + 1) :=
    completed_core (k := k) alone (congrArg Core.ops rest :) (congrArg Core.frame rest :) i
  rw [core]
  refine ⟨fun n lt => ?_, fun n out => ?_, fun _ => rfl, fun _ => rfl, fun r => (congrArg (Core.readG · r) rest :),
    (congrArg Core.v rest :), (congrArg Core.a rest :), (congrArg Core.m rest :), (congrArg Core.z rest :),
    (congrArg Core.fpflags rest :), fun n other => State.core_setCore_other _ _ _ _ other⟩
  · show readByte k.mem _ = _
    rw [mem, readByte_writeBytes _ _ _ _ (by rwa [leBytes_length]), getElem_leBytes]
  · show readByte k.mem _ = _
    rw [mem, readByte_writeBytes_other _ _ _ _ (by rwa [leBytes_length])]

end

section
variable {s : State} {c : Core} (h : IssuesPlain s c) {d b : BitVec 5} {o : BitVec 13} {size : Nat}
  (goes : c.accessStalls = false) {i : Instr} {f : Nat → State → Res}
include h goes

theorem issue_loads {ext : Nat → Word} {v : Word} (op : f s.cur s = loadOp d b o size ext s.cur s)
    (value : ext (leNat (readBytes c.mem (c.scalarAddr b o) size)) = v) (raw : c.scalarAddr b o < 0x8000)
    (owned : c.scalarAddr b o < c.resLocal.toNat) (aligned : c.scalarAddr b o % size = 0)
    (good : ∀ w ∈ c.memBad, c.scalarAddr b o + size ≤ 4 * w ∨ 4 * w + 4 ≤ c.scalarAddr b o) :
    issue i f s = .next (s.completed ((c.queueLoad s.now d v).access s.now (panelReads s s.cur s.now) [c.scalarAddr b o / 4]
      c.serial true none) i .next) :=
  issue_plain (ctl := .next) h nofun (op.trans (loadOp_loads h.turn goes raw owned aligned (badWord_outside good) value))

theorem store_completes (op : f s.cur s = storeOp d b o size s.cur s) (alone : c.single) (width : size = 1 ∨ size = 2 ∨ size = 4)
    (raw : c.scalarAddr b o < 0x8000) (owned : c.scalarAddr b o < c.resLocal.toNat) (aligned : c.scalarAddr b o % size = 0)
    (free : c.locked (c.scalarAddr b o) size = false) (good : c.scalarAddr b o / 4 ∉ c.memBad) :
    ∃ t, issue i f s = .next t ∧ ∃ m, t = s.completed ((c.store (c.scalarAddr b o) m).access s.now (panelReads s s.cur s.now)
        [c.scalarAddr b o / 4] c.serial false none) i .next ∧ m.length = size ∧
      (∀ n < size, readByte (t.core s.cur).mem (c.scalarAddr b o + n) = BitVec.ofNat 8 ((c.readG d).toNat / 256 ^ n)) ∧
      (∀ n, n < c.scalarAddr b o ∨ c.scalarAddr b o + size ≤ n → readByte (t.core s.cur).mem n = readByte c.mem n) ∧
      (∀ n, readByte t.hbm n = readByte s.hbm n) ∧ (∀ n, readByte t.hostMem n = readByte s.hostMem n) ∧
      (∀ r, (t.core s.cur).readG r = c.readG r) ∧ (t.core s.cur).v = c.v ∧ (t.core s.cur).a = c.a ∧
      (t.core s.cur).m = c.m ∧ (t.core s.cur).z = c.z ∧ (t.core s.cur).fpflags = c.fpflags ∧
      ∀ n, n ≠ s.cur → t.core n = s.core n := by
  have stores := storeOp_stores (d := d) h.turn goes raw owned aligned free (badWord_of_notMem width aligned good)
  have mem : ((c.store (c.scalarAddr b o) (leBytes (c.readG d).toNat size)).access s.now (panelReads s s.cur s.now)
      [c.scalarAddr b o / 4] c.serial false none).mem = writeBytes c.mem (c.scalarAddr b o) (leBytes (c.readG d).toNat size) := rfl
  refine ⟨_, issue_plain (ctl := .next) h nofun (op.trans stores), _, rfl, leBytes_length _ _, ?_⟩
  exact store_frame alone mem rfl i

end

/-- Settles O12: loads and stores pass the same checks; a load reads the bytes, a store writes them. -/
theorem scalarMemoryAccesses : Obligations.ScalarMemoryAccesses := by
  refine ⟨fun s c d b o h goes => ?_, fun s c d b o h alone goes => ?_, fun s c d b o h => ?_⟩
  all_goals simp only [List.forall_mem_cons, List.not_mem_nil, false_implies, implies_true, and_true]
  · and_intros
    all_goals
      intro raw owned aligned good
      refine ⟨issue_loads h goes rfl ?_ raw owned aligned good,
        fun k before after e t stamp v pend others => replayOnce_load rfl rfl pend others⟩
    · rw [leNat_readBytes_one]; rfl
    · rw [leNat_readBytes_one]; rfl
    · rw [leNat_readBytes_two]; rfl
    · rw [leNat_readBytes_two]; rfl
    · rw [leNat_readBytes_four]; rfl
  · and_intros
    all_goals
      intro raw owned aligned free good _
      exact store_completes h goes rfl alone (by decide) raw owned aligned free good
  · refine ⟨?_, ?_, ?_, ?_, ?_, ?_, ?_, ?_⟩
    iterate 5
      · exact access_checks h (loadOp_eq h.turn d b o _ _) fun aligned bad _ => meets_bad (by decide) aligned bad
    iterate 3
      · refine access_checks h (storeOp_eq h.turn d b o _) fun aligned bad may => ?_
        exact (if_neg (Bool.eq_false_iff.1 (may.resolve_right (by simp)))).trans (meets_bad (by decide) aligned bad)

end Sys2Proof.Machine

/-! ### Arithmetic words (04 R93) -/

namespace Sys2Proof.Machine

/-- What the decoder answers for the word `w`, if it is an instruction, is arithmetic exactly where the word's code is. -/
def Sorts (w : Word) (r : Except DecodeError Instr) : Prop := ∀ i, r = .ok i → arithWord w = isArith i

section
variable {w : Word} {i : Instr}

theorem sorts_error (r : DecodeError) : Sorts w (.error r) := nofun

theorem sorts_ok : Sorts w (.ok i) ↔ arithWord w = isArith i :=
  ⟨fun h => h i rfl, fun h _ e => Except.ok.inj e ▸ h⟩

theorem sorts_guarded {a z r : Bool} :
    Sorts w (guarded a z r i) ↔ (a = true → z = true → r = true → arithWord w = isArith i) := by
  simp only [Sorts, guarded_eq_ok_iff]
  exact ⟨fun h ha hz hr => h i ⟨ha, hz, hr, rfl⟩, fun h _ ⟨ha, hz, hr, e⟩ => e ▸ h ha hz hr⟩

end

/-- The majors whose minors are all arithmetic or in part. -/
theorem sorts_of_arith_major (w : Word) :
    ((fmajor w).toNat = 0x01 → Sorts w (decodeAlu w)) ∧
    ((fmajor w).toNat = 0x08 → Sorts w (decodeShifti w)) ∧
    ((fmajor w).toNat = 0x0A → Sorts w (decodeMuldiv w)) ∧
    ((fmajor w).toNat = 0x1A → Sorts w (decodeFp32 w)) ∧
    ((fmajor w).toNat = 0x1B → Sorts w (decodeBf16 w)) ∧
    ((fmajor w).toNat = 0x1C → Sorts w (decodeIntVec w)) ∧
    ((fmajor w).toNat = 0x1D → Sorts w (decodeMove w)) ∧
    ((fmajor w).toNat = 0x1F → Sorts w (decodeConv w)) ∧
    ((fmajor w).toNat = 0x20 → Sorts w (decodeSpecial w)) := by
  unfold decodeAlu decodeShifti decodeMuldiv decodeFp32 decodeBf16 decodeIntVec decodeMove decodeConv decodeSpecial
  and_intros <;> intro major
  all_goals repeat' split
  all_goals simp only [sorts_error, sorts_ok, sorts_guarded]
  all_goals intros
  all_goals simp only [arithWord, major, isArith]
  all_goals
    simp only [BitVec.extractLsb'_toNat, Nat.shiftRight_eq_div_pow, BitVec.lt_def, BitVec.reduceToNat, bitsOf, decide_eq_true_eq,
      decide_eq_false_iff_not, bne_iff_ne, Bool.and_eq_true, Bool.and_eq_false_iff, ne_eq] at *
    omega

/-- The majors of which nothing is arithmetic. -/
theorem sorts_of_other_major {w : Word} (code : arithWord w = false) :
    Sorts w (decodeLd w) ∧ Sorts w (decodeSt w) ∧ Sorts w (decodePath w) ∧ Sorts w (decodeVMem w) ∧ Sorts w (decodeGang w) ∧
    Sorts w (decodeMatrix w) ∧ Sorts w (decodeComb w) ∧ Sorts w (decodeCopy w) ∧ Sorts w (decodeGather w) ∧
    Sorts w (decodeAtomic w) ∧ Sorts w (decodeVAtomic w) ∧ Sorts w (decodeBarrier w) ∧ Sorts w (decodeWaggle w) ∧
    Sorts w (decodeExchange w) ∧ Sorts w (decodeQueue w) ∧ Sorts w (decodeForage w) ∧ Sorts w (decodeSystem w) := by
  unfold decodeLd decodeSt decodePath decodeVMem decodeGang decodeMatrix decodeComb decodeCopy decodeGather decodeAtomic
    decodeVAtomic decodeBarrier decodeWaggle decodeExchange decodeQueue decodeForage decodeSystem
  and_intros
  all_goals repeat' split
  all_goals simp only [sorts_error, sorts_ok, sorts_guarded, code, isArith, implies_true]

/-- The code of a word that is an instruction says whether the instruction is arithmetic (04 R93). -/
theorem sorts_decodeWord (w : Word) : Sorts w (decodeWord w) := by
  unfold decodeWord
  split
  any_goals simp only [sorts_of_arith_major, sorts_of_other_major, arithWord, *]
  all_goals repeat' split
  all_goals simp only [sorts_error, sorts_ok, sorts_guarded, isArith, arithWord, implies_true, *]

end Sys2Proof.Machine

/-! ### Macro calls and modifier words (05 R125, R126; 04 R94 to R98) -/

namespace Sys2Proof.Machine

/-! #### The call -/

theorem Core.settled_of_plain {c : Core} (plain : c.md = none) (t : Nat) :
    c.settled t = { c with wait := .none, held := none, readyAt := t, alaneOn := false } := by
  show ({ c with wait := .none, held := none, readyAt := t, alaneOn := false, md := none } : Core) =
    { c with wait := .none, held := none, readyAt := t, alaneOn := false, md := c.md }
  rw [plain]

/-- An instruction that leaves has set its core itself. -/
theorem issue_leaves {s : State} {c k : Core} {i : Instr} {f : Nat → State → Res} (h : IssuesPlain s c)
    (op : f s.cur s = .done (s.setCore s.cur k) .leave) : issue i f s = .next (s.setCore s.cur k) := by
  rw [issue_done h.toIssues (preTrap_plain h i) (captureTrap_plain h i) op, State.retire, if_pos rfl]

section
variable {s : State} {c : Core} (h : IssuesPlain s c) (m : BitVec 6) (p q r t : BitVec 5) (w : Word)
include h

/-- A call of an expansion beyond the limit of the kernel (05 R126). -/
theorem mcallOp_beyond (limit : c.resMacros.toNat ≤ m.toNat) :
    mcallOp m p q r t w s.cur s = .trap s (overrun 4 m.toNat c.resMacros.toNat) := by
  simp only [mcallOp, h.turn, leads_of_issues h.toIssues, Bool.not_true, Bool.false_eq_true, if_false, if_pos limit]

variable {l : Launch} (limit : m.toNat < c.resMacros.toNat) (launch : s.launchOf c = some l)
include limit launch

/-- A kernel without macros has nothing to issue. -/
theorem mcallOp_undefined (undefined : macroSet (s.cluster (clusterOf s.cur)) (c.ctx.getD 0) l.record.kernel = none) :
    mcallOp m p q r t w s.cur s = .done s .next := by
  simp only [mcallOp, h.turn, leads_of_issues h.toIssues, Bool.not_true, Bool.false_eq_true, if_false,
    if_neg (Nat.not_le.2 limit), launch, undefined]

/-- An expansion whose words can be read and whose operations keep to the limits hands them to the core (05 R125). -/
theorem mcallOp_expands {base : Nat} {ms : MacroSet} {ops : List (Option Modifier × Instr)}
    (set : macroSet (s.cluster (clusterOf s.cur)) (c.ctx.getD 0) l.record.kernel = some (base, ms))
    (good : ∀ b ∈ (s.cluster (clusterOf s.cur)).slotsBad,
      b < base + macroStart ms m.toNat ∨ base + macroStart ms m.toNat + (look [] m.toNat ms.ops).length ≤ b)
    (words : expand (macroParam p q r t) none (look [] m.toNat ms.ops) = .ok ops)
    (vregs : ∀ o ∈ ops, ∀ v ∈ vregsNamed o.2, v.toNat < c.resVregs.toNat) (nonempty : ops ≠ []) :
    mcallOp m p q r t w s.cur s = .done (s.setCore s.cur
      { c with ops := ops, wait := .none, held := none, readyAt := s.now + 2, alaneOn := false }) .leave := by
  have clean : ((s.cluster (clusterOf s.cur)).slotsBad.find? fun b => decide (base + macroStart ms m.toNat ≤ b) &&
      decide (b < base + macroStart ms m.toNat + (look [] m.toNat ms.ops).length)) = none := by
    refine List.find?_eq_none.2 fun b mem => ?_
    have apart := good b mem
    rw [Bool.and_eq_true, decide_eq_true_iff, decide_eq_true_iff]
    omega
  have kept : (ops.findSome? fun o => vregTrap c (vregsNamed o.2)) = none := by
    refine List.findSome?_eq_none_iff.2 fun o mem => ?_
    rw [vregTrap, List.find?_eq_none.2 fun v named => ?_, Option.map_none]
    simpa using vregs o mem v named
  simp only [mcallOp, h.turn, leads_of_issues h.toIssues, Bool.not_true, Bool.false_eq_true, if_false,
    if_neg (Nat.not_le.2 limit), launch, set, clean, words, kept, List.isEmpty_iff, nonempty]

end

/-! #### The operations of a call -/

section
variable {k : Core} {o : Option Modifier × Instr} {rest : List (Option Modifier × Instr)} (now : Nat) (i : Instr)

/-- Before the last operation the pc stands at the MCALL (05 R126). -/
theorem finish_operation (ops : k.ops = o :: rest) (more : rest ≠ []) :
    (k.finish now i .next).pc = k.pc ∧ (k.finish now i .next).ops = rest := by
  obtain ⟨o', rest', rfl⟩ := List.exists_cons_of_ne_nil more
  simp only [Core.finish, ops, and_self]

theorem finish_lastOperation (ops : k.ops = [o]) :
    (k.finish now i .next).pc = (k.fall k.pc).pc ∧ (k.finish now i .next).ops = [] := by
  simp only [Core.finish, ops]
  exact ⟨rfl, rfl⟩

end

/-! #### The modifier word -/

section
variable {s : State} {c : Core} (h : IssuesPlain s c) (m : Modifier) {w : Word} (next : fetchAt s s.cur (c.pc + 4) = .word w)
include h next

theorem modifierState_prefixes {i : Instr} (code : arithWord w = true) (apart : ¬∃ l ∈ c.loops, l.last = c.pc)
    (decoded : decodeWord w = .ok i) : modifierState m s = s.setCore s.cur (c.prefixed m) := by
  have inside : (c.loops.any fun l => l.last == c.pc) = false := by simpa using apart
  simp only [modifierState, h.turn, h.may, h.plain, inside, next, code, decoded, Bool.not_true, Bool.false_eq_true, if_false,
    Option.isSome_none]

/-- A modifier word before a word that is not arithmetic, or at the end of a loop's body, traps at its own address (04 R96). -/
theorem modifierState_traps (misplaced : arithWord w = false ∨ ∃ l ∈ c.loops, l.last = c.pc) :
    modifierState m s = s.takeTrap s.cur (illegalTrap w (modifierBits m) 5) c.pc := by
  have traps (n : Word) : s.leaderTrap s.cur (illegalTrap w (modifierBits m) 5) n =
      s.takeTrap s.cur (illegalTrap w (modifierBits m) 5) c.pc := by
    simp only [State.leaderTrap, h.turn, h.alone, Core.issueAddr, h.plain, Option.isSome_none, Bool.false_eq_true, if_false]
  by_cases looping : ∃ l ∈ c.loops, l.last = c.pc
  · have ends : (c.loops.any fun l => l.last == c.pc) = true := by simpa using looping
    simp only [modifierState, h.turn, h.may, h.plain, ends, Bool.not_true, Bool.false_eq_true, if_false, if_true,
      Option.isSome_none, State.badModifier, next, traps]
  · have inside : (c.loops.any fun l => l.last == c.pc) = false := by simpa using looping
    simp only [modifierState, h.turn, h.may, h.plain, inside, next, misplaced.resolve_right looping, Bool.not_true,
      Bool.not_false, Bool.false_eq_true, if_false, if_true, Option.isSome_none, traps]

end

/-- Settles O11: the call's checks in their order; a modifier word's place and the code of the word after it. -/
theorem macrosAndPrefixes : Obligations.MacrosAndPrefixes := by
  refine ⟨fun s c m p q r t l base ms ops h alone => ⟨fun limit => ?_, fun limit launch set good words vregs nonempty => ?_,
    fun limit launch undefined => ?_, fun k o rest now i => ⟨finish_operation now i, finish_lastOperation now i⟩⟩,
    fun s c n a k st e x w i h next => ⟨fun code apart decoded => ?_, fun misplaced => ?_, fun decoded => ?_⟩⟩
  · refine (issue_plain_trap h (mcallOp_beyond h m p q r t _ limit)).trans ?_
    rw [overrun, mkTrap, BitVec.ofNat_toNat, BitVec.ofNat_toNat, BitVec.setWidth_eq]
    rfl
  · rw [Core.settled_of_plain h.plain]
    exact issue_leaves h (mcallOp_expands h m p q r t _ limit launch set good words vregs nonempty)
  · refine (issue_same (ctl := .next) h nofun (mcallOp_undefined h m p q r t _ limit launch undefined)).trans ?_
    rw [State.completed, finish_next alone rfl rfl]
  · exact congrArg Host.Outcome.next (modifierState_prefixes h _ next code apart decoded)
  · exact congrArg Host.Outcome.next ((modifierState_traps h _ next misplaced).trans (by rw [illegalTrap_eq]; rfl))
  · rw [sorts_decodeWord w i decoded]

end Sys2Proof.Machine

/-! ### Repeat frames (05 R122 to R125) -/

namespace Sys2Proof.Machine

/-! #### Opening a frame -/

/-- The frame that REPF opens, at address `pc`. -/
def openedFrame (pc : Word) (n : BitVec 4) (k : BitVec 6) (sd sa sb : BitVec 4) : Frame :=
  { addr := pc, n := n.toNat + 1, count := k.toNat + 1, sd := sd.toNat, sa := sa.toNat, sb := sb.toNat, captured := [], pass := 0,
    pos := 0, feeding := false }

/-- Whether the block of a REPF of `c` lies within the innermost loop. -/
def Core.blockIn (c : Core) (s : State) (n : BitVec 4) : Except (Nat × PageState) Bool :=
  match c.loops with
  | [] => .ok true
  | l :: _ => blockFits s s.cur l.last.toNat (n.toNat + 1) (c.pc + 4)

section
variable {c : Core} {l : LoopRec} {ls : List LoopRec} (s : State) (n : BitVec 4)

theorem Core.blockIn_cons (loops : c.loops = l :: ls) :
    c.blockIn s n = blockFits s s.cur l.last.toNat (n.toNat + 1) (c.pc + 4) := by
  rw [Core.blockIn, loops]

theorem Core.blockIn_fits
    (fits : ∀ l ls, c.loops = l :: ls → blockFits s s.cur l.last.toNat (n.toNat + 1) (c.pc + 4) = .ok true) :
    c.blockIn s n = .ok true := by
  cases loops : c.loops with
  | nil => rw [Core.blockIn, loops]
  | cons l ls => rw [Core.blockIn_cons s n loops, fits l ls loops]

end

section
variable {s : State} {c : Core} (h : IssuesPlain s c) (n : BitVec 4) (k : BitVec 6) (sd sa sb : BitVec 4)
include h

theorem issue_repf_busy (busy : c.frame ≠ none) : exec (.repf n k sd sa sb) s =
    .next (s.setCore s.cur { c with wait := .stall, held := some (.repf n k sd sa sb), readyAt := s.now + 1 }) := by
  refine issue_plain_stall h ?_
  rw [leaving, repfOp, h.turn, if_pos (Option.isSome_iff_ne_none.2 busy)]

variable (free : c.frame = none)
include free

/-- What REPF does by what its block's place is found to be. -/
theorem repfOp_free : repfOp n k sd sa sb s.cur s =
    match c.blockIn s n with
    | .error (page, st) => .wait (s.requestFrom (dieOf s.cur) (c.ctx.getD 0) page st) .stall
    | .ok false => .trap s (overrun 5 c.pc.toNat 2)
    | .ok true => .done (s.setCore s.cur { c with frame := some (openedFrame c.pc n k sd sa sb) }) .next := by
  rw [repfOp, h.turn, if_neg (by simp [free])]
  rfl

theorem issue_repf_opens (fits : c.blockIn s n = .ok true) : exec (.repf n k sd sa sb) s =
    .next (s.setCore s.cur (({ c with frame := some (openedFrame c.pc n k sd sa sb) }.fall c.pc).settled (s.now + 1))) := by
  have plain : (({ c with frame := some (openedFrame c.pc n k sd sa sb) } : Core).fall c.pc).md = none := h.plain
  rw [Core.settled_of_plain plain]
  refine issue_leaves h ?_
  rw [leaving, repfOp_free h n k sd sa sb free, fits]
  simp only [State.modCore_eq (State.core_setCore_same ..), State.setCore_setCore]

theorem issue_repf_beyond (fits : c.blockIn s n = .ok false) : exec (.repf n k sd sa sb) s =
    .next (s.takeTrap s.cur { cause := 0x02, t0 := 5, t1 := c.pc, t2 := 2, t3 := 0 } c.pc) := by
  have traps : leaving (repfOp n k sd sa sb) s.cur s = .trap s (overrun 5 c.pc.toNat 2) := by
    rw [leaving, repfOp_free h n k sd sa sb free, fits]
  refine (issue_plain_trap h traps).trans ?_
  rw [overrun, mkTrap, BitVec.ofNat_toNat, BitVec.setWidth_eq]
  rfl

theorem issue_repf_fetches {page : Nat} {st : PageState} (fits : c.blockIn s n = .error (page, st)) :
    exec (.repf n k sd sa sb) s =
    .next ((s.requestFrom (dieOf s.cur) (c.ctx.getD 0) page st).hold s.cur (.repf n k sd sa sb) .stall) := by
  refine issue_plain_wait h ?_
  rw [leaving, repfOp_free h n k sd sa sb free, fits]

end

/-- A block by its first word: a prefixed pair counts as one instruction (05 R123). -/
theorem blockFits_succ {s : State} {id last m : Nat} {pc w : Word} (within : pc.toNat ≤ last) (fetched : fetchAt s id pc = .word w) :
    blockFits s id last (m + 1) pc = blockFits s id last m (if w.toNat / 2 ^ 26 = 0x3E then pc + 8 else pc + 4) := by
  have prefixed : (fmajor w == 0x3E#6) = decide (w.toNat / 2 ^ 26 = 0x3E) := by
    rw [← fmajor_toNat, Bool.eq_iff_iff, beq_iff_eq, decide_eq_true_iff, ← BitVec.toNat_inj]
    rfl
  rw [blockFits, if_neg (Nat.not_lt.2 within), fetched]
  simp only [prefixed, decide_eq_true_eq]

/-! #### The course of a frame -/

/-- A frame's step reads the modifier, the rounding mode and where control stands. -/
theorem frameStep_congr {c d : Core} (f : Frame) (i : Instr) (md : d.md = c.md) (rmode : d.rmode = c.rmode) (pc : d.pc = c.pc)
    (loops : d.loops = c.loops) :
    (d.frameStep f i).frame = (c.frameStep f i).frame ∧ (d.frameStep f i).pc = (c.frameStep f i).pc := by
  simp only [Core.frameStep, Core.fall, md, rmode, pc, loops]
  split_ifs <;> exact ⟨rfl, rfl⟩

/-- What completion makes of the frame and the pc is the frame's step. -/
theorem finish_frameStep {c : Core} {f : Frame} (now : Nat) (i : Instr) (noOps : c.ops = []) (frame : c.frame = some f)
    (live : f.feeding = false) {k : Core} (step : c.frameStep f i = k) :
    (c.finish now i .next).frame = k.frame ∧ (c.finish now i .next).pc = k.pc := by
  have finish : c.finish now i .next =
      { ({ c with wait := .none, held := none, readyAt := now + 1, alaneOn := false } : Core).frameStep f i with md := none } := by
    simp only [Core.finish, noOps, frame, live, Bool.false_eq_true, if_false]
  rw [finish, ← step]
  exact frameStep_congr f i rfl rfl rfl rfl

/-! #### What a core issues without a fetch -/

section
variable {s : State} {id : Nat} {c : Core} (core : s.core id = c) (fresh : c.held = none)
include core fresh

theorem turnOf_operation {md : Option Modifier} {i : Instr} {rest : List (Option Modifier × Instr)} (ops : c.ops = (md, i) :: rest) :
    turnOf s id = .run i (({ s with cur := id } : State).setCore id { c with md := md, mdAt := c.pc }) := by
  have core' : ({ s with cur := id } : State).core id = c := core
  simp only [turnOf, core', fresh, ops]

theorem turnOf_replayed {f : Frame} {md : Option Modifier} {i : Instr} (noOps : c.ops = []) (frame : c.frame = some f)
    (replays : f.pass ≠ 0) (live : f.feeding = false) (entry : replayed f = some (md, i)) :
    turnOf s id = .run i (({ s with cur := id } : State).setCore id { c with md := md, mdAt := c.pc }) := by
  have core' : ({ s with cur := id } : State).core id = c := core
  have replaying : c.replaying = true := by simp [Core.replaying, frame, replays, live]
  simp only [turnOf, core', fresh, noOps, replaying, frame, Option.bind_some, entry, if_true]

end

/-- Settles O10: REPF by the place of its block; completion by the step of the frame; the turn by what the core holds. -/
theorem repeatFramesReplay : Obligations.RepeatFramesReplay := by
  refine ⟨fun s c n k sd sa sb h _ => ⟨fun free fits => ?_, fun l ls free loops fits => ?_,
      fun l ls page st free loops fits => ?_,
      fun last m pc w => ⟨rfl, blockFits_succ⟩, issue_repf_busy h n k sd sa sb⟩,
    fun c f now i noOps frame live => ?_,
    fun s id c f e md i rest core fresh => ⟨fun noOps frame replays live entry => ?_, turnOf_operation core fresh,
      fun _ _ _ _ _ _ _ _ => ⟨rfl, rfl, rfl, rfl, rfl⟩⟩⟩
  · exact issue_repf_opens h n k sd sa sb free (Core.blockIn_fits s n fits)
  · exact issue_repf_beyond h n k sd sa sb free ((Core.blockIn_cons s n loops).trans fits)
  · exact issue_repf_fetches h n k sd sa sb free ((Core.blockIn_cons s n loops).trans fits)
  · have course {k : Core} (step : c.frameStep f i = k) := finish_frameStep now i noOps frame live step
    refine ⟨fun capture more => ?_, fun capture full once => ?_, fun capture full repeats vector => ?_,
      fun capture full repeats ⟨e, mem, scalar⟩ => ?_, fun replays more => ?_, fun replays full more => ?_,
      fun replays full last => ?_⟩
    · exact course ((if_pos capture).trans (if_pos more))
    · exact course ((if_pos capture).trans ((if_neg (Nat.not_lt.2 full)).trans (if_pos once)))
    · exact course ((if_pos capture).trans ((if_neg (Nat.not_lt.2 full)).trans ((if_neg (Nat.not_le.2 repeats)).trans
        (if_pos (List.all_eq_true.2 vector)))))
    · exact course ((if_pos capture).trans ((if_neg (Nat.not_lt.2 full)).trans ((if_neg (Nat.not_le.2 repeats)).trans
        (if_neg fun all => absurd (List.all_eq_true.1 all e mem) (by simp [scalar])))))
    · exact course ((if_neg replays).trans (if_pos more))
    · exact course ((if_neg replays).trans ((if_neg (Nat.not_lt.2 full)).trans (if_pos more)))
    · exact course ((if_neg replays).trans ((if_neg (Nat.not_lt.2 full)).trans (if_neg (Nat.not_lt.2 last))))
  · exact turnOf_replayed core fresh noOps frame replays live (by rw [replayed, entry]; rfl)

end Sys2Proof.Machine

/-! ### The accumulators of a slice (07 R173) -/

namespace Sys2Proof.Machine

theorem zIndex_eq_iff (t r n t' r' n' : Nat) :
    zIndex t r n = zIndex t' r' n' ↔ t % 2 = t' % 2 ∧ r % 8 = r' % 8 ∧ n % 8 = n' % 8 := by
  unfold zIndex
  omega

theorem zIndex_lt (t r n : Nat) : zIndex t r n < 128 := by
  unfold zIndex
  omega

theorem Core.readZ_writeZ (c : Core) (t r n t' r' n' : Nat) (w : Word) :
    (c.writeZ t r n w).readZ t' r' n' = if zIndex t r n = zIndex t' r' n' then w else c.readZ t' r' n' :=
  Vector.getElem_set (zIndex_lt t r n) (zIndex_lt t' r' n')

section
variable {α : Type} (t : Nat) (row col : α → Nat) (val : α → Word)

/-- The core with an element of tile `t` written for each entry of a list, in order. -/
def Core.writeZs (l : List α) (c : Core) : Core := l.foldl (fun k x => k.writeZ t (row x) (col x) (val x)) c

theorem Core.writeZs_eq (l : List α) (c : Core) : c.writeZs t row col val l = { c with z := (c.writeZs t row col val l).z } := by
  induction l generalizing c with
  | nil => rfl
  | cons x l ih => exact ih (c.writeZ t (row x) (col x) (val x))

/-- An element reads as written where entries name it and agree on its word, and as before where none does. -/
theorem Core.readZ_writeZs {t' r n : Nat} {w : Word} (l : List α) (c : Core)
    (agree : ∀ x ∈ l, zIndex t (row x) (col x) = zIndex t' r n → val x = w) :
    (c.writeZs t row col val l).readZ t' r n =
      if ∃ x ∈ l, zIndex t (row x) (col x) = zIndex t' r n then w else c.readZ t' r n := by
  induction l generalizing c with
  | nil => simp [Core.writeZs]
  | cons x l ih =>
    obtain ⟨here, rest⟩ := List.forall_mem_cons.1 agree
    refine (ih (c.writeZ t (row x) (col x) (val x)) rest).trans ?_
    simp only [List.exists_mem_cons_iff, Core.readZ_writeZ]
    by_cases later : ∃ y ∈ l, zIndex t (row y) (col y) = zIndex t' r n
    · rw [if_pos later, if_pos (.inr later)]
    · simp only [if_neg later, or_iff_left later]
      split_ifs with hit
      · exact here hit
      · rfl

end

/-- The elements of the first rows of a tile, by row and column. -/
def rowElements (rows : Nat) : List (Nat × Nat) := (List.range rows).flatMap fun r => (List.range 8).map fun n => (r, n)

theorem mem_rowElements {rows : Nat} {x : Nat × Nat} : x ∈ rowElements rows ↔ x.1 < rows ∧ x.2 < 8 := by
  obtain ⟨r, n⟩ := x
  simp [rowElements]

theorem Core.fillRows_eq_writeZs (c : Core) (t rows : Nat) (w : Word) :
    c.fillRows t rows w = c.writeZs t Prod.fst Prod.snd (fun _ => w) (rowElements rows) := by
  simp only [Core.fillRows, Core.writeZs, rowElements, List.foldl_flatMap, List.foldl_map]

theorem Core.fillRows_eq (c : Core) (t rows : Nat) (w : Word) : c.fillRows t rows w = { c with z := (c.fillRows t rows w).z } := by
  rw [Core.fillRows_eq_writeZs]
  exact Core.writeZs_eq ..

theorem Core.readZ_fillRows (c : Core) (t rows t' r n : Nat) (w : Word) :
    (c.fillRows t rows w).readZ t' r n = if t % 2 = t' % 2 ∧ r % 8 < rows then w else c.readZ t' r n := by
  rw [Core.fillRows_eq_writeZs, Core.readZ_writeZs (w := w) t _ _ _ _ c fun _ _ _ => rfl]
  refine if_congr ⟨fun ⟨x, mem, hit⟩ => ?_, fun ⟨tile, row⟩ => ⟨(r % 8, n % 8), ?_, ?_⟩⟩ rfl rfl
  · obtain ⟨tile, row, -⟩ := (zIndex_eq_iff ..).1 hit
    have := (mem_rowElements.1 mem).1
    exact ⟨tile, by omega⟩
  · exact mem_rowElements.2 ⟨row, Nat.mod_lt _ (by decide)⟩
  · rw [zIndex_eq_iff]
    exact ⟨tile, Nat.mod_mod .., Nat.mod_mod ..⟩

/-! ### The elements of a packed vector (06 R141) -/

/-- The number that packs `n` fields of `w` bits. -/
def packSum (w n : Nat) (f : Nat → BitVec w) : Nat := (List.range n).foldl (fun x i => x + (f i).toNat * 2 ^ (w * i)) 0

theorem packSum_succ (w n : Nat) (f : Nat → BitVec w) : packSum w (n + 1) f = packSum w n f + (f n).toNat * 2 ^ (w * n) := by
  rw [packSum, List.range_succ, List.foldl_concat, packSum]

theorem packSum_lt (w n : Nat) (f : Nat → BitVec w) : packSum w n f < 2 ^ (w * n) := by
  induction n with
  | zero => exact Nat.one_pos
  | succ n ih =>
    calc packSum w (n + 1) f = packSum w n f + (f n).toNat * 2 ^ (w * n) := packSum_succ w n f
      _ < 2 ^ (w * n) + (f n).toNat * 2 ^ (w * n) := Nat.add_lt_add_right ih _
      _ = ((f n).toNat + 1) * 2 ^ (w * n) := by ring
      _ ≤ 2 ^ w * 2 ^ (w * n) := Nat.mul_le_mul_right _ (f n).isLt
      _ = 2 ^ (w * (n + 1)) := by ring

theorem packSum_field {w n i : Nat} (f : Nat → BitVec w) (lt : i < n) : packSum w n f / 2 ^ (w * i) % 2 ^ w = (f i).toNat := by
  induction n with
  | zero => exact absurd lt (Nat.not_lt_zero i)
  | succ n ih =>
    rw [packSum_succ]
    rcases Nat.lt_succ_iff_lt_or_eq.1 lt with before | rfl
    · obtain ⟨d, rfl⟩ := Nat.exists_eq_add_of_lt before
      have split : (f (i + d + 1)).toNat * 2 ^ (w * (i + d + 1)) = 2 ^ (w * i) * (2 ^ w * ((f (i + d + 1)).toNat * 2 ^ (w * d))) := by
        ring
      rw [split, Nat.add_mul_div_left _ _ (Nat.two_pow_pos _), Nat.add_mul_mod_self_left, ih before]
    · rw [Nat.add_mul_div_right _ _ (Nat.two_pow_pos _), Nat.div_eq_of_lt (packSum_lt w i f), Nat.zero_add,
        Nat.mod_eq_of_lt (f i).isLt]

theorem extractLsb'_packVec {w n i : Nat} (f : Nat → BitVec w) (fits : w * n ≤ 256) (lt : i < n) :
    (packVec w n f).extractLsb' (w * i) w = f i := by
  have small : packSum w n f < 2 ^ 256 := (packSum_lt w n f).trans_le (Nat.pow_le_pow_right (by decide) fits)
  apply BitVec.eq_of_toNat_eq
  rw [BitVec.extractLsb'_toNat, packVec, BitVec.toNat_ofNat, ← packSum, Nat.mod_eq_of_lt small, Nat.shiftRight_eq_div_pow,
    packSum_field f lt]

/-! ### Ranges of local memory (05 R117, R128) -/

section
variable {s : State} {c : Core} {base size align reason : Nat} {rest : Unit → Res}

theorem orTrap_localTrap_fits (raw : base + size ≤ 0x8000) (owned : base + size ≤ c.resLocal.toNat) (aligned : base % align = 0) :
    orTrap s (localTrap c base size align reason) rest = rest () := by
  rw [localTrap, if_neg raw.not_gt, if_neg owned.not_gt, if_neg (not_not.2 aligned)]
  rfl

/-- The traps of an instruction whose range is checked before all else it does, in their order. -/
theorem issue_rangeTraps {i : Instr} {f : Nat → State → Res} (h : IssuesPlain s c)
    (op : f s.cur s = orTrap s (localTrap c base size align reason) rest) :
    (0x8000 < base + size → issue i f s = .next (s.takeTrap s.cur
      ⟨0x06, BitVec.ofNat 32 (max base 0x8000), BitVec.ofNat 32 reason, 0, 0⟩ c.pc)) ∧
    (base + size ≤ 0x8000 → c.resLocal.toNat < base + size → issue i f s = .next (s.takeTrap s.cur
      ⟨0x02, 3, BitVec.ofNat 32 (max base c.resLocal.toNat), BitVec.ofNat 32 c.resLocal.toNat, 0⟩ c.pc)) ∧
    (base + size ≤ 0x8000 → base + size ≤ c.resLocal.toNat → base % align ≠ 0 → issue i f s = .next (s.takeTrap s.cur
      ⟨0x03, BitVec.ofNat 32 base, BitVec.ofNat 32 align, 0, 0⟩ c.pc)) := by
  have traps {t : Trap} (met : localTrap c base size align reason = some t) : issue i f s = .next (s.takeTrap s.cur t c.pc) :=
    issue_plain_trap h (by rw [op, met, orTrap])
  refine ⟨fun outside => traps ?_, fun raw beyond => traps ?_, fun raw owned crooked => traps ?_⟩
  · rw [localTrap, if_pos outside]
    rfl
  · rw [localTrap, if_neg raw.not_gt, if_pos beyond]
    rfl
  · rw [localTrap, if_neg raw.not_gt, if_neg owned.not_gt, if_pos crooked]
    rfl

end

/-! ### The instructions of a slice (07 R178, R184, R186 to R192) -/

section
variable {s : State} {c : Core} (turn : s.core s.cur = c) {z : BitVec 1}
include turn

/-! #### Errors of a tile's last operation (07 R184) -/

theorem orSliceErr_clean (t : Nat) (clean : c.slice.err = none) (k : Unit → Res) : orSliceErr t s.cur s k = k () := by
  rw [orSliceErr, turn, clean]

theorem orSliceErr_raises {e : SliceErr} (err : c.slice.err = some e) (k : Unit → Res) : orSliceErr e.tile s.cur s k =
    .trap (s.setCore s.cur { c with slice := { c.slice with err := none } }) (sliceTrap e) := by
  rw [orSliceErr, turn, err]
  exact if_pos rfl

/-! #### Waiting for a tile and clearing it (07 R190) -/

variable (free : c.tileInFlight z.toNat = false)
include free

theorem tileOp_goes (f : Core → Core) (clean : c.slice.err = none) :
    tileOp z f s.cur s = .done (s.setCore s.cur (f c)) .next := by
  rw [tileOp, turn, free, orSliceErr_clean turn _ clean]
  rfl

theorem tileOp_raises (f : Core → Core) {e : SliceErr} (err : c.slice.err = some e) (own : e.tile = z.toNat) :
    tileOp z f s.cur s = .trap (s.setCore s.cur { c with slice := { c.slice with err := none } }) (sliceTrap e) := by
  rw [tileOp, turn, free, ← own, orSliceErr_raises turn err]
  rfl

end

/-! #### Binding and staging (07 R178, R186) -/

theorem Slice.settle_eq (x : Slice) : x.settle =
    { x with st := if (x.st = .unbound ∨ x.st = .final) ∧ x.abound = true ∧ x.bstaged = true then .bound else x.st } := by
  simp only [Slice.settle, Bool.and_eq_true, Bool.or_eq_true, decide_eq_true_eq, and_assoc]

section
variable {s : State} {c : Core} (turn : s.core s.cur = c) (r a f : BitVec 5) (done : c.localDone = true)
include turn done

theorem mbindaOp_eq : mbindaOp r a f s.cur s = orTrap s (localTrap c (c.readG a).toNat (panelSize f.toNat r.toNat) 32 6) fun _ =>
    .done (s.setCore s.cur { c with slice := { c.slice with
      abase := (c.readG a).toNat, afmt := f.toNat, arows := r.toNat, abound := true,
      st := if (c.slice.st = .unbound ∨ c.slice.st = .final) ∧ c.slice.bstaged = true then .bound else c.slice.st } }) .next := by
  rw [mbindaOp, turn, done, Slice.settle_eq]
  simp only [Bool.not_true, Bool.false_eq_true, if_false, true_and]

variable (staged : c.slice.stagedAt ≤ s.now)
include staged

theorem mldbOp_eq : ∃ rest, mldbOp a f s.cur s = orTrap s (localTrap c (c.readG a).toNat (pieceSize f.toNat) 32 6) rest ∧
    (c.memBad = [] → rest () = .done (s.setCore s.cur { c with slice := { c.slice with
      stage := readBytes c.mem (c.readG a).toNat (pieceSize f.toNat), stageAt := (c.readG a).toNat, staged := 0, bfmt := f.toNat,
      bstaged := true, stageBad := false, stagedAt := s.now + 1 + (pieceSize f.toNat + 31) / 32,
      st := if (c.slice.st = .unbound ∨ c.slice.st = .final) ∧ c.slice.abound = true then .bound else c.slice.st } }) .next) := by
  have goes : ¬(!c.localDone || decide (s.now < c.slice.stagedAt)) = true := by simp [done, staged]
  rw [mldbOp, turn, if_neg goes]
  refine ⟨_, rfl, fun good => ?_⟩
  simp only [Core.badWord, good, List.find?_nil, List.filter_nil, Option.isSome_none, Slice.settle_eq, and_true]

end

/-! #### Reading a row (07 R189) -/

theorem vregTrap_none {c : Core} {d : BitVec 5} (owned : d.toNat < c.resVregs.toNat) : vregTrap c [d] = none := by
  simp [vregTrap, owned]

theorem mrdOp_reads {s : State} {c : Core} (turn : s.core s.cur = c) {d : BitVec 5} {z : BitVec 1} {row : BitVec 3}
    (goes : c.vectorStall = false) (owned : d.toNat < c.resVregs.toNat) (final : c.tileBusy z.toNat row.toNat = false)
    (clean : c.slice.err = none) : mrdOp d z row s.cur s = .done (s.setCore s.cur (c.queued s (.mrd d z row) fun e =>
      { e with data := packVec 32 8 fun n => c.readZ z.toNat row.toNat n })) .next := by
  rw [mrdOp, turn, goes, vregTrap_none owned, final, orSliceErr_clean turn _ clean, State.enqueue, turn]
  rfl

theorem landRes_eq {s : State} {c : Core} (turn : s.core s.cur = c) (d : BitVec 5) (v : Core → Word) :
    landRes d v s.cur s = .done (s.setCore s.cur (c.landG s.now d (v c))) .next := by
  rw [landRes, turn]

/-! #### The watermark and capability words (07 R191, R192) -/

theorem mwmWord_eq (c : Core) : mwmWord c = BitVec.ofNat 32 (c.slice.wm + 16 * c.slice.tile + 32 * sliceCode c.slice.st +
    (if c.slice.abound then 256 else 0) + (if c.slice.bstaged then 512 else 0) + (if c.slice.err.isSome then 1024 else 0)) := by
  rw [mwmWord]
  congr 1
  dsimp only
  omega

theorem mem_clusterCores {m k : Nat} : m ∈ clusterCores k ↔ m / 8 = k := by
  simp only [clusterCores, List.mem_map, List.mem_range]
  exact ⟨by rintro ⟨j, lt, rfl⟩; omega, fun _ => ⟨m % 8, by omega, by omega⟩⟩

/-- The smallest number of a list, which 8 bounds: CLMAX (07 R192). -/
theorem foldl_min_least {l : List Nat} (f : Nat → Nat) (nonempty : l ≠ []) (bounded : ∀ m ∈ l, f m ≤ 8) :
    (∃ m ∈ l, l.foldl (fun n m => min n (f m)) 8 = f m) ∧ ∀ m ∈ l, l.foldl (fun n m => min n (f m)) 8 ≤ f m := by
  obtain ⟨b, least⟩ := Option.isSome_iff_exists.1 (List.isSome_min?_of_ne_nil (mt List.map_eq_nil_iff.1 nonempty : l.map f ≠ []))
  obtain ⟨mem, below⟩ := List.min?_eq_some_iff.1 least
  obtain ⟨m, inList, rfl⟩ := List.mem_map.1 mem
  have value : l.foldl (fun n m => min n (f m)) 8 = f m := by
    rw [← List.foldl_map, List.foldl_min, least, Option.getD_some, Nat.min_eq_right (bounded m inList)]
  rw [value]
  exact ⟨⟨m, inList, rfl⟩, fun n mem => below _ (List.mem_map_of_mem mem)⟩

/-- MCAP's word in its fields (07 R192). -/
theorem mcapWord_fields (s : State) (id : Nat) :
    (mcapWord s id).toNat % 16 = maxRows s id % 16 ∧
    ((∀ m ∈ clusterCores (id / 8), maxRows s m ≤ 8) →
      (mcapWord s id).toNat % 16 = maxRows s id ∧ (mcapWord s id).toNat / 16 % 16 = id % 8 ∧
      (∃ m ∈ clusterCores (id / 8), (mcapWord s id).toNat / 256 = maxRows s m) ∧
      ∀ m ∈ clusterCores (id / 8), (mcapWord s id).toNat / 256 ≤ maxRows s m) := by
  have own : id ∈ clusterCores (id / 8) := mem_clusterCores.2 rfl
  rw [mcapWord, BitVec.toNat_ofNat, clusterOf, indexOf]
  refine ⟨by omega, fun bounded => ?_⟩
  have rows := bounded id own
  obtain ⟨⟨m, mem, attained⟩, least⟩ := foldl_min_least (maxRows s) (List.ne_nil_of_mem own) bounded
  generalize (clusterCores (id / 8)).foldl (fun n m => min n (maxRows s m)) 8 = cl at attained least ⊢
  have small := least id own
  have fields : (256 * cl + 16 * (id % 8) + maxRows s id) % 2 ^ 32 / 256 = cl := by omega
  exact ⟨by omega, by omega, ⟨m, mem, fields.trans attained⟩, fun n mem => fields.le.trans (least n mem)⟩

/-! #### The shape of a joint operation (07 R188) -/

/-- TILE_SHAPE of a GISSUE without operands, with too many rows or of mixed classes, in this order (07 R188). -/
def Slice.shapeTrap (x : Slice) (rows : Nat) : Option Trap :=
  if !x.abound || !x.bstaged then some (tileTrap 2 ((if x.abound then 2 else 0) + (if x.bstaged then 1 else 0)) 0)
  else if rows < x.arows then some (tileTrap 1 x.arows rows)
  else if fmtClass x.afmt ≠ fmtClass x.bfmt then some (tileTrap 3 x.afmt x.bfmt)
  else none

section
variable {x : Slice} {rows : Nat}

theorem Slice.shapeTrap_missing (missing : x.abound = false ∨ x.bstaged = false) :
    x.shapeTrap rows = some (tileTrap 2 ((if x.abound then 2 else 0) + (if x.bstaged then 1 else 0)) 0) :=
  if_pos (by simpa using missing)

variable (panel : x.abound = true) (piece : x.bstaged = true)
include panel piece

theorem Slice.shapeTrap_operands : x.shapeTrap rows =
    if rows < x.arows then some (tileTrap 1 x.arows rows)
    else if fmtClass x.afmt ≠ fmtClass x.bfmt then some (tileTrap 3 x.afmt x.bfmt) else none :=
  if_neg (by simp [panel, piece])

theorem Slice.shapeTrap_tall (tall : rows < x.arows) : x.shapeTrap rows = some (tileTrap 1 x.arows rows) := by
  rw [Slice.shapeTrap_operands panel piece, if_pos tall]

variable (fits : x.arows ≤ rows)
include fits

theorem Slice.shapeTrap_mixed (mixed : fmtClass x.afmt ≠ fmtClass x.bfmt) : x.shapeTrap rows = some (tileTrap 3 x.afmt x.bfmt) := by
  rw [Slice.shapeTrap_operands panel piece, if_neg fits.not_gt, if_pos mixed]

theorem Slice.shapeTrap_none (alike : fmtClass x.afmt = fmtClass x.bfmt) : x.shapeTrap rows = none := by
  rw [Slice.shapeTrap_operands panel piece, if_neg fits.not_gt, if_neg (not_not.2 alike)]

end

/-- A core whose slice computes nothing and which awaits nothing of its own in cycle `now` (07 R187). -/
def Core.Still (c : Core) (now : Nat) : Prop :=
  c.slice.st ≠ .rotating ∧ c.slice.st ≠ .draining ∧ c.slice.stagedAt ≤ now ∧ c.localDone = true ∧ c.sparse = none ∧ c.wait = .none

/-- The arrival of a core at the joint rendezvous of its cluster, where no core makes it fail (07 R178, R179). -/
def arrival (z : BitVec 1) (s : State) (c : Core) : Res :=
  match jointCause s (clusterOf s.cur) c.ctx none with
  | some m => .trap s (tileTrap 5 (indexOf m) 0)
  | none =>
    let s1 := s.setCore s.cur { c with slice := { c.slice with st := .issued } }
    let all := (clusterCores (clusterOf s.cur)).all fun m => m == s.cur || (s.core m).inJoint
    .wait (if all then s1.setCluster (clusterOf s.cur) { s1.cluster (clusterOf s.cur) with jointAt := some (s.now + 4) } else s1)
      (.joint z.toNat)

/-- GISSUE of a core that is still: the checks of its shape, then its arrival. -/
theorem gissueOp_still {s : State} {c : Core} (turn : s.core s.cur = c) (z : BitVec 1)
    (still : c.Still s.now) :
    gissueOp z s.cur s = orTrap s (c.slice.shapeTrap (maxRows s s.cur)) fun _ => arrival z s c := by
  obtain ⟨rotates, drains, staged, done, dense, awake⟩ := still
  have apart : c.inJoint = false := by rw [Core.inJoint, awake]
  have goes : ¬(c.slice.st = .rotating || c.slice.st = .draining || decide (s.now < c.slice.stagedAt) || !c.localDone ||
      c.sparse.isSome) = true := by simp [rotates, drains, staged, done, dense]
  rw [gissueOp, turn, apart, if_neg Bool.false_ne_true, if_neg goes, Slice.shapeTrap]
  split_ifs <;> rfl

theorem gissue_shapeTraps {s : State} {c : Core} (h : IssuesPlain s c) (z : BitVec 1)
    (still : c.Still s.now) {t : Trap} (shape : c.slice.shapeTrap (maxRows s s.cur) = some t) :
    exec (.gissue z) s = .next (s.takeTrap s.cur t c.pc) :=
  issue_plain_trap h (by rw [gissueOp_still h.turn z still, shape, orTrap])

/-- Settles O25: each instruction by the outcome of its checks; a range's traps are those of any range of local memory. -/
theorem matrixInstructions : Obligations.MatrixInstructions := by
  refine ⟨fun s c z r a f d row h => ⟨fun free clean => ⟨?_, c.fillRows z.toNat 8 0, ?_, fun i j => ?_, fun t i j other => ?_, ?_⟩,
      fun done aligned raw owned => ?_, fun done staged aligned raw owned good => ?_,
      fun goes owned final clean => ⟨_, issue_plain h nofun (mrdOp_reads h.turn goes owned final clean), fun n lt =>
        extractLsb'_packVec _ (by decide) lt⟩, ?_, mcapWord s s.cur, ?_, mcapWord_fields s s.cur⟩,
    fun s c z e r a f h => ⟨?_, ?_⟩⟩
  · exact issue_plain h nofun (tileOp_goes h.turn free id clean)
  · exact issue_plain h nofun (tileOp_goes h.turn free _ clean)
  · rw [Core.readZ_fillRows, if_pos ⟨by omega, Nat.mod_lt _ (by decide)⟩]
  · rw [Core.readZ_fillRows, if_neg (by omega)]
  · rw [Core.fillRows_eq]
  · exact issue_plain h nofun ((mbindaOp_eq h.turn r a f done).trans (orTrap_localTrap_fits raw owned aligned))
  · obtain ⟨rest, checked, completes⟩ := mldbOp_eq h.turn a f done staged
    exact issue_plain h nofun ((checked.trans (orTrap_localTrap_fits raw owned aligned)).trans (completes good))
  · rw [← mwmWord_eq]
    exact issue_plain_lands h d mwmWord
  · exact issue_plain h nofun (landRes_eq h.turn d fun _ => mcapWord s s.cur)
  · simp only [List.forall_mem_cons, List.not_mem_nil, false_implies, implies_true, and_true]
    refine ⟨fun done _ => issue_rangeTraps h (mbindaOp_eq h.turn r a f done), fun done staged => ?_⟩
    obtain ⟨rest, checked, -⟩ := mldbOp_eq h.turn a f done (staged trivial)
    exact issue_rangeTraps h checked
  · refine ⟨fun still missing => gissue_shapeTraps h z still (Slice.shapeTrap_missing missing),
      fun still panel piece tall => gissue_shapeTraps h z still (Slice.shapeTrap_tall panel piece tall),
      fun still panel piece fits mixed => gissue_shapeTraps h z still (Slice.shapeTrap_mixed panel piece fits mixed),
      fun free err own => ?_⟩
    simp only [List.forall_mem_cons, List.not_mem_nil, false_implies, implies_true, and_true]
    exact ⟨issue_plain_trap h (tileOp_raises h.turn free id err own), issue_plain_trap h (tileOp_raises h.turn free _ err own)⟩

end Sys2Proof.Machine

/-! ### One change made to the cores of a cluster (01 R17) -/

namespace Sys2Proof.Machine

theorem clusterCores_nodup (k : Nat) : (clusterCores k).Nodup := by
  refine List.nodup_range.map fun i j same => ?_
  exact Nat.add_left_cancel same

/-- The state in which each core of a list has changed by `g`. -/
def State.modCores (s : State) (l : List Nat) (g : Core → Core) : State := l.foldl (fun q m => q.modCore m g) s

section
variable {s : State} {l : List Nat} {g : Core → Core}

theorem State.modCores_cluster (k : Nat) : (s.modCores l g).cluster k = s.cluster k := by
  induction l generalizing s with
  | nil => rfl
  | cons m l ih => exact ih (s := s.modCore m g)

theorem State.modCores_core (once : l.Nodup) (n : Nat) :
    (s.modCores l g).core n = if n ∈ l then g (s.core n) else s.core n := by
  induction l generalizing s with
  | nil => rfl
  | cons m l ih =>
    obtain ⟨fresh, once⟩ := List.nodup_cons.1 once
    refine (ih (s := s.modCore m g) once).trans ?_
    rcases eq_or_ne n m with rfl | other
    · rw [if_neg fresh, if_pos List.mem_cons_self, State.modCore, State.core_setCore_same]
    · simp only [List.mem_cons, other, false_or, State.modCore, State.core_setCore_other _ _ _ _ other]

/-- A pass over cores that changes each of them by `g`, while the cycle stands, is such a change. -/
theorem foldl_eq_modCores {F : State → Nat → State} (step : ∀ q, q.now = s.now → ∀ m ∈ l, F q m = q.modCore m g) :
    l.foldl F s = s.modCores l g := by
  induction l generalizing s with
  | nil => rfl
  | cons m l ih =>
    rw [List.foldl_cons, step s rfl m List.mem_cons_self]
    exact ih fun q now n mem => step q now n (List.mem_cons_of_mem m mem)

end

/-! ### The start of a joint operation (07 R178 to R180, R187) -/

theorem jointCause_none {s : State} {k : Nat} {x : Option Nat}
    (join : ∀ m ∈ clusterCores k, (s.core m).status = .running ∧ (s.core m).ctx = x ∧ (s.core m).atEnd = false) :
    jointCause s k x none = none := by
  refine List.find?_eq_none.2 fun m mem => ?_
  obtain ⟨running, same, before⟩ := join m mem
  simp [running, same, before]

/-- The core in its GISSUE, at which it arrived in cycle `now`. -/
def Core.arrived (c : Core) (z : BitVec 1) (now : Nat) : Core :=
  { c with slice := { c.slice with st := .issued }, wait := .joint z.toNat, held := some (.gissue z), readyAt := now + 1 }

/-- The state in which the core that has the turn, `c`, has arrived as the last of its cluster: the rendezvous is 4 cycles ahead. -/
def State.gathered (s : State) (c : Core) (z : BitVec 1) : State :=
  (s.setCluster (clusterOf s.cur) { s.cluster (clusterOf s.cur) with jointAt := some (s.now + 4) }).setCore s.cur (c.arrived z s.now)

theorem gissue_gathers {s : State} {c : Core} (h : IssuesPlain s c) (z : BitVec 1)
    (still : c.Still s.now) (shape : c.slice.shapeTrap (maxRows s s.cur) = none)
    (join : jointCause s (clusterOf s.cur) c.ctx none = none)
    (others : ∀ m ∈ clusterCores (clusterOf s.cur), m ≠ s.cur → (s.core m).wait = .joint z.toNat) :
    exec (.gissue z) s = .next (s.gathered c z) := by
  have all : (clusterCores (clusterOf s.cur)).all (fun m => m == s.cur || (s.core m).inJoint) = true := by
    refine List.all_eq_true.2 fun m mem => ?_
    rcases eq_or_ne m s.cur with rfl | other
    · simp
    · simp [Core.inJoint, others m mem other]
  have waits := gissueOp_still h.turn z still
  rw [shape, orTrap, arrival, join] at waits
  simp only [all, if_true] at waits
  refine (issue_plain_wait h waits).trans (congrArg Host.Outcome.next ?_)
  rw [State.hold, State.modCore, State.setCluster_core, State.core_setCore_same]
  exact State.setCore_setCore (s.setCluster (clusterOf s.cur) { s.cluster (clusterOf s.cur) with jointAt := some (s.now + 4) }) ..

/-- A core without what an arrival at the rendezvous moves. -/
def Core.besideArrival (c : Core) : Core :=
  { c with wait := .none, held := none, readyAt := 0, slice := { c.slice with st := .unbound } }

theorem gathered_besideArrival {s : State} {c : Core} (turn : s.core s.cur = c) (z : BitVec 1) (m : Nat) :
    ((s.gathered c z).core m).besideArrival = (s.core m).besideArrival := by
  rcases eq_or_ne m s.cur with rfl | other
  · rw [State.gathered, State.core_setCore_same, turn]
    rfl
  · rw [State.gathered, State.core_setCore_other _ _ _ _ other, State.setCluster_core]

theorem gathered_cluster (s : State) (c : Core) (z : BitVec 1) :
    (s.gathered c z).cluster (clusterOf s.cur) = { s.cluster (clusterOf s.cur) with jointAt := some (s.now + 4) } := by
  rw [State.gathered, State.setCore_cluster, State.cluster_setCluster_same]

/-- The core that leaves its GISSUE of tile `t` in cycle `now`, its slice rotating. -/
def Core.leavesJoint (c : Core) (t now : Nat) : Core := (c.startJoint t).finish now (.gissue (BitVec.ofNat 1 t)) .next

theorem Core.leavesJoint_eq {c : Core} (alone : c.single) (t now : Nat) :
    c.leavesJoint t now = ((c.startJoint t).fall c.pc).settled (now + 1) :=
  finish_next (k := c.startJoint t) alone rfl rfl now _

/-- Core `c`, with nothing pending and nothing half done, waits for the rendezvous of an operation on tile `t` with operands of
class `cls`. -/
structure AtRendezvous (c : Core) (t cls : Nat) : Prop where
  waits   : c.wait = .joint t
  sound   : c.rendErr = none
  landed  : c.pend = []
  running : c.status = .running
  alone   : c.single
  alike   : fmtClass c.slice.afmt = cls

theorem gathered_atRendezvous {s : State} {c : Core} {z : BitVec 1} {cls : Nat}
    (mine : AtRendezvous (c.arrived z s.now) z.toNat cls)
    (others : ∀ m ∈ clusterCores (clusterOf s.cur), m ≠ s.cur → AtRendezvous (s.core m) z.toNat cls) :
    ∀ m ∈ clusterCores (clusterOf s.cur), AtRendezvous ((s.gathered c z).core m) z.toNat cls := by
  intro m mem
  rcases eq_or_ne m s.cur with rfl | other
  · rwa [State.gathered, State.core_setCore_same]
  · rw [State.gathered, State.core_setCore_other _ _ _ _ other]
    exact others m mem other

section
variable {v : State} {k t cls : Nat} (all : ∀ m ∈ clusterCores k, AtRendezvous (v.core m) t cls)
include all

/-- The rendezvous, due: each core completes its GISSUE with its slice rotating, and the cluster holds the operation. -/
theorem jointRendezvousComplete_starts {g : Nat} (set : (v.cluster k).jointAt = some g) (due : g ≤ v.now) :
    ∃ u, exec (.jointRendezvousComplete k) v = .next u ∧ (u.cluster k).joint = some (jointOf v k) ∧ (u.cluster k).jointAt = none ∧
      ∀ m ∈ clusterCores k, u.core m = (((v.core m).startJoint t).fall (v.core m).pc).settled (v.now + 1) := by
  have ready : (clusterCores k).all (fun m => (v.core m).inJoint && (v.core m).rendErr.isNone && (v.core m).pend.isEmpty &&
      (v.core m).status == .running) = true := by
    refine List.all_eq_true.2 fun m mem => ?_
    obtain ⟨waits, sound, landed, running, -, -⟩ := all m mem
    simp [Core.inJoint, waits, sound, landed, running]
  have first : 8 * k ∈ clusterCores k := mem_clusterCores.2 (by omega)
  have alike : (clusterCores k).find? (fun m => fmtClass (v.core m).slice.afmt != fmtClass (v.core (8 * k)).slice.afmt) = none := by
    refine List.find?_eq_none.2 fun m mem => ?_
    simp [(all m mem).alike, (all _ first).alike]
  have closes {q : State} (started : q = v.modCores (clusterCores k) fun c => c.leavesJoint t v.now) :
      q.setCluster k { q.cluster k with joint := some (jointOf v k), jointAt := none } =
        (v.modCores (clusterCores k) fun c => c.leavesJoint t v.now).setCluster k
          { v.cluster k with joint := some (jointOf v k), jointAt := none } := by
    rw [started, State.modCores_cluster]
  have ran : exec (.jointRendezvousComplete k) v = .next ((v.modCores (clusterCores k) fun c => c.leavesJoint t v.now).setCluster k
      { v.cluster k with joint := some (jointOf v k), jointAt := none }) := by
    show execJointRendezvousComplete k v = _
    rw [execJointRendezvousComplete, set]
    simp only [due, ready, alike, decide_true, Bool.and_self, if_true]
    refine congrArg Host.Outcome.next (closes (foldl_eq_modCores fun q now m mem => ?_))
    rw [(all m mem).waits, ← now]
    exact retire_setCore q m _ _ .next nofun
  refine ⟨_, ran, by rw [State.cluster_setCluster_same], by rw [State.cluster_setCluster_same], fun m mem => ?_⟩
  rw [State.setCluster_core, State.modCores_core (clusterCores_nodup k), if_pos mem, Core.leavesJoint_eq (all m mem).alone]

theorem jointOf_cls : (jointOf v k).cls = cls := (all (8 * k) (mem_clusterCores.2 (by omega))).alike

end

/-! ### Ring steps and staging (07 R174, R178, R180, R186) -/

/-- The length of a step is half a row pair's cycles for each row (07 R180). -/
theorem stepLen_eq (o : JointOp) : stepLen o = pairCycles o.cls / 2 * o.mmax := by
  have even : pairCycles o.cls = 2 * (pairCycles o.cls / 2) := by
    unfold pairCycles
    split_ifs <;> rfl
  rw [stepLen]
  conv_lhs => rw [even, Nat.mul_assoc, Nat.mul_div_cancel_left _ Nat.two_pos]

/-- The core as ring step 7 leaves it. -/
def Core.drains (c : Core) : Core :=
  { c with slice := { c.slice with st := if c.slice.st = .rotating then .draining else c.slice.st } }

theorem ringStepBegin_steps {s : State} {k : Nat} {o : JointOp} (joint : (s.cluster k).joint = some o) (more : o.step < 8)
    (due : o.start + o.step * stepLen o ≤ s.now) : ∃ t, exec (.ringStepBegin k) s = .next t ∧
      (t.cluster k).joint = some { o with step := o.step + 1 } ∧
      ∀ n, t.core n = if o.step = 7 ∧ n ∈ clusterCores k then (s.core n).drains else s.core n := by
  have ran : exec (.ringStepBegin k) s = .next (if o.step = 7 then
      (s.setCluster k { s.cluster k with joint := some { o with step := o.step + 1 } }).modCores (clusterCores k) Core.drains
      else s.setCluster k { s.cluster k with joint := some { o with step := o.step + 1 } }) := by
    show execRingStepBegin k s = _
    rw [execRingStepBegin, joint]
    simp only [more, due, decide_true, Bool.and_self, if_true]
    rfl
  refine ⟨_, ran, ?_⟩
  by_cases last : o.step = 7
  · simp only [last, if_true, true_and, State.modCores_cluster, State.cluster_setCluster_same]
    exact State.modCores_core (clusterCores_nodup k)
  · simp only [last, if_false, false_and, State.cluster_setCluster_same, State.setCluster_core, implies_true, and_self]

theorem mldbStagingComplete_ends {s : State} {id : Nat} {c : Core} (core : s.core id = c) (staging : c.slice.stagedAt ≠ 0)
    (due : c.slice.stagedAt ≤ s.now) : exec (.mldbStagingComplete id) s =
      .next (s.setCore id { c with slice := { c.slice with stagedAt := 0 } }) := by
  show execMldbStagingComplete id s = _
  rw [execMldbStagingComplete, core]
  exact congrArg Host.Outcome.next (if_pos (by simp [staging, due]))

/-! ### What a row pair adds (02 R55, R56; 07 R174, R177) -/

theorem fx8Latched_eq (bs : List Byte) (i : Nat) : fx8Latched bs i =
    match fx8Codes bs with
    | none => (.nan genNaN false, 0#8)
    | some x => latched .e4m3 (x.1.getD i 0) x.2 := by
  rw [fx8Latched]
  cases fx8Codes bs <;> rfl

/-- An operand by its format's code (07 R175, R177). -/
theorem operandValue_eq (bs : List Byte) (f i sc : Nat) : operandValue bs f i sc =
    if f = 0 then (valueBF (BitVec.ofNat 16 (byteAt bs (2 * i) + 256 * byteAt bs (2 * i + 1))), 0#8)
    else if f = 1 then latched .e4m3 (byteAt bs i) (byteAt bs sc)
    else if f = 2 then latched .e5m2 (byteAt bs i) (byteAt bs sc)
    else if f = 3 then latched .e2m1 (byteAt bs (i / 2) / (if i % 2 = 0 then 1 else 16) % 16) (byteAt bs sc)
    else fx8Latched ((bs.drop (32 * (i / 32))).take 32) (i % 32) := by
  match f with
  | 0 | 1 | 2 | 3 | _ + 4 => rfl

theorem malformedFx8_iff (bs : List Byte) (f : Nat) : malformedFx8 bs f = true ↔
    f = 4 ∧ ∃ q < bs.length / 32, fx8Codes ((bs.drop (32 * q)).take 32) = none := by
  simp [malformedFx8]

/-- The error that a slice meets first, its panel's before its latch's in the same step (07 R184). -/
theorem jointErr_eq (o : JointOp) (j tile : Nat) : jointErr o j tile =
    match o.badA.getD j none, o.badB.getD j none with
    | none, none => none
    | some x, none => some { addr := x.1, kind := 1, tile := tile, step := x.2 }
    | none, some st => some { addr := 0, kind := 2, tile := tile, step := st }
    | some x, some st => if st < x.2 then some { addr := 0, kind := 2, tile := tile, step := st }
      else some { addr := x.1, kind := 1, tile := tile, step := x.2 } := by
  rw [jointErr]
  cases o.badA.getD j none <;> cases o.badB.getD j none <;> rfl

section
variable (c : Core) (o : JointOp) (j p : Nat)

/-- The elements of row pair `p`, each with its sum and the flags of it. -/
def Core.pairResults : List (Nat × Nat × Word × Flags) :=
  [2 * p, 2 * p + 1].flatMap fun r => (List.range 8).map fun n => (r, n, accumulateAll o j r n (c.readZ c.slice.tile r n))

/-- The core with the sums of row pair `p` written. -/
def Core.pairWritten : Core :=
  c.writeZs c.slice.tile (fun x : Nat × Nat × Word × Flags => x.1) (fun x => x.2.1) (fun x => x.2.2.1) (c.pairResults o j p)

/-- The flags of the operation's rows up to row pair `p`. -/
def Core.pairFlags : Flags := (c.pairResults o j p).foldl (fun f x => f ||| x.2.2.2) c.slice.flags

theorem Core.pairFlags_eq : c.pairFlags o j p = ([2 * p, 2 * p + 1].flatMap fun r => (List.range 8).map fun n =>
    (accumulateAll o j r n (c.readZ c.slice.tile r n)).2).foldl (· ||| ·) c.slice.flags := by
  simp only [Core.pairFlags, Core.pairResults, List.foldl_flatMap, List.foldl_map]

theorem Core.pairWritten_eq : c.pairWritten o j p = { c with z := (c.pairWritten o j p).z } := Core.writeZs_eq ..

theorem Core.mem_pairResults {x : Nat × Nat × Word × Flags} : x ∈ c.pairResults o j p ↔
    (x.1 = 2 * p ∨ x.1 = 2 * p + 1) ∧ x.2.1 < 8 ∧ x.2.2 = accumulateAll o j x.1 x.2.1 (c.readZ c.slice.tile x.1 x.2.1) := by
  obtain ⟨r, n, w⟩ := x
  simp only [Core.pairResults, List.mem_flatMap, List.mem_cons, List.not_mem_nil, or_false, List.mem_map, List.mem_range,
    Prod.mk.injEq]
  exact ⟨by rintro ⟨_, row, _, col, rfl, rfl, rfl⟩; exact ⟨row, col, rfl⟩, fun ⟨row, col, sum⟩ => ⟨r, row, n, col, rfl, rfl, sum.symm⟩⟩

variable {c o j p} (inTile : p < 4)
include inTile

theorem Core.readZ_pairWritten {r n : Nat} (row : r = 2 * p ∨ r = 2 * p + 1) (col : n < 8) :
    (c.pairWritten o j p).readZ c.slice.tile r n = (accumulateAll o j r n (c.readZ c.slice.tile r n)).1 := by
  have listed : (r, n, accumulateAll o j r n (c.readZ c.slice.tile r n)) ∈ c.pairResults o j p :=
    (c.mem_pairResults o j p).2 ⟨row, col, rfl⟩
  refine (Core.readZ_writeZs _ _ _ _ _ c fun x mem hit => ?_).trans (if_pos ⟨_, listed, rfl⟩)
  obtain ⟨inPair, inRow, sum⟩ := (c.mem_pairResults o j p).1 mem
  obtain ⟨-, sameRow, sameCol⟩ := (zIndex_eq_iff ..).1 hit
  rw [sum, show x.1 = r by omega, show x.2.1 = n by omega]

theorem Core.readZ_pairWritten_other {q r n : Nat} (other : q % 2 ≠ c.slice.tile % 2 ∨ r % 8 ≠ 2 * p ∧ r % 8 ≠ 2 * p + 1) :
    (c.pairWritten o j p).readZ q r n = c.readZ q r n := by
  have apart : ∀ x ∈ c.pairResults o j p, zIndex c.slice.tile x.1 x.2.1 ≠ zIndex q r n := by
    intro x mem hit
    obtain ⟨inPair, -, -⟩ := (c.mem_pairResults o j p).1 mem
    obtain ⟨sameTile, sameRow, -⟩ := (zIndex_eq_iff ..).1 hit
    omega
  exact (Core.readZ_writeZs (w := 0) _ _ _ _ _ c fun x mem hit => absurd hit (apart x mem)).trans
    (if_neg fun ⟨x, mem, hit⟩ => apart x mem hit)

end

/-! ### The end of a row pair (07 R178, R180, R181, R184) -/

theorem Core.readZ_congr {c k : Core} (same : c.z = k.z) (q r n : Nat) : c.readZ q r n = k.readZ q r n := by
  simp only [Core.readZ, same]

/-- M of slice `j`: the rows of its A panel (07 R176). -/
def JointOp.rowsOf (o : JointOp) (j : Nat) : Nat := (o.panels.getD j ([], 0, 0)).2.2

/-- Whether the A panel of slice `j` holds a malformed FX8 block (07 R177). -/
def JointOp.badPanel (o : JointOp) (j : Nat) : Bool := malformedFx8 (o.panels.getD j ([], 0, 0)).1 (o.panels.getD j ([], 0, 0)).2.1

section
variable (c : Core) (o : JointOp) (j p : Nat)

/-- The elements of a slice as its last row pair leaves them: those of a slice that found an error are NaN (07 R184). -/
def Core.lastWritten : Core :=
  if (jointErr o j c.slice.tile).isSome then (c.pairWritten o j p).fillRows c.slice.tile (o.rowsOf j) genNaN
  else c.pairWritten o j p

/-- The flags an operation reports: NV also for a malformed FX8 block (07 R177; 02 R56). -/
def Core.lastFlags : Flags :=
  c.pairFlags o j p ||| flagIf (o.badPanel j || o.pieces.any fun q => malformedFx8 q.1 q.2) flNV

theorem Core.lastWritten_eq : c.lastWritten o j p = { c with z := (c.lastWritten o j p).z } := by
  unfold Core.lastWritten
  split_ifs
  · rw [Core.fillRows_eq, Core.pairWritten_eq]
  · exact c.pairWritten_eq o j p

variable {c o j p}

theorem Core.rowPair_more (more : p + 1 < o.rowsOf j / 2) : c.rowPair o j p =
    { c with z := (c.pairWritten o j p).z, slice := { c.slice with wm := 2 * (p + 1), flags := c.pairFlags o j p },
             latch := true } := by
  refine (if_pos more).trans ?_
  show ({ c.pairWritten o j p with
    slice := { (c.pairWritten o j p).slice with wm := 2 * (p + 1), flags := c.pairFlags o j p }, latch := true } : Core) = _
  rw [Core.pairWritten_eq]

theorem Core.rowPair_last (last : o.rowsOf j / 2 ≤ p + 1) : c.rowPair o j p =
    { c.orFlags (c.lastFlags o j p) with
      z := (c.lastWritten o j p).z, latch := true,
      slice := { c.slice with wm := 8, flags := 0, err := (jointErr o j c.slice.tile).or c.slice.err, lock := none,
                              st := if c.slice.abound && c.slice.bstaged then .bound else .final } } := by
  refine (if_neg last.not_gt).trans ?_
  show ({ (c.lastWritten o j p).orFlags (c.lastFlags o j p) with
    latch := true
    slice := { (c.lastWritten o j p).slice with
      wm := 8, flags := 0, err := (jointErr o j c.slice.tile).or (c.lastWritten o j p).slice.err, lock := none,
      st := if (c.lastWritten o j p).slice.abound && (c.lastWritten o j p).slice.bstaged then .bound else .final } } : Core) = _
  rw [Core.lastWritten_eq]
  rfl

theorem Core.rowPair_frame : (c.rowPair o j p).latch = true ∧ (c.rowPair o j p).mem = c.mem ∧ (c.rowPair o j p).g = c.g := by
  rcases Nat.lt_or_ge (p + 1) (o.rowsOf j / 2) with more | last
  · rw [Core.rowPair_more more]
    exact ⟨rfl, rfl, rfl⟩
  · rw [Core.rowPair_last last]
    exact ⟨rfl, rfl, rfl⟩

theorem Core.readZ_rowPair_sound (sound : jointErr o j c.slice.tile = none ∨ p + 1 < o.rowsOf j / 2) (q r n : Nat) :
    (c.rowPair o j p).readZ q r n = (c.pairWritten o j p).readZ q r n := by
  refine Core.readZ_congr ?_ q r n
  rcases Nat.lt_or_ge (p + 1) (o.rowsOf j / 2) with more | last
  · rw [Core.rowPair_more more]
  · have whole : c.lastWritten o j p = c.pairWritten o j p := by
      rw [Core.lastWritten, sound.resolve_right last.not_gt]
      rfl
    rw [Core.rowPair_last last, whole]

theorem Core.readZ_rowPair_faulty (faulty : jointErr o j c.slice.tile ≠ none) (last : o.rowsOf j / 2 ≤ p + 1) {r : Nat}
    (row : r < o.rowsOf j) (n : Nat) : (c.rowPair o j p).readZ c.slice.tile r n = genNaN := by
  have filled : (c.rowPair o j p).z = ((c.pairWritten o j p).fillRows c.slice.tile (o.rowsOf j) genNaN).z := by
    rw [Core.rowPair_last last, Core.lastWritten, if_pos (Option.isSome_iff_ne_none.2 faulty)]
  rw [Core.readZ_congr filled, Core.readZ_fillRows, if_pos ⟨rfl, (Nat.mod_le r 8).trans_lt row⟩]

theorem Core.lastFlags_malformed (malformed : o.badPanel j = true ∨ ∃ q ∈ o.pieces, malformedFx8 q.1 q.2 = true) :
    c.lastFlags o j p = c.pairFlags o j p ||| 0x10 := by
  rw [Core.lastFlags, flagIf, if_pos (by simpa using malformed)]
  rfl

theorem Core.lastFlags_clean (panel : o.badPanel j = false) (pieces : ∀ q ∈ o.pieces, malformedFx8 q.1 q.2 = false) :
    c.lastFlags o j p = c.pairFlags o j p := by
  rw [Core.lastFlags, flagIf, panel, Bool.false_or, if_neg (by simpa using pieces), BitVec.or_zero]

end

theorem rowPairComplete_completes {s : State} {id : Nat} {c : Core} {o : JointOp} (core : s.core id = c)
    (joint : (s.cluster (clusterOf id)).joint = some o) (draining : c.slice.st = .draining)
    (due : pairDue o (c.slice.wm / 2) ≤ s.now) : ∃ t, exec (.rowPairComplete id) s = .next t ∧
      t.core id = c.rowPair o (indexOf id) (c.slice.wm / 2) ∧ ∀ q, q ≠ id → t.core q = s.core q := by
  have ran : exec (.rowPairComplete id) s = execRowPairComplete id s := rfl
  simp only [execRowPairComplete, joint, core, draining, due, decide_true, Bool.and_self, if_true, State.modCore_eq core] at ran
  refine ⟨_, ran, ?_⟩
  split_ifs
  · exact ⟨State.core_setCore_same .., fun q other => State.core_setCore_other _ _ _ _ other⟩
  · exact ⟨State.core_setCore_same .., fun q other => State.core_setCore_other _ _ _ _ other⟩

/-- Settles O26: the rendezvous and the ring steps by what they do to the cluster's cores; a row pair by the list of its elements,
each with the sum that the model accumulates. -/
theorem matrixOperations : Obligations.MatrixOperations := by
  refine ⟨fun s c z k h alone own awake bound panel piece rows alike staged done dense others sound landed running fresh => ?_,
    fun s id k o c core own joint => ?_⟩
  · subst own
    have still : c.Still s.now := by simp [Core.Still, bound, staged, done, dense, awake]
    have join : jointCause s (clusterOf s.cur) c.ctx none = none := by
      refine jointCause_none fun m mem => ?_
      rcases eq_or_ne m s.cur with rfl | other
      · rw [h.turn]
        exact ⟨running, rfl, by rw [Core.atEnd, fresh]⟩
      · obtain ⟨-, -, -, running, -, same, held, -⟩ := others m mem other
        exact ⟨running, same, by rw [Core.atEnd, held]⟩
    have all := gathered_atRendezvous (s := s) (c := c) (z := z) ⟨rfl, sound, landed, running, alone, rfl⟩ fun m mem other =>
      have ⟨waits, sound, landed, running, alone, _, _, alike⟩ := others m mem other
      ⟨waits, sound, landed, running, alone, alike⟩
    refine ⟨s.gathered c z, gissue_gathers h z still (Slice.shapeTrap_none panel piece rows alike) join
      fun m mem other => (others m mem other).1, ?_, ?_, congrArg Cluster.jointAt (gathered_cluster s c z), fun now due => ?_⟩
    · rw [State.gathered, State.core_setCore_same]
      rfl
    · rw [State.gathered, State.core_setCore_same]
      rfl
    · obtain ⟨u, ran, op, ended, cores⟩ := jointRendezvousComplete_starts (v := { s.gathered c z with now := now })
        all (congrArg Cluster.jointAt (gathered_cluster s c z)) due
      have same {α : Type} (f : Core → α) (m : Nat) : f ((s.gathered c z).core m).besideArrival = f (s.core m).besideArrival :=
        congrArg f (gathered_besideArrival h.turn z m)
      refine ⟨u, _, ran, op, ended, jointOf_cls (v := { s.gathered c z with now := now }) all, rfl, rfl, ?_, fun m mem => ?_⟩
      · exact List.map_map.trans (List.map_congr_left fun m _ => (same (fun q => (q.slice.stage, q.slice.bfmt)) m :))
      · rw [cores m mem]
        exact ⟨rfl, rfl, rfl, rfl, rfl, same (fun q => (q.fall q.pc).pc) m,
          same (fun q => some (q.slice.abase, panelSize q.slice.afmt q.slice.arows)) m⟩
  · intro T D
    have step : stepLen o = D := stepLen_eq o
    refine ⟨fun more due => ?_, ?_, fun staging due => mldbStagingComplete_ends core staging due⟩
    · obtain ⟨t, ran, next, cores⟩ := ringStepBegin_steps joint more (step ▸ due)
      refine ⟨t, ran, next, fun early => ?_, fun last rotates mem => ?_⟩
      · rw [cores, if_neg fun both => early both.1, core]
      · rw [cores, if_pos ⟨last, mem⟩, core, Core.drains, if_pos rotates]
    · intro p j z pn m byte narrow operand a b product sum terms add result flags malformed err draining due unfinished tile
      have operands : operandValue = operand := by
        funext bs f i scale
        rw [operandValue_eq, fx8Latched_eq]
        rfl
      have sums (r n : Nat) : accumulateAll o j r n (c.readZ z r n) = result r n := by
        unfold accumulateAll blockTerms panelValue pieceValue
        rw [operands]
        rfl
      have gathers : c.pairFlags o j p = flags := by
        rw [Core.pairFlags_eq]
        simp only [sums, flags, z]
      have finds : jointErr o j z = err := jointErr_eq o j z
      have inTile : p < 4 := by omega
      obtain ⟨t, ran, pair, others⟩ := rowPairComplete_completes core (own ▸ joint) draining
        (show o.start + 7 * stepLen o + (p + 1) * pairCycles o.cls ≤ s.now from step ▸ due)
      obtain ⟨latch, mem, regs⟩ := Core.rowPair_frame (c := c) (o := o) (j := j) (p := p)
      refine ⟨t, ran, ?_⟩
      rw [show t.core id = c.rowPair o j p from pair]
      refine ⟨fun sound => ⟨fun n col r row => ?_, fun q inTwo r inEight n _ other => ?_⟩, fun faulty last r row n _ => ?_,
        fun more => ?_, fun last => ?_, latch, mem, regs, others⟩
      · rw [Core.readZ_rowPair_sound (sound.imp_left finds.trans), ← sums]
        exact Core.readZ_pairWritten inTile (by simpa using row) col
      · rw [Core.readZ_rowPair_sound (sound.imp_left finds.trans)]
        exact Core.readZ_pairWritten_other inTile (by omega)
      · exact Core.readZ_rowPair_faulty (finds ▸ faulty) last row n
      · rw [Core.rowPair_more more]
        exact ⟨rfl, draining, gathers, rfl⟩
      · rw [Core.rowPair_last last, ← finds]
        refine ⟨rfl, rfl, rfl, rfl, fun bad => ?_, fun panel pieces => ?_⟩
        · rw [← gathers, ← Core.lastFlags_malformed (by simpa only [JointOp.badPanel, malformedFx8_iff] using bad)]
          rfl
        · have sound : o.badPanel j = false := by simpa only [JointOp.badPanel, Bool.eq_false_iff, ne_eq, malformedFx8_iff] using panel
          have whole : ∀ q ∈ o.pieces, malformedFx8 q.1 q.2 = false := by
            simpa only [Bool.eq_false_iff, ne_eq, malformedFx8_iff] using pieces
          rw [← gathers, ← Core.lastFlags_clean sound whole]
          rfl

end Sys2Proof.Machine
